-- ==== Sys2Proof/Word.lean ====
section
/-! DEFINITION. The word types of the Umivo M9 and their plainest arithmetic (R2, R3, R26). -/

namespace Sys2Proof

/-- A 32-bit register value or instruction word (R23, R48). -/
abbrev Word := BitVec 32
/-- A 64-bit value (R26) or literal (R53). -/
abbrev Dword := BitVec 64
/-- The smallest addressable unit of memory (R3). -/
abbrev Byte := BitVec 8

/-- The 64-bit value of an even register (low half) and the next one (R26). -/
abbrev pair (lo hi : Word) : Dword := hi ++ lo

/-- The low half of a 64-bit value (R26). -/
abbrev lowHalf (x : Dword) : Word := x.truncate 32
/-- The high half of a 64-bit value (R26). -/
abbrev highHalf (x : Dword) : Word := (x >>> 32).truncate 32

end Sys2Proof
end

