-- ==== Sys2Proof/Config.lean ====
section
/-! DEFINITION. What an implementation fixes and what the spec leaves free: bodiless constants. Nothing in
Lean can evaluate them, so no statement can rest on a value. -/

namespace Sys2Proof.Config

/-- The latencies and transits of R456, by kind. -/
inductive Lat where
  | l1
  | scratch
  | toHome
  | toHub
  | l2Fill
  | divide
  | trans
  | copyStart
  | rsmp
  | frame
  | preempt
deriving DecidableEq, Repr

/-- Cycles beyond the first that a message of the kind takes (R456); n is the message's number. -/
opaque latency : Lat → Nat → Nat

/-- A value the spec leaves open: the n-th one drawn in a run, at any width. -/
opaque freeByte : Nat → Byte
/-- A free bit, for a choice the spec leaves open. -/
opaque freeBit : Nat → Bool

/-- The bin is UMV9-X7, else UMV9-X8 (R13). -/
opaque x7 : Bool

/-- Die d's fuse map: the place, among the built hubs that are still left, of the i-th hub that is not enabled, counted
modulo their number (R14). -/
opaque fuse : Nat → Nat → Nat

/-- The answer the host's map gives to the module's own units (fault queues, rings, traces): context,
page number, and the number of the question. none: denied; else place 0 here, 1 host, 2 + m module m,
and the translated page. -/
opaque unitMap : Nat → Nat → Nat → Option (Nat × Nat)

/-- The coefficient table: the energy in femtojoules of one event of each kind (R420). -/
opaque coefficients : Vector (BitVec 32) 64
/-- An entry of the table. -/
def energyOf (e : Nat) : Nat := (coefficients.toArray.getD e 0).toNat

/-- A firmware image: its body and the digest, signature and public key that it carries (R428). -/
structure Firmware where
  body : List Byte
  digest : List Byte
  signature : List Byte
  keyN : Nat
  keyE : Nat

/-- The module's firmware images, in the order of their indexes, and the boot ROM's SHA-256 of the vendor's public key (R428). -/
opaque firmware : List Firmware
opaque vendorHash : List Byte

/-- The identity key: its modulus and its private exponent, which no port can read (R429). -/
opaque identityN : Nat
opaque identityD : Nat

/-- The items that the receive buffer of a spoke port holds (R393). -/
opaque portBuffer : Nat

/-- I/O die 9, else 8, serves a line of the DDR-5 tier (R418). -/
opaque ddrDie : Nat → Bool

/-- A refresh tick falls in the cycle (R396). -/
opaque refresh : Nat → Bool

/-- The bytes of section k of an image, and the number of its scan map (R405, R406). -/
opaque sectionSize : Nat → Nat
opaque scanMap : Nat

/-- The name that a scan map gives a bit of a section: MAPID, section, bit (R406, R408). -/
opaque scanName : Nat → Nat → Nat → String

end Sys2Proof.Config
end

