-- ==== Sys2Proof/Syntax.lean ====
section
/-! DEFINITION. The syntax of one step: the fields of an instruction word (R48, R50), the names the
events act on, and Instr, one constructor for each row of the table of operations and events. -/

namespace Sys2Proof

/-- The fields of a base word (R48) and the literal, when LEN announces one (R47, R53). -/
structure Base where
  s : Bool
  d : BitVec 7
  a : BitVec 7
  b : BitVec 7
  m : Bool
  lit : Option Dword
deriving DecidableEq, Repr

/-- The fields of an extended instruction (R50) and the literal, when LEN announces one. -/
structure Ext where
  s : Bool
  d : BitVec 8
  a : BitVec 8
  sub : BitVec 6
  b : BitVec 8
  c : BitVec 8
  n : Bool
  p : BitVec 3
  rnd : BitVec 3
  fmt : BitVec 4
  scope : BitVec 3
  ord : BitVec 2
  imm : Word
  lit : Option Dword
deriving DecidableEq, Repr

/-- A quarter: global hub number 32 x die + enabled hub (R14, R402), core and quarter (R9). -/
structure QRef where
  hub : Nat
  core : Nat
  quarter : Nat
deriving DecidableEq, Repr

/-- A team: the kernel's creation number and the team index (R32). -/
structure TeamRef where
  kid : Nat
  team : Nat
deriving DecidableEq, Repr

/-- A gang of a team (R32). -/
structure GangRef where
  kid : Nat
  team : Nat
  gang : Nat
deriving DecidableEq, Repr

/-- A thread: its gang and its lane column (R9, R32). -/
structure ThreadRef where
  kid : Nat
  team : Nat
  gang : Nat
  lane : Nat
deriving DecidableEq, Repr

/-- The gang of a thread. -/
def ThreadRef.gangRef (r : ThreadRef) : GangRef := { kid := r.kid, team := r.team, gang := r.gang }
/-- The team of a thread. -/
def ThreadRef.teamRef (r : ThreadRef) : TeamRef := { kid := r.kid, team := r.team }
/-- The team of a gang. -/
def GangRef.teamRef (r : GangRef) : TeamRef := { kid := r.kid, team := r.team }

/-- What the stamping gate sees of an item (R396, R397). -/
structure Arrival where
  port : Nat
  kind : Nat
  desc : Dword
  payload : List Byte
deriving DecidableEq, Repr

/-- The set a pre-emption or a debug command names (R274, R328). -/
inductive HaltSet where
  | thread (t : ThreadRef)
  | gang (g : GangRef)
  | team (t : TeamRef)
  | context (ctx : Nat)
  | module
deriving DecidableEq, Repr

/-- Why threads are halted (R305, R328). -/
inductive HaltWhy where
  | save
  | debug
  | breakpoint
  | brk
  | sysHalt
  | stop
deriving DecidableEq, Repr

/-- What a staged edit of a debug session changes (R274). -/
inductive EditWhat where
  | vreg (n : Nat) (x : Word)
  | preds (x : Byte)
  | pc (x : Dword)
  | fmode (x : BitVec 3)
  | sptr (x : Word)
  | lineage (x : Dword)
  | rngctr (x : Dword)
  | tackst (x : Word)
  | popst (x : Word)
  | spawns (n : Nat)
  /-- `xcause`, `xpc`, `xaddr`, `xword0` to `xword3` and `xfld`, numbered 0 to 7 -/
  | trapReg (n : Nat) (x : Dword)
  /-- word k of the value of entry n of the pending list -/
  | pending (n k : Nat) (x : Word)
  /-- destination, register count and place in the order of entry n of the pending list -/
  | pendingEntry (n reg count order : Nat)
  | nest (n : Nat)
  | pass (n : Nat)
  /-- the state and the park reason, by their code in a thread image -/
  | state (code : Nat)
  /-- bit n of ARR, and PH of barrier n (R351) -/
  | arrived (n : Nat) (x : Bool)
  | phase (n x : Nat)
  /-- a register of the thread's gang -/
  | greg (n : Nat) (x : Word)
deriving DecidableEq, Repr

/-- A Translation Completion (R369, R370, R375): the translated base, its size, the permissions and U. -/
inductive AtsReply where
  | done (base : Nat) (logSize : Nat) (r w x u : Bool)
  | unsupported
  | abort
deriving DecidableEq, Repr

/-- The unit in which an uncorrectable error is found (R157, R418). -/
inductive ErrorUnit where
  | threadReg (t : ThreadRef) (n : Nat)
  | gangReg (g : GangRef) (n : Nat)
  | l1Data (hub pa sector : Nat)
  | l1Tag (hub pa : Nat)
  | translation (hub : Nat) (ctx page : Nat)
  | tack (hub core entry : Nat)
  | hubScratch (window : Nat)
  | coreScratch (window : Nat)
  | accumulator (window : Nat)
  /-- a sector of a line, home or replica, in a slice -/
  | l2 (slice pa sector : Nat)
  | hbm (pa : Nat)
  | ddr (pa : Nat)
  /-- a unit of any other array, found by an access of the thread -/
  | other (t : ThreadRef) (addr : Nat)
deriving DecidableEq, Repr

/-- The two register spaces a write can reach (R390, R402). -/
inductive RegSpace where
  | bar0
  | management
deriving DecidableEq, Repr

/-- The operands of one event; an event reads those its rule names and the others stay at their defaults.
They stand in the state beside the event (the model's own field), not in the constructor. -/
structure Event where
  /-- the stamped item the event takes effect for (R396) -/
  item : Arrival := { port := 0, kind := 0, desc := 0, payload := [] }
  /-- a message, request or record -/
  id : Nat := 0
  hub : Nat := 0
  core : Nat := 0
  quarter : Nat := 0
  /-- a bin, copy, counter, entry, slot or sector -/
  index : Nat := 0
  ctx : Nat := 0
  queue : Nat := 0
  kernel : Nat := 0
  port : Nat := 0
  addr : Dword := 0
  size : Nat := 0
  x : Dword := 0
  flag : Bool := false
  thread : ThreadRef := { kid := 0, team := 0, gang := 0, lane := 0 }
  set : HaltSet := .module
  why : HaltWhy := .save
  edit : EditWhat := .sptr 0
  ats : AtsReply := .abort
  unit : ErrorUnit := .hbm 0
  space : RegSpace := .bar0
deriving DecidableEq, Repr

/-- One indivisible step of the machine: an instruction form or an event. The docstring of a constructor
names its row and the rule that governs it. An event's operands are those of `Event`. -/
inductive Instr where
  /-- ADD (R104). -/
  | add (o : Base)
  /-- ADD_EXT (R104). -/
  | addExt (o : Ext)
  /-- SUB (R104). -/
  | sub (o : Base)
  /-- SUB_EXT (R104). -/
  | subExt (o : Ext)
  /-- MUL (R104). -/
  | mul (o : Base)
  /-- MUL_EXT (R104). -/
  | mulExt (o : Ext)
  /-- MULH (R104). -/
  | mulh (o : Base)
  /-- MULH_EXT (R104). -/
  | mulhExt (o : Ext)
  /-- MAD (R104). -/
  | mad (o : Base)
  /-- MAD_EXT (R104). -/
  | madExt (o : Ext)
  /-- NEG (R104). -/
  | neg (o : Base)
  /-- NEG_EXT (R104). -/
  | negExt (o : Ext)
  /-- ABS (R104). -/
  | abs (o : Base)
  /-- ABS_EXT (R104). -/
  | absExt (o : Ext)
  /-- MIN (R104). -/
  | min (o : Base)
  /-- MIN_EXT (R104). -/
  | minExt (o : Ext)
  /-- MAX (R104). -/
  | max (o : Base)
  /-- MAX_EXT (R104). -/
  | maxExt (o : Ext)
  /-- AND (R104). -/
  | and (o : Base)
  /-- AND_EXT (R104). -/
  | andExt (o : Ext)
  /-- OR (R104). -/
  | or (o : Base)
  /-- OR_EXT (R104). -/
  | orExt (o : Ext)
  /-- XOR (R104). -/
  | xor (o : Base)
  /-- XOR_EXT (R104). -/
  | xorExt (o : Ext)
  /-- NOT (R104). -/
  | not (o : Base)
  /-- NOT_EXT (R104). -/
  | notExt (o : Ext)
  /-- ANDN (R104). -/
  | andn (o : Base)
  /-- ANDN_EXT (R104). -/
  | andnExt (o : Ext)
  /-- SHL (R104). -/
  | shl (o : Base)
  /-- SHL_EXT (R104). -/
  | shlExt (o : Ext)
  /-- SHR (R104). -/
  | shr (o : Base)
  /-- SHR_EXT (R104). -/
  | shrExt (o : Ext)
  /-- SAR (R104). -/
  | sar (o : Base)
  /-- SAR_EXT (R104). -/
  | sarExt (o : Ext)
  /-- ROT (R104). -/
  | rot (o : Base)
  /-- ROT_EXT (R104). -/
  | rotExt (o : Ext)
  /-- BFE (R105). -/
  | bfe (o : Base)
  /-- BFE_EXT (R105). -/
  | bfeExt (o : Ext)
  /-- BFI (R105). -/
  | bfi (o : Base)
  /-- BFI_EXT (R105). -/
  | bfiExt (o : Ext)
  /-- POPC (R104). -/
  | popc (o : Base)
  /-- POPC_EXT (R104). -/
  | popcExt (o : Ext)
  /-- CLZ (R104). -/
  | clz (o : Base)
  /-- CLZ_EXT (R104). -/
  | clzExt (o : Ext)
  /-- CTZ (R104). -/
  | ctz (o : Base)
  /-- CTZ_EXT (R104). -/
  | ctzExt (o : Ext)
  /-- BREV (R104). -/
  | brev (o : Base)
  /-- BREV_EXT (R104). -/
  | brevExt (o : Ext)
  /-- SEL (R107). -/
  | sel (o : Ext)
  /-- MOV (R106). -/
  | mov (o : Base)
  /-- MOV_EXT (R106). -/
  | movExt (o : Ext)
  /-- MOVK (R106). -/
  | movk (o : Base)
  /-- MOVK_EXT (R106). -/
  | movkExt (o : Ext)
  /-- LEA (R108). -/
  | lea (o : Base)
  /-- LEA_EXT (R108). -/
  | leaExt (o : Ext)
  /-- CMP (R109). -/
  | cmp (o : Base)
  /-- CMP_EXT (R109). -/
  | cmpExt (o : Ext)
  /-- DIV (R110). -/
  | div (o : Base)
  /-- DIV_EXT (R110). -/
  | divExt (o : Ext)
  /-- REM (R110). -/
  | rem (o : Base)
  /-- REM_EXT (R110). -/
  | remExt (o : Ext)
  /-- FADD (R111). -/
  | fadd (o : Base)
  /-- FADD_EXT (R111). -/
  | faddExt (o : Ext)
  /-- FSUB (R111). -/
  | fsub (o : Base)
  /-- FSUB_EXT (R111). -/
  | fsubExt (o : Ext)
  /-- FMUL (R111). -/
  | fmul (o : Base)
  /-- FMUL_EXT (R111). -/
  | fmulExt (o : Ext)
  /-- FFMA (R111). -/
  | ffma (o : Base)
  /-- FFMA_EXT (R111). -/
  | ffmaExt (o : Ext)
  /-- FMIN (R112). -/
  | fmin (o : Base)
  /-- FMIN_EXT (R112). -/
  | fminExt (o : Ext)
  /-- FMAX (R112). -/
  | fmax (o : Base)
  /-- FMAX_EXT (R112). -/
  | fmaxExt (o : Ext)
  /-- FABS (R112). -/
  | fabs (o : Base)
  /-- FABS_EXT (R112). -/
  | fabsExt (o : Ext)
  /-- FNEG (R112). -/
  | fneg (o : Base)
  /-- FNEG_EXT (R112). -/
  | fnegExt (o : Ext)
  /-- FCMP (R113). -/
  | fcmp (o : Base)
  /-- FCMP_EXT (R113). -/
  | fcmpExt (o : Ext)
  /-- FRND (R111). -/
  | frnd (o : Base)
  /-- FRND_EXT (R111). -/
  | frndExt (o : Ext)
  /-- FCLASS (R114). -/
  | fclass (o : Base)
  /-- FCLASS_EXT (R114). -/
  | fclassExt (o : Ext)
  /-- FSCALE (R111). -/
  | fscale (o : Base)
  /-- FSCALE_EXT (R111). -/
  | fscaleExt (o : Ext)
  /-- FCVT (R116). -/
  | fcvt (o : Base)
  /-- FCVT_EXT (R116). -/
  | fcvtExt (o : Ext)
  /-- FDP4 (R115). -/
  | fdp4 (o : Base)
  /-- FDP4_EXT (R115). -/
  | fdp4Ext (o : Ext)
  /-- HADD2 (R117). -/
  | hadd2 (o : Base)
  /-- HADD2_EXT (R117). -/
  | hadd2Ext (o : Ext)
  /-- HMUL2 (R117). -/
  | hmul2 (o : Base)
  /-- HMUL2_EXT (R117). -/
  | hmul2Ext (o : Ext)
  /-- HFMA2 (R117). -/
  | hfma2 (o : Base)
  /-- HFMA2_EXT (R117). -/
  | hfma2Ext (o : Ext)
  /-- HMIN2 (R117). -/
  | hmin2 (o : Base)
  /-- HMIN2_EXT (R117). -/
  | hmin2Ext (o : Ext)
  /-- HMAX2 (R117). -/
  | hmax2 (o : Base)
  /-- HMAX2_EXT (R117). -/
  | hmax2Ext (o : Ext)
  /-- HCMP2 (R118). -/
  | hcmp2 (o : Base)
  /-- HCMP2_EXT (R118). -/
  | hcmp2Ext (o : Ext)
  /-- EX2 (R119). -/
  | ex2 (o : Base)
  /-- EX2_EXT (R119). -/
  | ex2Ext (o : Ext)
  /-- LG2 (R119). -/
  | lg2 (o : Base)
  /-- LG2_EXT (R119). -/
  | lg2Ext (o : Ext)
  /-- RCP (R119). -/
  | rcp (o : Base)
  /-- RCP_EXT (R119). -/
  | rcpExt (o : Ext)
  /-- RSQ (R119). -/
  | rsq (o : Base)
  /-- RSQ_EXT (R119). -/
  | rsqExt (o : Ext)
  /-- SQRT (R119). -/
  | sqrt (o : Base)
  /-- SQRT_EXT (R119). -/
  | sqrtExt (o : Ext)
  /-- SIN (R119). -/
  | sin (o : Base)
  /-- SIN_EXT (R119). -/
  | sinExt (o : Ext)
  /-- COS (R119). -/
  | cos (o : Base)
  /-- COS_EXT (R119). -/
  | cosExt (o : Ext)
  /-- BRA (R120). -/
  | bra (o : Ext)
  /-- BRX (R120). -/
  | brx (o : Base)
  /-- BRX_EXT (R120). -/
  | brxExt (o : Ext)
  /-- CALL (R122). -/
  | call (o : Ext)
  /-- CALLX (R122). -/
  | callx (o : Base)
  /-- CALLX_EXT (R122). -/
  | callxExt (o : Ext)
  /-- RET (R123). -/
  | ret (o : Base)
  /-- RET_EXT (R123). -/
  | retExt (o : Ext)
  /-- EXIT (R327). -/
  | exit (o : Base)
  /-- EXIT_EXT (R327). -/
  | exitExt (o : Ext)
  /-- NOP (R126). -/
  | nop (o : Base)
  /-- NOP_EXT (R126). -/
  | nopExt (o : Ext)
  /-- YIELD (R126). -/
  | yield (o : Base)
  /-- YIELD_EXT (R126). -/
  | yieldExt (o : Ext)
  /-- BRK (R127). -/
  | brk (o : Base)
  /-- BRK_EXT (R127). -/
  | brkExt (o : Ext)
  /-- PLOG (R128). -/
  | plog (o : Ext)
  /-- PMOV (R129). -/
  | pmov (o : Base)
  /-- PMOV_EXT (R129). -/
  | pmovExt (o : Ext)
  /-- SHFL (R131). -/
  | shfl (o : Ext)
  /-- VOTE (R132). -/
  | vote (o : Ext)
  /-- RDFL (R133). -/
  | rdfl (o : Base)
  /-- RDFL_EXT (R133). -/
  | rdflExt (o : Ext)
  /-- REDUX (R134). -/
  | redux (o : Ext)
  /-- SCAN_INSTR (R134). -/
  | scanInstr (o : Ext)
  /-- SRD (R135). -/
  | srd (o : Base)
  /-- SRD_EXT (R135). -/
  | srdExt (o : Ext)
  /-- SWR (R135). -/
  | swr (o : Base)
  /-- SWR_EXT (R135). -/
  | swrExt (o : Ext)
  /-- LD (R164). -/
  | ld (o : Base)
  /-- LD_EXT (R164). -/
  | ldExt (o : Ext)
  /-- ST (R166). -/
  | st (o : Base)
  /-- ST_EXT (R166). -/
  | stExt (o : Ext)
  /-- ATOM (R170). -/
  | atom (o : Ext)
  /-- RED (R170). -/
  | red (o : Ext)
  /-- FENCE (R173). -/
  | fence (o : Ext)
  /-- PF (R174). -/
  | pf (o : Ext)
  /-- PRES (R175). -/
  | pres (o : Base)
  /-- PRES_EXT (R175). -/
  | presExt (o : Ext)
  /-- SFENCE (R176). -/
  | sfence (o : Base)
  /-- SFENCE_EXT (R176). -/
  | sfenceExt (o : Ext)
  /-- DCOPY (R188). -/
  | dcopy (o : Ext)
  /-- PSTEP (R187). -/
  | pstep (o : Base)
  /-- PSTEP_EXT (R187). -/
  | pstepExt (o : Ext)
  /-- LKWAIT (R179). -/
  | lkwait (o : Base)
  /-- LKWAIT_EXT (R179). -/
  | lkwaitExt (o : Ext)
  /-- TACK_LD (R202). -/
  | tackLd (o : Base)
  /-- TACK_LD_EXT (R202). -/
  | tackLdExt (o : Ext)
  /-- TACK_OPEN (R203). -/
  | tackOpen (o : Base)
  /-- TACK_OPEN_EXT (R203). -/
  | tackOpenExt (o : Ext)
  /-- TACK_CHK (R204). -/
  | tackChk (o : Ext)
  /-- TACK_DROP (R205). -/
  | tackDrop (o : Base)
  /-- TACK_DROP_EXT (R205). -/
  | tackDropExt (o : Ext)
  /-- GSYNC (R358). -/
  | gsync (o : Base)
  /-- GSYNC_EXT (R358). -/
  | gsyncExt (o : Ext)
  /-- BAR_ARR (R353). -/
  | barArr (o : Ext)
  /-- BAR_WAIT (R355). -/
  | barWait (o : Ext)
  /-- BAR_SYNC (R356). -/
  | barSync (o : Ext)
  /-- TB_INIT (R361). -/
  | tbInit (o : Ext)
  /-- TB_ARR (R361). -/
  | tbArr (o : Ext)
  /-- TB_EXP (R361). -/
  | tbExp (o : Ext)
  /-- TB_WAIT (R363). -/
  | tbWait (o : Ext)
  /-- TB_TEST (R363). -/
  | tbTest (o : Ext)
  /-- JOIN (R325). -/
  | join (o : Base)
  /-- JOIN_EXT (R325). -/
  | joinExt (o : Ext)
  /-- GRIDSYNC (R364). -/
  | gridsync (o : Base)
  /-- GRIDSYNC_EXT (R364). -/
  | gridsyncExt (o : Ext)
  /-- SPAWN (R320). -/
  | spawn (o : Ext)
  /-- XACQ (R316). -/
  | xacq (o : Base)
  /-- XACQ_EXT (R316). -/
  | xacqExt (o : Ext)
  /-- XREL (R317). -/
  | xrel (o : Base)
  /-- XREL_EXT (R317). -/
  | xrelExt (o : Ext)
  /-- RSMP (R336). -/
  | rsmp (o : Ext)
  /-- BKDECL (R234). -/
  | bkdecl (o : Ext)
  /-- MMA (R239). -/
  | mma (o : Ext)
  /-- MZERO (R251). -/
  | mzero (o : Ext)
  /-- MLD (R251). -/
  | mld (o : Ext)
  /-- MLD_REGS (R251). -/
  | mldRegs (o : Ext)
  /-- MST (R251). -/
  | mst (o : Ext)
  /-- MST_REGS (R251). -/
  | mstRegs (o : Ext)
  /-- MCVT (R251). -/
  | mcvt (o : Ext)
  /-- QBLK (R253). -/
  | qblk (o : Ext)
  /-- QPOST (R287). -/
  | qpost (o : Ext)
  /-- QSIG (R287). -/
  | qsig (o : Ext)
  /-- MARK (R419). -/
  | mark (o : Base)
  /-- MARK_EXT (R419). -/
  | markExt (o : Ext)
  /-- SYS_TRAP (R268). -/
  | sysTrap (o : Base)
  /-- SYS_TRAP_EXT (R268). -/
  | sysTrapExt (o : Ext)
  /-- SYS_TRET (R268). -/
  | sysTret (o : Base)
  /-- SYS_TRET_EXT (R268). -/
  | sysTretExt (o : Ext)
  /-- SYS_TKILL (R268). -/
  | sysTkill (o : Base)
  /-- SYS_TKILL_EXT (R268). -/
  | sysTkillExt (o : Ext)
  /-- SYS_HALT (R268). -/
  | sysHalt (o : Base)
  /-- SYS_HALT_EXT (R268). -/
  | sysHaltExt (o : Ext)
  /-- SYS_CAD (R425). -/
  | sysCad (o : Base)
  /-- SYS_CAD_EXT (R425). -/
  | sysCadExt (o : Ext)
  /-- SYS_IDLE (R268). -/
  | sysIdle (o : Base)
  /-- SYS_IDLE_EXT (R268). -/
  | sysIdleExt (o : Ext)
  /-- POWER_ON (R398). -/
  | powerOn
  /-- MODULE_RESET (R429). -/
  | moduleReset
  /-- ATTESTATION_REPORT (R429). -/
  | attestationReport
  /-- DRAM_REFRESH (R396). -/
  | dramRefresh
  /-- PICKER_TICK (R311). -/
  | pickerTick
  /-- CADENCE_TAKES_EFFECT (R21). -/
  | cadenceTakesEffect
  /-- DEFERRED_RESULT_RETURN (R59). -/
  | deferredResultReturn
  /-- THREAD_WAKE (R305). -/
  | threadWake
  /-- L1_FILL_RETURN (R150). -/
  | l1FillReturn
  /-- WRITE_BACK_ACK (R147). -/
  | writeBackAck
  /-- L2_FILL (R457). -/
  | l2Fill
  /-- CURRENT_GENERATION_BUMP (R151). -/
  | currentGenerationBump
  /-- RELEASE_WRITE_BACK_COMPLETE (R148). -/
  | releaseWriteBackComplete
  /-- RELEASE_ACCESS_ACK (R162). -/
  | releaseAccessAck
  /-- WRITER_NOTICE (R153). -/
  | writerNotice
  /-- REPLICA_INVALIDATION_ACK (R154). -/
  | replicaInvalidationAck
  /-- PROMOTION_ACKNOWLEDGEMENT (R221). -/
  | promotionAcknowledgement
  /-- TACK_CHECK (R194). -/
  | tackCheck
  /-- TACK_REPLY (R194). -/
  | tackReply
  /-- TACK_ENTRY_EXPIRY (R196). -/
  | tackEntryExpiry
  /-- COPY_REGISTER (R183). -/
  | copyRegister
  /-- COPY_SOURCE_READ (R184). -/
  | copySourceRead
  /-- COPY_SECTOR_LAND (R185). -/
  | copySectorLand
  /-- COPY_FAULT (R189). -/
  | copyFault
  /-- OPERAND_FETCH (R247). -/
  | operandFetch
  /-- OPERAND_FETCH_COMPLETE (R247). -/
  | operandFetchComplete
  /-- PASS_GRANT (R244). -/
  | passGrant
  /-- PASS_WRITE (R246). -/
  | passWrite
  /-- PORT_OPERATION_START (R244). -/
  | portOperationStart
  /-- PORT_OPERATION_COMPLETE (R251). -/
  | portOperationComplete
  /-- OPERAND_GENERATION_BUMP (R248). -/
  | operandGenerationBump
  /-- BIN_TIMER_EXPIRY (R321). -/
  | binTimerExpiry
  /-- GANG_FORMATION (R322). -/
  | gangFormation
  /-- XACQ_GRANT (R318). -/
  | xacqGrant
  /-- JOIN_RETURN (R325). -/
  | joinReturn
  /-- GRIDSYNC_ARRIVAL_PACKET (R365). -/
  | gridsyncArrivalPacket
  /-- RESAMPLE (R336). -/
  | resample
  /-- RESAMPLE_COMPLETE (R346). -/
  | resampleComplete
  /-- PREEMPTION_REQUEST (R328). -/
  | preemptionRequest
  /-- PREEMPTION_REACHES_QUARTER (R328). -/
  | preemptionReachesQuarter
  /-- TEAM_SAVE (R271). -/
  | teamSave
  /-- TEAM_RESTORE (R272). -/
  | teamRestore
  /-- CONTEXT_CREATE (R261). -/
  | contextCreate
  /-- CONTEXT_SAVE (R261). -/
  | contextSave
  /-- CONTEXT_RESTORE (R261). -/
  | contextRestore
  /-- CONTEXT_DESTROY (R261). -/
  | contextDestroy
  /-- DEBUG_RIGHT_REVOKE (R275). -/
  | debugRightRevoke
  /-- DEBUG_SESSION_OPEN (R274). -/
  | debugSessionOpen
  /-- DEBUG_HALT (R274). -/
  | debugHalt
  /-- DEBUG_READ (R274). -/
  | debugRead
  /-- DEBUG_STAGE_EDIT (R274). -/
  | debugStageEdit
  /-- DEBUG_COMMIT (R274). -/
  | debugCommit
  /-- DEBUG_SET_BREAKPOINT (R274). -/
  | debugSetBreakpoint
  /-- DEBUG_SET_TAKEBRK (R276). -/
  | debugSetTakebrk
  /-- DEBUG_RESUME (R274). -/
  | debugResume
  /-- QUEUE_CREATE (R288). -/
  | queueCreate
  /-- QUEUE_RESET (R288). -/
  | queueReset
  /-- QUEUE_DESTROY (R288). -/
  | queueDestroy
  /-- DOORBELL (R279). -/
  | doorbell
  /-- NOP_PACKET (R282). -/
  | nopPacket
  /-- LAUNCH_PACKET (R282). -/
  | launchPacket
  /-- WAIT_PACKET (R284). -/
  | waitPacket
  /-- SIGNAL_PACKET (R282). -/
  | signalPacket
  /-- SNAPSHOT_PACKET (R409). -/
  | snapshotPacket
  /-- TRACE_OPEN_PACKET (R282). -/
  | traceOpenPacket
  /-- TRACE_CLOSE_PACKET (R288). -/
  | traceClosePacket
  /-- WAIT_COUNTER_READ (R284). -/
  | waitCounterRead
  /-- ADMISSION_SNAPSHOT (R292). -/
  | admissionSnapshot
  /-- ENERGY_GRANT (R424). -/
  | energyGrant
  /-- TEAM_DISPATCH (R298). -/
  | teamDispatch
  /-- KERNEL_DRAIN_END (R304). -/
  | kernelDrainEnd
  /-- TRANSLATION_COMPLETION (R375). -/
  | translationCompletion
  /-- PRG_RESPONSE (R375). -/
  | prgResponse
  /-- INVALIDATE_REQUEST (R378). -/
  | invalidateRequest
  /-- CONTEXT_GENERATION_BUMP (R378). -/
  | contextGenerationBump
  /-- INVALIDATE_COMPLETION (R379). -/
  | invalidateCompletion
  /-- LEASE_END (R377). -/
  | leaseEnd
  /-- REGION_COUNTER_ZEROING (R381). -/
  | regionCounterZeroing
  /-- MOVE_BEGIN (R384). -/
  | moveBegin
  /-- MOVE_DRAINED (R384). -/
  | moveDrained
  /-- MOVE_END (R384). -/
  | moveEnd
  /-- MOVE_HISTORY_FREE (R385). -/
  | moveHistoryFree
  /-- SETTLED_END (R385). -/
  | settledEnd
  /-- LINK_ENABLE (R394). -/
  | linkEnable
  /-- LINK_DISABLE (R394). -/
  | linkDisable
  /-- LINK_RETRAIN (R394). -/
  | linkRetrain
  /-- LINK_ERRCNT_CLEAR (R394). -/
  | linkErrcntClear
  /-- TRAINING_COMPLETE (R394). -/
  | trainingComplete
  /-- LOSS_OF_LOCK (R394). -/
  | lossOfLock
  /-- HOST_MEMORY_WRITE (R391). -/
  | hostMemoryWrite
  /-- HOST_READ_REQUEST (R397). -/
  | hostReadRequest
  /-- HOST_ATOMICOP (R389). -/
  | hostAtomicop
  /-- HOST_COMPLETION (R226). -/
  | hostCompletion
  /-- FABRIC_PACKET (R393). -/
  | fabricPacket
  /-- ETHERNET_FRAME_RECEIVE (R395). -/
  | ethernetFrameReceive
  /-- ETHERNET_TXTAIL_WRITE (R395). -/
  | ethernetTxtailWrite
  /-- ETHERNET_FRAME_SENT (R395). -/
  | ethernetFrameSent
  /-- ALIGNMENT_REQUEST_SEND (R400). -/
  | alignmentRequestSend
  /-- ALIGNMENT_REQUEST_RECEIVE (R400). -/
  | alignmentRequestReceive
  /-- ALIGNMENT_ANSWER (R400). -/
  | alignmentAnswer
  /-- SLOG_MODE_OFF (R398). -/
  | slogModeOff
  /-- SLOG_MODE_RECORD (R398). -/
  | slogModeRecord
  /-- SLOG_MODE_REPLAY (R398). -/
  | slogModeReplay
  /-- SLOG_OVF_CLEAR (R398). -/
  | slogOvfClear
  /-- REPLAY_INJECT (R399). -/
  | replayInject
  /-- STOPCYC_WRITE (R404). -/
  | stopcycWrite
  /-- FREEZE (R404). -/
  | freeze
  /-- SCAN (R405). -/
  | scan
  /-- SCAN_DONE (R405). -/
  | scanDone
  /-- RESTART (R407). -/
  | restart
  /-- RESTART_DONE (R407). -/
  | restartDone
  /-- RESUME (R405). -/
  | resume
  /-- CLEAN (R405). -/
  | clean
  /-- COUNTER_CLEAR (R412). -/
  | counterClear
  /-- UNCORRECTABLE_ERROR (R157). -/
  | uncorrectableError
  /-- CLEAN_REFETCH (R158). -/
  | cleanRefetch
  /-- SAMPLE_PERIOD_TEST (R417). -/
  | samplePeriodTest
  /-- SAMPLED_ACCESS_COMPLETE (R416). -/
  | sampledAccessComplete
  /-- EPOCH_END (R422). -/
  | epochEnd
  /-- THERMAL_LIMIT (R427). -/
  | thermalLimit
  /-- REGISTER_WRITE (R2). -/
  | registerWrite
  /-- HOME_SLICE_ACCESS (R214). -/
  | homeSliceAccess
  /-- PROMOTION_REQUEST (R221). -/
  | promotionRequest
  /-- LINK_LEVEL_RETRY (R394). -/
  | linkLevelRetry
  /-- SPOKE_PORT_PAUSE (R393). -/
  | spokePortPause
deriving DecidableEq, Repr

end Sys2Proof
end

