-- ==== Sys2Proof/Decode.lean ====
section
/-! DEFINITION. From instruction words to instructions and back: the fields of R47 to R53, the forms and
operand roles of the opcode map (R63, R67, R68, R69, R102, R159 and the entries), the checks of R70 in
their order, and the encoder. -/

namespace Sys2Proof

/-! ## Type codes (R56) -/

namespace Ty
abbrev i32 : Nat := 0
abbrev n32 : Nat := 1
abbrev i64 : Nat := 2
abbrev n64 : Nat := 3
abbrev f32 : Nat := 4
abbrev f16 : Nat := 5
abbrev bf16 : Nat := 6
abbrev i8 : Nat := 7
abbrev n8 : Nat := 8
abbrev l6 : Nat := 9
abbrev x4 : Nat := 10
/-- Codes 11 to 15 are reserved (R56). -/
def defined (t : Nat) : Bool := t < 11
/-- Registers an operand of the type takes (R26, R101). -/
def regs (t : Nat) : Nat := if t == i64 || t == n64 then 2 else if t == x4 then 4 else 1
/-- Access size in bytes of `ld` and `st` (R160). -/
def bytes (t : Nat) : Nat :=
  if t == i8 || t == n8 then 1 else if t == f16 || t == bf16 then 2
  else if t == i64 || t == n64 then 8 else if t == x4 then 16 else 4
/-- val(x) reads the pattern as signed for `.i32` and `.i64` (R104). -/
def signed (t : Nat) : Bool := t == i32 || t == i64
end Ty

/-! ## Fields of a word sequence -/

/-- The fields of R48 or R50 laid side by side; a base form leaves the fields it lacks zero (R37). -/
structure Fields where
  ext : Bool
  op : BitVec 7
  s : Bool
  d : BitVec 8
  a : BitVec 8
  b : BitVec 8
  c : BitVec 8
  m : Bool
  sub : BitVec 6
  n : Bool
  p : BitVec 3
  rnd : BitVec 3
  fmt : BitVec 4
  scope : BitVec 3
  ord : BitVec 2
  imm : Word
  lit : Option Dword
deriving DecidableEq, Repr

/-- LEN of word 0 (R47). -/
def lenOf (w0 : Word) : BitVec 2 := w0.extractLsb' 30 2
/-- LEN 10 and 11 announce the extended form (R47). -/
def isExt (w0 : Word) : Bool := (lenOf w0).getLsbD 1
/-- LEN 01 and 11 announce a literal (R47). -/
def hasLit (w0 : Word) : Bool := (lenOf w0).getLsbD 0
/-- Length in bytes (R47). -/
def lengthOf (w0 : Word) : Nat := (if isExt w0 then 12 else 4) + (if hasLit w0 then 8 else 0)

/-- The base fields of word 0 (R48). -/
def baseOf (w0 : Word) (lit : Dword) : Base where
  s := w0.getLsbD 29
  d := w0.extractLsb' 15 7
  a := w0.extractLsb' 8 7
  b := w0.extractLsb' 1 7
  m := w0.getLsbD 0
  lit := if hasLit w0 then some lit else none

/-- The extended fields of words 0 to 2 (R50). -/
def extOf (w0 w1 w2 : Word) (lit : Dword) : Ext where
  s := w0.getLsbD 29
  d := w0.extractLsb' 14 8
  a := w0.extractLsb' 6 8
  sub := w0.extractLsb' 0 6
  b := w1.extractLsb' 24 8
  c := w1.extractLsb' 16 8
  n := w1.getLsbD 15
  p := w1.extractLsb' 12 3
  rnd := w1.extractLsb' 9 3
  fmt := w1.extractLsb' 5 4
  scope := w1.extractLsb' 2 3
  ord := w1.extractLsb' 0 2
  imm := w2
  lit := if hasLit w0 then some lit else none

/-- The fields of a base word of opcode op; C and SUB are zero (R37). -/
def Base.fields (o : Base) (op : BitVec 7) : Fields where
  ext := false
  op := op
  s := o.s
  d := o.d.zeroExtend 8
  a := o.a.zeroExtend 8
  b := o.b.zeroExtend 8
  c := 0
  m := o.m
  sub := 0
  n := false
  p := 0
  rnd := 0
  fmt := 0
  scope := 0
  ord := 0
  imm := 0
  lit := o.lit

/-- The fields of an extended instruction of opcode op. -/
def Ext.fields (o : Ext) (op : BitVec 7) : Fields where
  ext := true
  op := op
  s := o.s
  d := o.d
  a := o.a
  b := o.b
  c := o.c
  m := false
  sub := o.sub
  n := o.n
  p := o.p
  rnd := o.rnd
  fmt := o.fmt
  scope := o.scope
  ord := o.ord
  imm := o.imm
  lit := o.lit

/-! ## Operand codes (R49, R51) -/

/-- What an operand code names. A base code is widened by `baseCode` first. -/
inductive Opnd where
  | v (n : Nat)
  | g (n : Nat)
  | zero
  | one
  | minusOne
  | half
  | fone
  | two
  | lane
  | rank
  | lit
  | reserved
deriving DecidableEq, Repr

/-- The common part of R49 and R51: constant codes 0x70 to 0x78. -/
def Opnd.constant (c : Nat) : Opnd :=
  match c with
  | 0x70 => .zero
  | 0x71 => .one
  | 0x72 => .minusOne
  | 0x73 => .half
  | 0x74 => .fone
  | 0x75 => .two
  | 0x76 => .lane
  | 0x77 => .rank
  | 0x78 => .lit
  | _ => .reserved

/-- The operand a code names, in the base form (R49) or the extended form (R51). -/
def Opnd.of (ext : Bool) (code : BitVec 8) : Opnd :=
  let c := code.toNat
  if c < 0x60 then .v c
  else if ext && 0x80 ≤ c then .g (c - 0x80)
  else if !ext && 0x60 ≤ c && c < 0x70 then .g (c - 0x60)
  else Opnd.constant c

/-- lane and rank count as thread-register sources (R103). -/
def Opnd.isThread : Opnd → Bool
  | .v _ | .lane | .rank => true
  | _ => false
def Opnd.isGang : Opnd → Bool
  | .g _ => true
  | _ => false

/-! ## Special register numbers (R32) -/

/-- Access column of R32. -/
inductive SrAccess where
  | ro
  | rw
  | mixed
  | rp
deriving DecidableEq, Repr

/-- Width in registers, access, and whether the scope is "thread" (R32); none: unassigned. -/
def srInfo (n : Nat) : Option (Nat × SrAccess × Bool) :=
  match n with
  | 0x00 => some (1, .ro, true)
  | 0x01 => some (1, .ro, false)
  | 0x02 => some (1, .ro, false)
  | 0x03 => some (1, .ro, true)
  | 0x04 => some (1, .ro, true)
  | 0x05 => some (2, .ro, true)
  | 0x06 => some (1, .ro, false)
  | 0x07 => some (1, .ro, false)
  | 0x08 => some (1, .ro, false)
  | 0x09 => some (1, .ro, false)
  | 0x0A => some (1, .ro, false)
  | 0x0B => some (1, .ro, true)
  | 0x10 => some (2, .ro, false)
  | 0x11 => some (1, .rw, true)
  | 0x12 => some (2, .ro, false)
  | 0x13 => some (2, .ro, true)
  | 0x14 => some (1, .rw, true)
  | 0x15 => some (1, .mixed, true)
  | 0x16 => some (1, .mixed, true)
  | 0x17 => some (1, .ro, false)
  | 0x18 => some (2, .ro, false)
  | 0x20 => some (1, .ro, true)
  | 0x21 => some (2, .rw, true)
  | 0x22 => some (2, .ro, true)
  | 0x23 => some (1, .ro, true)
  | 0x24 => some (1, .ro, true)
  | 0x25 => some (1, .ro, true)
  | 0x26 => some (2, .ro, true)
  | 0x27 => some (2, .ro, true)
  | 0x30 => some (1, .rp, false)
  | 0x31 => some (1, .rp, false)
  | 0x32 => some (1, .rp, false)
  | _ => none

/-! ## Forms: the operand roles of each opcode -/

/-- What a gang-register destination means (R28, R58, R103). -/
inductive GangDst where
  /-- the scalar datapath; thread-register sources are illegal -/
  | scalar
  /-- `rdfl` and `redux`, with a reduction of their own -/
  | reduce
  /-- no gang destination: BADF 3 -/
  | never
deriving DecidableEq, Repr

/-- The role an entry gives an operand field (R52). w counts registers. -/
inductive Role where
  | unused
  | dst (w : Nat) (g : GangDst)
  /-- `atom` may name 0x70 to discard the old value (R52) -/
  | dstOrNone (w : Nat)
  | src (w : Nat)
  /-- a gang register, a constant code or the literal; numbers: `lane` and `rank` too, which R49 lists among the constant
  codes and R314 and R334 exclude by name (R250, R314, R334) -/
  | uniform (numbers : Bool)
  /-- destination predicate in [2:0] (R52) -/
  | predDst
  /-- source predicate in [2:0] (R52) -/
  | predSrc
  /-- condition in [6:4], predicate in [2:0] (R68): whether un and ord are allowed, whether N is even -/
  | cond (unord even : Bool)
  /-- a special register number (R39) -/
  | special (write : Bool)
  /-- vS with S a multiple of 16 (R237, R250); written: as a destination -/
  | rows (written : Bool)
  /-- an even gang register that holds a descriptor (R230) -/
  | desc
  /-- vS or gS with S a multiple of 4 (R319) -/
  | args
  /-- the sub-operation of `sys` (R69) -/
  | sysOp
deriving DecidableEq, Repr

/-- How an instruction uses RND (R55, R102). -/
inductive RndUse where
  | off
  | rounds
  /-- rounds, and accepts RS -/
  | narrowing
deriving DecidableEq, Repr

/-- What M selects in the base form (R67). -/
inductive MUse where
  /-- no base form -/
  | absent
  /-- M = 1 is illegal; the base type -/
  | only (t : Nat)
  /-- the base types for M = 0 and M = 1 -/
  | two (t0 t1 : Nat)
deriving DecidableEq, Repr

/-- An instance's form: roles, types, and the fields it uses. -/
structure Form where
  m : MUse
  /-- the sub-operation is assigned (R68, R69) -/
  assigned : Bool := true
  /-- accepted types; [] where FMT is unused -/
  types : List Nat := []
  /-- the pair (R88) or the operation (R134) accepts its type -/
  typeOk : Bool := true
  d : Role := .unused
  a : Role := .unused
  b : Role := .unused
  c : Role := .unused
  rnd : RndUse := .off
  hasScope : Bool := false
  ords : List Nat := [0]
  /-- bits of IMM32 the instance uses -/
  imm : Nat := 0
  /-- a further condition of the entry that reports BADF 2 -/
  bad2 : Bool := false
  /-- SUB bits are assigned at all (R68) -/
  subUsed : Bool := false
  /-- no SUB subfield holds a reserved value (R68) -/
  subOk : Bool := true
  /-- draft-safe column (R63, R69); a "no" forbids guards (R54) -/
  draft : Bool := true
deriving DecidableEq, Repr

abbrev intTypes : List Nat := [Ty.i32, Ty.n32, Ty.i64, Ty.n64]
abbrev moveTypes : List Nat := [Ty.i32, Ty.n32, Ty.f32, Ty.i64, Ty.n64]
abbrev loadTypes : List Nat :=
  [Ty.i8, Ty.n8, Ty.f16, Ty.bf16, Ty.i32, Ty.n32, Ty.f32, Ty.i64, Ty.n64, Ty.x4]
abbrev allImm : Nat := 0xFFFFFFFF

/-- The type code of an instance: FMT, or what M selects (R67). -/
def typeOf (m : MUse) (f : Fields) : Nat :=
  if f.ext then f.fmt.toNat
  else match m with
    | .absent => 0
    | .only t => t
    | .two t0 t1 => if f.m then t1 else t0

/-- The pairs of R88 (destination, source). -/
def cvtPair (dt st : Nat) : Bool :=
  if dt == Ty.f32 then
    [Ty.i32, Ty.n32, Ty.i64, Ty.n64, Ty.i8, Ty.n8, Ty.f16, Ty.bf16, Ty.l6].contains st
  else [Ty.f16, Ty.bf16, Ty.l6, Ty.i32, Ty.n32, Ty.i64, Ty.n64, Ty.i8, Ty.n8].contains dt
    && st == Ty.f32
/-- The narrowing destinations of R88. -/
def cvtNarrow (dt : Nat) : Bool := dt == Ty.f16 || dt == Ty.bf16 || dt == Ty.l6

/-- Source type of `fcvt` (R116). -/
def cvtSrc (f : Fields) : Nat :=
  if f.ext then (f.sub.extractLsb' 0 4).toNat else if f.m then Ty.f32 else Ty.i32

/-- Types of an atomic operation (R169). -/
def atomTypes (op : Nat) : List Nat :=
  if op == 1 then [Ty.f32]
  else if op == 7 || op == 8 then [Ty.i32, Ty.n32, Ty.f32, Ty.i64, Ty.n64]
  else intTypes

/-- ORD acquire or acq_rel with SCOPE device: where RMT is accepted (R68). -/
def rmtPlace (f : Fields) : Bool := (f.ord == 1 || f.ord == 3) && f.scope == 2

/-- A part of SUB. -/
def subBits (f : Fields) (lo n : Nat) : Nat := (f.sub.toNat >>> lo) % 2 ^ n

abbrev int2 : MUse := .two Ty.i32 Ty.n32
abbrev float2 : MUse := .two Ty.f32 Ty.x4
abbrev half2 : MUse := .two Ty.f16 Ty.bf16
/-- A base form of no type (R67, last row). -/
abbrev plain : MUse := .only 0

/-- Two sources and a destination of the type's width, with an optional third source that the base form
reads from D (R52). -/
def arith (f : Fields) (m : MUse) (ts : List Nat) (rnd : RndUse) (wide : Nat → Nat → Role)
    (third : Bool := false) : Form :=
  let w := Ty.regs (typeOf m f)
  { m := m, types := ts, d := .dst w .scalar, a := .src w, b := wide w 0,
    c := if third && f.ext then .src w else .unused, rnd := rnd }

/-- A space's base operand in registers (R136). -/
def baseRegs (space : Nat) : Nat := if space == 0 then 2 else 1

/-- `ld` and `st` (R68, R159, R160). -/
def loadStore (f : Fields) (store : Bool) : Form :=
  let t := if f.ext then f.fmt.toNat else Ty.n32
  let sp := if f.ext then subBits f 3 3 else if f.m then 1 else 0
  { m := .two Ty.n32 Ty.n32, types := loadTypes,
    d := if store then .src (Ty.regs t) else .dst (Ty.regs t) .never,
    a := .src (baseRegs sp), b := if f.ext then .unused else .src 1,
    hasScope := true, ords := if store then [0, 2] else [0, 1], imm := allImm, subUsed := true,
    subOk := if store then sp < 4 && subBits f 0 3 == 0
      else sp < 5 && subBits f 0 1 == 0 && (subBits f 2 1 == 0 || rmtPlace f)
        && (subBits f 1 1 == 0 || (sp == 0 && f.ord == 0)) }

/-- `atom` and `red` (R68, R169, R170). -/
def atomic (f : Fields) (red : Bool) : Form :=
  let sp := subBits f 4 2
  let op := subBits f 0 4
  let w := Ty.regs f.fmt.toNat
  { m := .absent, assigned := op < (if red then 7 else 9), types := atomTypes op,
    d := if red then .unused else .dstOrNone w,
    a := .src (if sp == 0 || sp == 3 then 2 else 1), b := .src w,
    c := if op == 8 then .src w else .unused,
    rnd := if op == 1 then .rounds else .off,
    hasScope := true, ords := if red then [0, 2] else [0, 1, 2, 3], imm := allImm,
    bad2 := (sp == 0 || sp == 3) && f.scope == 0,
    subUsed := true, subOk := sp != 3 || (!red && rmtPlace f) }

/-- `redux` and `scan` (R68, R134). -/
def across (f : Fields) (isScan : Bool) : Form :=
  let t := f.fmt.toNat
  let op := subBits f 0 3
  let w := Ty.regs t
  { m := .absent, assigned := op < 6, types := Ty.f32 :: intTypes, typeOk := t != Ty.f32 || op < 3,
    d := .dst w (if isScan then .never else .reduce), a := .src w,
    rnd := if t == Ty.f32 && op == 0 then .rounds else .off,
    subUsed := true, subOk := if isScan then subBits f 4 2 == 0 else subBits f 3 3 == 0,
    draft := false }

/-- Rows from thread registers or a descriptor, by a SUB bit (R237, R250). -/
def rowsOrDesc (scratch : Bool) : Role := if scratch then .desc else .rows false

/-- The form of an instance, or none for a reserved opcode (R63). -/
def formOf (f : Fields) : Option Form :=
  let same : Nat → Nat → Role := fun w _ => .src w
  let word : Nat → Nat → Role := fun _ _ => .src 1
  let none' : Nat → Nat → Role := fun _ _ => .unused
  match f.op.toNat with
  | 0x00 | 0x01 | 0x02 | 0x03 | 0x07 | 0x08 | 0x09 | 0x0A | 0x0B | 0x0D =>
    some (arith f int2 intTypes .off same)
  | 0x04 => some (arith f int2 intTypes .off same true)
  | 0x05 | 0x06 => some (arith f int2 [Ty.i32, Ty.i64] .off none')
  | 0x0C | 0x14 | 0x15 | 0x16 | 0x17 | 0x19 => some (arith f int2 intTypes .off none')
  | 0x0E | 0x0F | 0x10 | 0x11 | 0x12 => some (arith f int2 intTypes .off word)
  | 0x13 | 0x1A => some (arith f int2 intTypes .off word true)
  | 0x18 => some { arith f .absent moveTypes .off same with c := .predSrc }
  | 0x1B => some { m := int2, types := [Ty.i32, Ty.n32], d := .dst 2 .scalar, a := .src 2, b := .src 1,
                   imm := 7 }
  | 0x1C => some { arith f int2 intTypes .off same with
                   d := .cond false false, subUsed := true, subOk := subBits f 2 4 == 0 }
  | 0x1D | 0x1E => some { arith f int2 intTypes .off same with
                   d := .dst (Ty.regs (typeOf int2 f)) .never }
  | 0x20 | 0x21 | 0x22 => some (arith f float2 [Ty.f32, Ty.x4] .rounds same)
  | 0x23 => some (arith f float2 [Ty.f32, Ty.x4] .rounds same true)
  | 0x24 | 0x25 => some (arith f float2 [Ty.f32, Ty.x4] .off same)
  | 0x26 | 0x27 => some (arith f float2 [Ty.f32, Ty.x4] .off none')
  | 0x28 => some { arith f (.only Ty.f32) [Ty.f32] .off same with
                   d := .cond true false, subUsed := true, subOk := subBits f 2 4 == 0 }
  | 0x29 => some (arith f float2 [Ty.f32, Ty.x4] .rounds none')
  | 0x2A => some (arith f (.only Ty.f32) [Ty.f32] .off none')
  | 0x2B => some (arith f float2 [Ty.f32, Ty.x4] .rounds same)
  | 0x2C =>
    let m : MUse := .two Ty.f32 Ty.i32
    let dt := typeOf m f
    some { m := m, types := [Ty.i32, Ty.n32, Ty.i64, Ty.n64, Ty.f32, Ty.f16, Ty.bf16, Ty.i8, Ty.n8, Ty.l6],
           typeOk := cvtPair dt (cvtSrc f), d := .dst (Ty.regs dt) .scalar,
           a := .src (Ty.regs (cvtSrc f)), rnd := if cvtNarrow dt then .narrowing else .rounds,
           subUsed := true, subOk := subBits f 4 2 == 0 }
  | 0x2D => some { m := .only Ty.f32, types := [Ty.f32], d := .dst 1 .scalar, a := .src 4, b := .src 4,
                   c := if f.ext then .src 1 else .unused, rnd := .rounds }
  | 0x30 | 0x31 => some (arith f half2 [Ty.f16, Ty.bf16] .rounds same)
  | 0x32 => some (arith f half2 [Ty.f16, Ty.bf16] .rounds same true)
  | 0x33 | 0x34 => some (arith f half2 [Ty.f16, Ty.bf16] .off same)
  | 0x35 => some { arith f half2 [Ty.f16, Ty.bf16] .off same with
                   d := .cond true true, subUsed := true, subOk := subBits f 2 4 == 0 }
  | 0x38 | 0x39 | 0x3A | 0x3B | 0x3C | 0x3D | 0x3E =>
    some { m := .only Ty.f32, types := [Ty.f32], d := .dst 1 .never, a := .src 1, rnd := .rounds }
  | 0x40 | 0x42 => some { m := .absent, imm := allImm }
  | 0x41 | 0x43 => some { m := plain, a := .src 2 }
  | 0x44 | 0x45 | 0x46 | 0x47 => some { m := plain }
  | 0x48 => some { m := plain, imm := allImm }
  | 0x49 => some { m := .absent, d := .predDst, a := .predSrc, b := .predSrc, subUsed := true,
                   subOk := subBits f 2 4 == 0 }
  | 0x4A =>
    let inward := if f.ext then f.imm.getLsbD 0 else f.m
    some { m := .two 0 0, d := if inward then .unused else .dst 1 .never,
           a := if inward then .src 1 else .unused, imm := 1 }
  | 0x50 => some { arith f .absent moveTypes .off word with
                   c := .src (Ty.regs f.fmt.toNat), subUsed := true, subOk := subBits f 5 1 == 0,
                   draft := false }
  | 0x51 => some { m := .absent, d := if subBits f 0 2 == 3 then .dst 1 .never else .predDst, a := .predSrc,
                   subUsed := true, subOk := subBits f 2 4 == 0, draft := false }
  | 0x52 =>
    let w := Ty.regs (typeOf (.only Ty.n32) f)
    some { m := .only Ty.n32, types := moveTypes, d := .dst w .reduce, a := .src w, draft := false }
  | 0x53 => some (across f false)
  | 0x54 => some (across f true)
  | 0x55 =>
    let (w, thread) := match srInfo f.a.toNat with
      | some (w, _, th) => (w, th)
      | none => (1, false)
    some { m := plain, d := .dst w (if thread then .never else .reduce), a := .special false }
  | 0x56 =>
    let w := match srInfo f.a.toNat with
      | some (w, _, _) => w
      | none => 1
    some { m := plain, a := .special true, b := .src w }
  | 0x58 => some (loadStore f false)
  | 0x59 => some (loadStore f true)
  | 0x5A => some (atomic f false)
  | 0x5B => some (atomic f true)
  | 0x5C => some { m := .absent, hasScope := true, ords := [1, 2, 3], imm := 0x7F7F, subUsed := true,
                   subOk := subBits f 1 5 == 0 && (subBits f 0 1 == 0 || rmtPlace f) }
  | 0x5D => some { m := .absent, a := .src 2, imm := allImm, subUsed := true, subOk := subBits f 2 4 == 0 }
  | 0x5E => some { m := plain, d := .predDst, a := .src 1, b := if f.ext then .unused else .src 1,
                   imm := allImm }
  | 0x5F => some { m := plain }
  | 0x60 => some { m := .absent, a := .src 1, imm := allImm }
  | 0x61 => some { m := plain, a := .src 1 }
  | 0x62 => some { m := plain }
  -- the tack instructions (R201)
  | 0x63 => some { m := .only Ty.n32, types := loadTypes, d := .dst (Ty.regs (typeOf (.only Ty.n32) f)) .never,
                   a := .src 2, b := if f.ext then .unused else .src 1, imm := allImm }
  | 0x64 | 0x66 => some { m := plain }
  | 0x65 => some { m := .absent, imm := allImm }
  | 0x68 => some { m := plain, bad2 := f.s, draft := false }
  | 0x69 =>
    let op := subBits f 0 2
    some { m := .absent, assigned := op < 3, d := if op == 2 then .predDst else .unused,
           a := if op == 1 then .unused else .src 1, imm := 0xF, subUsed := true,
           subOk := subBits f 2 4 == 0 }
  | 0x6A =>
    let op := subBits f 0 3
    some { m := .absent, assigned := op < 5, d := if op == 4 then .predDst else .unused, a := .src 1,
           b := if op == 1 then .unused else .src 1, imm := allImm, subUsed := true,
           subOk := subBits f 3 3 == 0 }
  | 0x6B => some { m := plain, d := .dst 1 .never, a := .src 1, b := if f.ext then .unused else .src 1,
                   imm := allImm }
  | 0x6C => some { m := plain, d := .predDst, draft := false }
  | 0x6D => some { m := .absent, a := .args, b := .src 1, imm := allImm }
  -- xacq and xrel (R314)
  | 0x6E => some { m := plain, a := .uniform false, draft := false }
  | 0x6F => some { m := plain, draft := false }
  | 0x70 => some { m := .absent, d := .dst 1 .never, a := .src 1, b := .uniform false,
                   c := if f.sub.getLsbD 0 then .unused else .uniform false, subUsed := true,
                   subOk := subBits f 1 5 == 0, draft := false }
  | 0x74 => some { m := .absent, a := .src 1, b := .src 1, imm := 0xF, draft := false }
  | 0x75 => some { m := .absent, d := rowsOrDesc (f.sub.getLsbD 0), a := rowsOrDesc (f.sub.getLsbD 1),
                   b := .src 1, imm := 0x00FF3F0F,
                   bad2 := f.imm.extractLsb' 16 8 != 0 && subBits f 0 2 != 3, subUsed := true,
                   subOk := subBits f 2 4 == 0 }
  | 0x76 => some { m := .absent, imm := 0x3F00, draft := false }
  | 0x77 => some { m := .absent, a := rowsOrDesc (!f.sub.getLsbD 0),
                   imm := if f.sub.getLsbD 0 then 0x07003F00 else 0x3F00, subUsed := true,
                   subOk := subBits f 1 5 == 0, draft := false }
  | 0x78 => some { m := .absent, d := if f.sub.getLsbD 0 then .rows true else .unused,
                   a := if f.sub.getLsbD 0 then .unused else .desc,
                   imm := if f.sub.getLsbD 0 then 0x07003F00 else 0x3F00, subUsed := true,
                   subOk := subBits f 1 5 == 0, draft := false }
  | 0x79 => some { m := .absent, types := [Ty.f16, Ty.bf16, Ty.i8, Ty.n8, Ty.l6], a := .desc,
                   rnd := if cvtNarrow f.fmt.toNat then .narrowing else .rounds,
                   imm := if f.fmt.toNat == Ty.l6 then 0x00FF3F00 else 0x3F00, draft := false }
  | 0x7A => some { m := .absent, types := [Ty.l6], a := .desc, b := .uniform true, imm := 0x3F00, draft := false }
  | 0x7B => some { m := .absent, d := .predDst, a := .src 1, b := .src 1, imm := allImm }
  | 0x7C => some { m := .absent, types := [Ty.n64], a := .src 2, b := .src 2, imm := allImm }
  | 0x7D => some { m := plain, a := .src 1 }
  | 0x7E =>
    let op := f.a.toNat
    some { m := plain, assigned := op < 6, a := .sysOp,
           b := if op == 0 || op == 4 || op == 5 then .src 1 else .unused, draft := op != 4 }
  | _ => none

/-! ## The checks of R70, in its order -/

/-- Why a word sequence is no instruction (R70). -/
inductive Illegal where
  | op
  | field (badf : BitVec 4)
deriving DecidableEq, Repr

/-- A register start of w registers is aligned (R26, R27). -/
def alignedStart (n w : Nat) : Bool := n % w == 0

/-- The code is accepted in the role. scalar: the destination is a gang register of the scalar datapath,
where a thread-register source is illegal (R103). -/
def Role.accepts (ext : Bool) (code : BitVec 8) (scalar : Bool) : Role → Bool
  | .unused => code == 0
  | .dst w g => match Opnd.of ext code with
    | .v n => alignedStart n w
    | .g n => g != .never && alignedStart n w
    | _ => false
  | .dstOrNone w => match Opnd.of ext code with
    | .v n => alignedStart n w
    | .zero => true
    | _ => false
  | .src w => match Opnd.of ext code with
    | .v n => !scalar && alignedStart n w
    | .g n => alignedStart n w
    | .half | .fone | .two => w != 2
    | .lane | .rank => !scalar
    | .reserved => false
    | _ => true
  | .uniform numbers => match Opnd.of ext code with
    | .v _ | .reserved => false
    | .lane | .rank => numbers
    | _ => true
  | .predDst => code.toNat < 8
  | .predSrc => code.toNat < 8 && !scalar
  | .cond unord even =>
    code.toNat < 128 && !code.getLsbD 3 && (unord || !(code.getLsbD 6 && code.getLsbD 5))
      && (!even || !code.getLsbD 0)
  | .special write => match srInfo code.toNat with
    | some (_, .ro, _) => !write
    | some _ => true
    | none => false
  | .rows _ => match Opnd.of ext code with
    | .v n => n % 16 == 0
    | _ => false
  | .desc => match Opnd.of ext code with
    | .g n => n % 2 == 0
    | _ => false
  | .args => match Opnd.of ext code with
    | .v n | .g n => n % 4 == 0
    | _ => false
  | .sysOp => true

/-- The role carries an operand code that may name the literal (R53). -/
def Role.mayBeLiteral : Role → Bool
  | .src _ | .uniform _ => true
  | _ => false

/-- The field names the literal (R53). -/
def Role.literal (r : Role) (code : BitVec 8) : Bool := r.mayBeLiteral && code == 0x78

/-- Some operand names the literal (R53). -/
def Form.namesLiteral (r : Form) (f : Fields) : Bool :=
  r.d.literal f.d || r.a.literal f.a || r.b.literal f.b || r.c.literal f.c

/-- D is a destination and names a gang register, whether or not the entry allows one there (R54). -/
def Form.gangDst (r : Form) (f : Fields) : Bool :=
  match r.d with
  | .dst .. | .dstOrNone _ => (Opnd.of f.ext f.d).isGang
  | _ => false

/-- D names a gang register of the scalar datapath (R28, R103). -/
def Form.scalarDst (r : Form) (f : Fields) : Bool :=
  match r.d with
  | .dst _ .scalar => (Opnd.of f.ext f.d).isGang
  | _ => false

/-- The checks that report BADF 2, other than M (R52, R54 to R57). -/
def Form.cleanFields (r : Form) (f : Fields) : Bool :=
  !f.ext ||
  ((if r.types.isEmpty then f.fmt == 0 else Ty.defined f.fmt.toNat)
    && (match r.rnd with
        | .off => f.rnd == 0
        | .rounds => f.rnd.toNat < 5
        | .narrowing => f.rnd.toNat < 6)
    && (if r.hasScope then f.scope.toNat < 5 && r.ords.contains f.ord.toNat && (f.ord == 0 || f.scope != 0)
        else f.scope == 0 && f.ord == 0)
    && (r.draft && !r.gangDst f || (f.p == 0 && !f.n))
    && (f.imm &&& ~~~(BitVec.ofNat 32 r.imm)) == 0
    && (r.subUsed || f.sub == 0)
    && !r.bad2)

/-- M = 1 stands where R67 gives 0. -/
def Form.badM (r : Form) (f : Fields) : Bool :=
  !f.ext && f.m && (match r.m with
    | .only _ => true
    | _ => false)

/-- The type is defined and not accepted (R56). -/
def Form.badType (r : Form) (f : Fields) : Bool :=
  let t := typeOf r.m f
  !r.types.isEmpty && Ty.defined t && !(r.types.contains t && r.typeOk)

/-- The checks of R70 on the fields of one instruction, in order; none when they form an instruction. -/
def checkFields (f : Fields) : Option Illegal :=
  match formOf f with
  | none => some .op
  | some r =>
    if !f.ext && r.m == .absent then some (.field 1)
    else if !r.assigned then some .op
    else if r.badM f then some (.field 2)
    else if r.badType f then some .op
    else if r.namesLiteral f != f.lit.isSome then some (.field 8)
    else if !r.cleanFields f then some (.field 2)
    else if !r.d.accepts f.ext f.d false then some (.field 3)
    else if !r.a.accepts f.ext f.a (r.scalarDst f) then some (.field 4)
    else if !r.b.accepts f.ext f.b (r.scalarDst f) then some (.field 5)
    else if !r.c.accepts f.ext f.c (r.scalarDst f) then some (.field 6)
    else if !r.subOk then some (.field 7)
    else none

/-- The decoded fields that `xfld` holds at handler entry (R37). -/
def xfldOf (w0 : Word) (f : Fields) (badf : BitVec 4) : Dword :=
  (0 : BitVec 8) ++ badf ++ (0 : BitVec 3) ++ BitVec.ofBool f.s ++ lenOf w0 ++ f.c ++ f.b ++ f.a ++ f.d
    ++ f.sub ++ BitVec.ofBool f.ext ++ f.op

/-! ## Instructions and their fields -/

/-- An instruction form: its opcode and the fields of R48 or R50. -/
inductive Code where
  | base (op : BitVec 7) (o : Base)
  | ext (op : BitVec 7) (o : Ext)
deriving DecidableEq, Repr

/-- The fields of a form. -/
def Code.fields : Code → Fields
  | .base op o => o.fields op
  | .ext op o => o.fields op

/-- The instruction of a base word, before the checks (R63, R69). -/
def baseInstr (op : BitVec 7) (o : Base) : Option Instr :=
  match op.toNat with
  | 0x00 => some (.add o)
  | 0x01 => some (.sub o)
  | 0x02 => some (.mul o)
  | 0x03 => some (.mulh o)
  | 0x04 => some (.mad o)
  | 0x05 => some (.neg o)
  | 0x06 => some (.abs o)
  | 0x07 => some (.min o)
  | 0x08 => some (.max o)
  | 0x09 => some (.and o)
  | 0x0A => some (.or o)
  | 0x0B => some (.xor o)
  | 0x0C => some (.not o)
  | 0x0D => some (.andn o)
  | 0x0E => some (.shl o)
  | 0x0F => some (.shr o)
  | 0x10 => some (.sar o)
  | 0x11 => some (.rot o)
  | 0x12 => some (.bfe o)
  | 0x13 => some (.bfi o)
  | 0x14 => some (.popc o)
  | 0x15 => some (.clz o)
  | 0x16 => some (.ctz o)
  | 0x17 => some (.brev o)
  | 0x19 => some (.mov o)
  | 0x1A => some (.movk o)
  | 0x1B => some (.lea o)
  | 0x1C => some (.cmp o)
  | 0x1D => some (.div o)
  | 0x1E => some (.rem o)
  | 0x20 => some (.fadd o)
  | 0x21 => some (.fsub o)
  | 0x22 => some (.fmul o)
  | 0x23 => some (.ffma o)
  | 0x24 => some (.fmin o)
  | 0x25 => some (.fmax o)
  | 0x26 => some (.fabs o)
  | 0x27 => some (.fneg o)
  | 0x28 => some (.fcmp o)
  | 0x29 => some (.frnd o)
  | 0x2A => some (.fclass o)
  | 0x2B => some (.fscale o)
  | 0x2C => some (.fcvt o)
  | 0x2D => some (.fdp4 o)
  | 0x30 => some (.hadd2 o)
  | 0x31 => some (.hmul2 o)
  | 0x32 => some (.hfma2 o)
  | 0x33 => some (.hmin2 o)
  | 0x34 => some (.hmax2 o)
  | 0x35 => some (.hcmp2 o)
  | 0x38 => some (.ex2 o)
  | 0x39 => some (.lg2 o)
  | 0x3A => some (.rcp o)
  | 0x3B => some (.rsq o)
  | 0x3C => some (.sqrt o)
  | 0x3D => some (.sin o)
  | 0x3E => some (.cos o)
  | 0x41 => some (.brx o)
  | 0x43 => some (.callx o)
  | 0x44 => some (.ret o)
  | 0x45 => some (.exit o)
  | 0x46 => some (.nop o)
  | 0x47 => some (.yield o)
  | 0x48 => some (.brk o)
  | 0x4A => some (.pmov o)
  | 0x52 => some (.rdfl o)
  | 0x55 => some (.srd o)
  | 0x56 => some (.swr o)
  | 0x58 => some (.ld o)
  | 0x59 => some (.st o)
  | 0x5E => some (.pres o)
  | 0x5F => some (.sfence o)
  | 0x61 => some (.pstep o)
  | 0x62 => some (.lkwait o)
  | 0x63 => some (.tackLd o)
  | 0x64 => some (.tackOpen o)
  | 0x66 => some (.tackDrop o)
  | 0x68 => some (.gsync o)
  | 0x6B => some (.join o)
  | 0x6C => some (.gridsync o)
  | 0x6E => some (.xacq o)
  | 0x6F => some (.xrel o)
  | 0x7D => some (.mark o)
  | 0x7E => match o.a.toNat with
    | 0 => some (.sysTrap o)
    | 1 => some (.sysTret o)
    | 2 => some (.sysTkill o)
    | 3 => some (.sysHalt o)
    | 4 => some (.sysCad o)
    | 5 => some (.sysIdle o)
    | _ => none
  | _ => none

/-- The instruction of an extended form, before the checks (R63, R68, R69). -/
def extInstr (op : BitVec 7) (o : Ext) : Option Instr :=
  match op.toNat with
  | 0x00 => some (.addExt o)
  | 0x01 => some (.subExt o)
  | 0x02 => some (.mulExt o)
  | 0x03 => some (.mulhExt o)
  | 0x04 => some (.madExt o)
  | 0x05 => some (.negExt o)
  | 0x06 => some (.absExt o)
  | 0x07 => some (.minExt o)
  | 0x08 => some (.maxExt o)
  | 0x09 => some (.andExt o)
  | 0x0A => some (.orExt o)
  | 0x0B => some (.xorExt o)
  | 0x0C => some (.notExt o)
  | 0x0D => some (.andnExt o)
  | 0x0E => some (.shlExt o)
  | 0x0F => some (.shrExt o)
  | 0x10 => some (.sarExt o)
  | 0x11 => some (.rotExt o)
  | 0x12 => some (.bfeExt o)
  | 0x13 => some (.bfiExt o)
  | 0x14 => some (.popcExt o)
  | 0x15 => some (.clzExt o)
  | 0x16 => some (.ctzExt o)
  | 0x17 => some (.brevExt o)
  | 0x18 => some (.sel o)
  | 0x19 => some (.movExt o)
  | 0x1A => some (.movkExt o)
  | 0x1B => some (.leaExt o)
  | 0x1C => some (.cmpExt o)
  | 0x1D => some (.divExt o)
  | 0x1E => some (.remExt o)
  | 0x20 => some (.faddExt o)
  | 0x21 => some (.fsubExt o)
  | 0x22 => some (.fmulExt o)
  | 0x23 => some (.ffmaExt o)
  | 0x24 => some (.fminExt o)
  | 0x25 => some (.fmaxExt o)
  | 0x26 => some (.fabsExt o)
  | 0x27 => some (.fnegExt o)
  | 0x28 => some (.fcmpExt o)
  | 0x29 => some (.frndExt o)
  | 0x2A => some (.fclassExt o)
  | 0x2B => some (.fscaleExt o)
  | 0x2C => some (.fcvtExt o)
  | 0x2D => some (.fdp4Ext o)
  | 0x30 => some (.hadd2Ext o)
  | 0x31 => some (.hmul2Ext o)
  | 0x32 => some (.hfma2Ext o)
  | 0x33 => some (.hmin2Ext o)
  | 0x34 => some (.hmax2Ext o)
  | 0x35 => some (.hcmp2Ext o)
  | 0x38 => some (.ex2Ext o)
  | 0x39 => some (.lg2Ext o)
  | 0x3A => some (.rcpExt o)
  | 0x3B => some (.rsqExt o)
  | 0x3C => some (.sqrtExt o)
  | 0x3D => some (.sinExt o)
  | 0x3E => some (.cosExt o)
  | 0x40 => some (.bra o)
  | 0x41 => some (.brxExt o)
  | 0x42 => some (.call o)
  | 0x43 => some (.callxExt o)
  | 0x44 => some (.retExt o)
  | 0x45 => some (.exitExt o)
  | 0x46 => some (.nopExt o)
  | 0x47 => some (.yieldExt o)
  | 0x48 => some (.brkExt o)
  | 0x49 => some (.plog o)
  | 0x4A => some (.pmovExt o)
  | 0x50 => some (.shfl o)
  | 0x51 => some (.vote o)
  | 0x52 => some (.rdflExt o)
  | 0x53 => some (.redux o)
  | 0x54 => some (.scanInstr o)
  | 0x55 => some (.srdExt o)
  | 0x56 => some (.swrExt o)
  | 0x58 => some (.ldExt o)
  | 0x59 => some (.stExt o)
  | 0x5A => some (.atom o)
  | 0x5B => some (.red o)
  | 0x5C => some (.fence o)
  | 0x5D => some (.pf o)
  | 0x5E => some (.presExt o)
  | 0x5F => some (.sfenceExt o)
  | 0x60 => some (.dcopy o)
  | 0x61 => some (.pstepExt o)
  | 0x62 => some (.lkwaitExt o)
  | 0x63 => some (.tackLdExt o)
  | 0x64 => some (.tackOpenExt o)
  | 0x65 => some (.tackChk o)
  | 0x66 => some (.tackDropExt o)
  | 0x68 => some (.gsyncExt o)
  | 0x69 => match o.sub.toNat % 4 with
    | 0 => some (.barArr o)
    | 1 => some (.barWait o)
    | 2 => some (.barSync o)
    | _ => none
  | 0x6A => match o.sub.toNat % 8 with
    | 0 => some (.tbInit o)
    | 1 => some (.tbArr o)
    | 2 => some (.tbExp o)
    | 3 => some (.tbWait o)
    | 4 => some (.tbTest o)
    | _ => none
  | 0x6B => some (.joinExt o)
  | 0x6C => some (.gridsyncExt o)
  | 0x6D => some (.spawn o)
  | 0x6E => some (.xacqExt o)
  | 0x6F => some (.xrelExt o)
  | 0x70 => some (.rsmp o)
  | 0x74 => some (.bkdecl o)
  | 0x75 => some (.mma o)
  | 0x76 => some (.mzero o)
  | 0x77 => match o.sub.toNat % 2 with
    | 0 => some (.mld o)
    | 1 => some (.mldRegs o)
    | _ => none
  | 0x78 => match o.sub.toNat % 2 with
    | 0 => some (.mst o)
    | 1 => some (.mstRegs o)
    | _ => none
  | 0x79 => some (.mcvt o)
  | 0x7A => some (.qblk o)
  | 0x7B => some (.qpost o)
  | 0x7C => some (.qsig o)
  | 0x7D => some (.markExt o)
  | 0x7E => match o.a.toNat with
    | 0 => some (.sysTrapExt o)
    | 1 => some (.sysTretExt o)
    | 2 => some (.sysTkillExt o)
    | 3 => some (.sysHaltExt o)
    | 4 => some (.sysCadExt o)
    | 5 => some (.sysIdleExt o)
    | _ => none
  | _ => none

/-- The words a constructor stands for: its opcode and fields; none for an event. -/
def Instr.code : Instr → Option Code
  | .add o => some (.base 0x00 o)
  | .addExt o => some (.ext 0x00 o)
  | .sub o => some (.base 0x01 o)
  | .subExt o => some (.ext 0x01 o)
  | .mul o => some (.base 0x02 o)
  | .mulExt o => some (.ext 0x02 o)
  | .mulh o => some (.base 0x03 o)
  | .mulhExt o => some (.ext 0x03 o)
  | .mad o => some (.base 0x04 o)
  | .madExt o => some (.ext 0x04 o)
  | .neg o => some (.base 0x05 o)
  | .negExt o => some (.ext 0x05 o)
  | .abs o => some (.base 0x06 o)
  | .absExt o => some (.ext 0x06 o)
  | .min o => some (.base 0x07 o)
  | .minExt o => some (.ext 0x07 o)
  | .max o => some (.base 0x08 o)
  | .maxExt o => some (.ext 0x08 o)
  | .and o => some (.base 0x09 o)
  | .andExt o => some (.ext 0x09 o)
  | .or o => some (.base 0x0A o)
  | .orExt o => some (.ext 0x0A o)
  | .xor o => some (.base 0x0B o)
  | .xorExt o => some (.ext 0x0B o)
  | .not o => some (.base 0x0C o)
  | .notExt o => some (.ext 0x0C o)
  | .andn o => some (.base 0x0D o)
  | .andnExt o => some (.ext 0x0D o)
  | .shl o => some (.base 0x0E o)
  | .shlExt o => some (.ext 0x0E o)
  | .shr o => some (.base 0x0F o)
  | .shrExt o => some (.ext 0x0F o)
  | .sar o => some (.base 0x10 o)
  | .sarExt o => some (.ext 0x10 o)
  | .rot o => some (.base 0x11 o)
  | .rotExt o => some (.ext 0x11 o)
  | .bfe o => some (.base 0x12 o)
  | .bfeExt o => some (.ext 0x12 o)
  | .bfi o => some (.base 0x13 o)
  | .bfiExt o => some (.ext 0x13 o)
  | .popc o => some (.base 0x14 o)
  | .popcExt o => some (.ext 0x14 o)
  | .clz o => some (.base 0x15 o)
  | .clzExt o => some (.ext 0x15 o)
  | .ctz o => some (.base 0x16 o)
  | .ctzExt o => some (.ext 0x16 o)
  | .brev o => some (.base 0x17 o)
  | .brevExt o => some (.ext 0x17 o)
  | .sel o => some (.ext 0x18 o)
  | .mov o => some (.base 0x19 o)
  | .movExt o => some (.ext 0x19 o)
  | .movk o => some (.base 0x1A o)
  | .movkExt o => some (.ext 0x1A o)
  | .lea o => some (.base 0x1B o)
  | .leaExt o => some (.ext 0x1B o)
  | .cmp o => some (.base 0x1C o)
  | .cmpExt o => some (.ext 0x1C o)
  | .div o => some (.base 0x1D o)
  | .divExt o => some (.ext 0x1D o)
  | .rem o => some (.base 0x1E o)
  | .remExt o => some (.ext 0x1E o)
  | .fadd o => some (.base 0x20 o)
  | .faddExt o => some (.ext 0x20 o)
  | .fsub o => some (.base 0x21 o)
  | .fsubExt o => some (.ext 0x21 o)
  | .fmul o => some (.base 0x22 o)
  | .fmulExt o => some (.ext 0x22 o)
  | .ffma o => some (.base 0x23 o)
  | .ffmaExt o => some (.ext 0x23 o)
  | .fmin o => some (.base 0x24 o)
  | .fminExt o => some (.ext 0x24 o)
  | .fmax o => some (.base 0x25 o)
  | .fmaxExt o => some (.ext 0x25 o)
  | .fabs o => some (.base 0x26 o)
  | .fabsExt o => some (.ext 0x26 o)
  | .fneg o => some (.base 0x27 o)
  | .fnegExt o => some (.ext 0x27 o)
  | .fcmp o => some (.base 0x28 o)
  | .fcmpExt o => some (.ext 0x28 o)
  | .frnd o => some (.base 0x29 o)
  | .frndExt o => some (.ext 0x29 o)
  | .fclass o => some (.base 0x2A o)
  | .fclassExt o => some (.ext 0x2A o)
  | .fscale o => some (.base 0x2B o)
  | .fscaleExt o => some (.ext 0x2B o)
  | .fcvt o => some (.base 0x2C o)
  | .fcvtExt o => some (.ext 0x2C o)
  | .fdp4 o => some (.base 0x2D o)
  | .fdp4Ext o => some (.ext 0x2D o)
  | .hadd2 o => some (.base 0x30 o)
  | .hadd2Ext o => some (.ext 0x30 o)
  | .hmul2 o => some (.base 0x31 o)
  | .hmul2Ext o => some (.ext 0x31 o)
  | .hfma2 o => some (.base 0x32 o)
  | .hfma2Ext o => some (.ext 0x32 o)
  | .hmin2 o => some (.base 0x33 o)
  | .hmin2Ext o => some (.ext 0x33 o)
  | .hmax2 o => some (.base 0x34 o)
  | .hmax2Ext o => some (.ext 0x34 o)
  | .hcmp2 o => some (.base 0x35 o)
  | .hcmp2Ext o => some (.ext 0x35 o)
  | .ex2 o => some (.base 0x38 o)
  | .ex2Ext o => some (.ext 0x38 o)
  | .lg2 o => some (.base 0x39 o)
  | .lg2Ext o => some (.ext 0x39 o)
  | .rcp o => some (.base 0x3A o)
  | .rcpExt o => some (.ext 0x3A o)
  | .rsq o => some (.base 0x3B o)
  | .rsqExt o => some (.ext 0x3B o)
  | .sqrt o => some (.base 0x3C o)
  | .sqrtExt o => some (.ext 0x3C o)
  | .sin o => some (.base 0x3D o)
  | .sinExt o => some (.ext 0x3D o)
  | .cos o => some (.base 0x3E o)
  | .cosExt o => some (.ext 0x3E o)
  | .bra o => some (.ext 0x40 o)
  | .brx o => some (.base 0x41 o)
  | .brxExt o => some (.ext 0x41 o)
  | .call o => some (.ext 0x42 o)
  | .callx o => some (.base 0x43 o)
  | .callxExt o => some (.ext 0x43 o)
  | .ret o => some (.base 0x44 o)
  | .retExt o => some (.ext 0x44 o)
  | .exit o => some (.base 0x45 o)
  | .exitExt o => some (.ext 0x45 o)
  | .nop o => some (.base 0x46 o)
  | .nopExt o => some (.ext 0x46 o)
  | .yield o => some (.base 0x47 o)
  | .yieldExt o => some (.ext 0x47 o)
  | .brk o => some (.base 0x48 o)
  | .brkExt o => some (.ext 0x48 o)
  | .plog o => some (.ext 0x49 o)
  | .pmov o => some (.base 0x4A o)
  | .pmovExt o => some (.ext 0x4A o)
  | .shfl o => some (.ext 0x50 o)
  | .vote o => some (.ext 0x51 o)
  | .rdfl o => some (.base 0x52 o)
  | .rdflExt o => some (.ext 0x52 o)
  | .redux o => some (.ext 0x53 o)
  | .scanInstr o => some (.ext 0x54 o)
  | .srd o => some (.base 0x55 o)
  | .srdExt o => some (.ext 0x55 o)
  | .swr o => some (.base 0x56 o)
  | .swrExt o => some (.ext 0x56 o)
  | .ld o => some (.base 0x58 o)
  | .ldExt o => some (.ext 0x58 o)
  | .st o => some (.base 0x59 o)
  | .stExt o => some (.ext 0x59 o)
  | .atom o => some (.ext 0x5A o)
  | .red o => some (.ext 0x5B o)
  | .fence o => some (.ext 0x5C o)
  | .pf o => some (.ext 0x5D o)
  | .pres o => some (.base 0x5E o)
  | .presExt o => some (.ext 0x5E o)
  | .sfence o => some (.base 0x5F o)
  | .sfenceExt o => some (.ext 0x5F o)
  | .dcopy o => some (.ext 0x60 o)
  | .pstep o => some (.base 0x61 o)
  | .pstepExt o => some (.ext 0x61 o)
  | .lkwait o => some (.base 0x62 o)
  | .lkwaitExt o => some (.ext 0x62 o)
  | .tackLd o => some (.base 0x63 o)
  | .tackLdExt o => some (.ext 0x63 o)
  | .tackOpen o => some (.base 0x64 o)
  | .tackOpenExt o => some (.ext 0x64 o)
  | .tackChk o => some (.ext 0x65 o)
  | .tackDrop o => some (.base 0x66 o)
  | .tackDropExt o => some (.ext 0x66 o)
  | .gsync o => some (.base 0x68 o)
  | .gsyncExt o => some (.ext 0x68 o)
  | .barArr o => some (.ext 0x69 o)
  | .barWait o => some (.ext 0x69 o)
  | .barSync o => some (.ext 0x69 o)
  | .tbInit o => some (.ext 0x6A o)
  | .tbArr o => some (.ext 0x6A o)
  | .tbExp o => some (.ext 0x6A o)
  | .tbWait o => some (.ext 0x6A o)
  | .tbTest o => some (.ext 0x6A o)
  | .join o => some (.base 0x6B o)
  | .joinExt o => some (.ext 0x6B o)
  | .gridsync o => some (.base 0x6C o)
  | .gridsyncExt o => some (.ext 0x6C o)
  | .spawn o => some (.ext 0x6D o)
  | .xacq o => some (.base 0x6E o)
  | .xacqExt o => some (.ext 0x6E o)
  | .xrel o => some (.base 0x6F o)
  | .xrelExt o => some (.ext 0x6F o)
  | .rsmp o => some (.ext 0x70 o)
  | .bkdecl o => some (.ext 0x74 o)
  | .mma o => some (.ext 0x75 o)
  | .mzero o => some (.ext 0x76 o)
  | .mld o => some (.ext 0x77 o)
  | .mldRegs o => some (.ext 0x77 o)
  | .mst o => some (.ext 0x78 o)
  | .mstRegs o => some (.ext 0x78 o)
  | .mcvt o => some (.ext 0x79 o)
  | .qblk o => some (.ext 0x7A o)
  | .qpost o => some (.ext 0x7B o)
  | .qsig o => some (.ext 0x7C o)
  | .mark o => some (.base 0x7D o)
  | .markExt o => some (.ext 0x7D o)
  | .sysTrap o => some (.base 0x7E o)
  | .sysTrapExt o => some (.ext 0x7E o)
  | .sysTret o => some (.base 0x7E o)
  | .sysTretExt o => some (.ext 0x7E o)
  | .sysTkill o => some (.base 0x7E o)
  | .sysTkillExt o => some (.ext 0x7E o)
  | .sysHalt o => some (.base 0x7E o)
  | .sysHaltExt o => some (.ext 0x7E o)
  | .sysCad o => some (.base 0x7E o)
  | .sysCadExt o => some (.ext 0x7E o)
  | .sysIdle o => some (.base 0x7E o)
  | .sysIdleExt o => some (.ext 0x7E o)
  | _ => none

/-- Where several constructors share an opcode, the selecting field holds the constructor's value
(R68, R69). -/
def Instr.selects : Instr → Bool
  | .barArr o => o.sub.toNat % 4 == 0
  | .barWait o => o.sub.toNat % 4 == 1
  | .barSync o => o.sub.toNat % 4 == 2
  | .tbInit o => o.sub.toNat % 8 == 0
  | .tbArr o => o.sub.toNat % 8 == 1
  | .tbExp o => o.sub.toNat % 8 == 2
  | .tbWait o => o.sub.toNat % 8 == 3
  | .tbTest o => o.sub.toNat % 8 == 4
  | .mld o => o.sub.toNat % 2 == 0
  | .mldRegs o => o.sub.toNat % 2 == 1
  | .mst o => o.sub.toNat % 2 == 0
  | .mstRegs o => o.sub.toNat % 2 == 1
  | .sysTrap o => o.a.toNat == 0
  | .sysTrapExt o => o.a.toNat == 0
  | .sysTret o => o.a.toNat == 1
  | .sysTretExt o => o.a.toNat == 1
  | .sysTkill o => o.a.toNat == 2
  | .sysTkillExt o => o.a.toNat == 2
  | .sysHalt o => o.a.toNat == 3
  | .sysHaltExt o => o.a.toNat == 3
  | .sysCad o => o.a.toNat == 4
  | .sysCadExt o => o.a.toNat == 4
  | .sysIdle o => o.a.toNat == 5
  | .sysIdleExt o => o.a.toNat == 5
  | _ => true
/-- The instruction of a form, before the checks. -/
def Code.instr? : Code → Option Instr
  | .base op o => baseInstr op o
  | .ext op o => extInstr op o

/-! ## Decoding -/

/-- The form that LEN announces in the words of one instruction (R47, R48, R50). -/
def formOfWords (w0 w1 w2 : Word) (lit : Dword) : Code :=
  let op := w0.extractLsb' 22 7
  if isExt w0 then .ext op (extOf w0 w1 w2 lit) else .base op (baseOf w0 lit)

/-- What the decoder answers. -/
inductive Decoded where
  | ok (i : Instr)
  | illegal (why : Illegal) (xfld : Dword)
deriving DecidableEq, Repr

/-- BADF of a refusal (R37). -/
def Illegal.badf : Illegal → BitVec 4
  | .op => 0
  | .field b => b

/-- Decoding of the words of one instruction (R70). Words that LEN does not announce are not read. -/
def decodeWords (w0 w1 w2 : Word) (lit : Dword) : Decoded :=
  let c := formOfWords w0 w1 w2 lit
  match checkFields c.fields with
  | some why => .illegal why (xfldOf w0 c.fields why.badf)
  | none => match c.instr? with
    | some i => .ok i
    | none => .illegal .op (xfldOf w0 c.fields 0)

/-- A little-endian word of a byte list; a byte that is not there reads 0 (R3). -/
def wordAt (bs : List Byte) (k : Nat) : Word :=
  let b := fun i => bs.getD (k + i) 0
  b 3 ++ b 2 ++ b 1 ++ b 0

/-- Where the literal starts (R47). -/
def literalAt (w0 : Word) : Nat := if isExt w0 then 12 else 4

/-- Decoding of a byte list, lowest address first. -/
def decodeBytes (bs : List Byte) : Decoded :=
  let w0 := wordAt bs 0
  let k := literalAt w0
  decodeWords w0 (wordAt bs 4) (wordAt bs 8) (pair (wordAt bs k) (wordAt bs (k + 4)))

/-! ## Encoding -/

/-- LEN of a form (R47). -/
def lenBits (ext : Bool) (lit : Option Dword) : BitVec 2 := BitVec.ofBool ext ++ BitVec.ofBool lit.isSome

/-- Word 0 of a base form (R48). -/
def Base.word0 (op : BitVec 7) (o : Base) : Word :=
  lenBits false o.lit ++ BitVec.ofBool o.s ++ op ++ o.d ++ o.a ++ o.b ++ BitVec.ofBool o.m
/-- Word 0 of an extended form (R50). -/
def Ext.word0 (op : BitVec 7) (o : Ext) : Word :=
  lenBits true o.lit ++ BitVec.ofBool o.s ++ op ++ o.d ++ o.a ++ o.sub
/-- Word 1 of an extended form (R50). -/
def Ext.word1 (o : Ext) : Word :=
  o.b ++ o.c ++ BitVec.ofBool o.n ++ o.p ++ o.rnd ++ o.fmt ++ o.scope ++ o.ord

/-- The literal's two words, low word first (R3, R53). -/
def literalWords : Option Dword → List Word
  | some x => [lowHalf x, highHalf x]
  | none => []

/-- The words of a form, lowest address first. -/
def Code.words : Code → List Word
  | .base op o => o.word0 op :: literalWords o.lit
  | .ext op o => o.word0 op :: o.word1 :: o.imm :: literalWords o.lit

/-- The four bytes of a word, lowest address first (R3). -/
def wordBytes (w : Word) : List Byte :=
  [w.extractLsb' 0 8, w.extractLsb' 8 8, w.extractLsb' 16 8, w.extractLsb' 24 8]

/-- The words of an instruction; an event has none. -/
def encode (i : Instr) : List Word :=
  match i.code with
  | some c => c.words
  | none => []

/-- Decoding of a word list: a word that is not there reads 0. -/
def decodeList (ws : List Word) : Decoded :=
  let w0 := ws.getD 0 0
  let k := if isExt w0 then 3 else 1
  decodeWords w0 (ws.getD 1 0) (ws.getD 2 0) (pair (ws.getD k 0) (ws.getD (k + 1) 0))

/-- The decoder's answer for an instruction numbered as the table numbers it: word 0 in bits 31 to 0, the
later words above it, and zeros above nbits. -/
def decodeTableWord (nbits w : Nat) : Option Instr :=
  let x := w % 2 ^ nbits
  match decodeBytes ((List.range 20).map fun k => BitVec.ofNat 8 (x >>> (8 * k))) with
  | .ok i => some i
  | .illegal _ _ => none

/-! ## What the picker needs of a decoded form -/

/-- The draft-safe column and the operands of an instance (R62). -/
def Code.draftSafe (c : Code) : Bool :=
  let f := c.fields
  match formOf f with
  | none => false
  | some r =>
    let gang := fun (role : Role) (code : BitVec 8) => match role with
      | .dst .. | .dstOrNone _ | .src _ | .uniform _ | .desc | .args => (Opnd.of f.ext code).isGang
      | _ => false
    r.draft && !gang r.d f.d && !gang r.a f.a && !gang r.b f.b && !gang r.c f.c

/-! ## What the meanings need of a decoded form -/

/-- The code of the third source: C, or D in the base form (R52). -/
def Fields.third (f : Fields) : BitVec 8 := if f.ext then f.c else f.d

/-- What `exec` needs of an instruction's form; the decoder has refused the reserved ones. -/
def Code.form (c : Code) : Form := (formOf c.fields).getD { m := .absent }

/-- The type an instance names (R56, R67). -/
def Code.ty (c : Code) : Nat := typeOf c.form.m c.fields

/-- Length in bytes (R47). -/
def Code.length (c : Code) : Nat :=
  (if c.fields.ext then 12 else 4) + (if c.fields.lit.isSome then 8 else 0)

/-- The first thread register a role names, when it names one. -/
def Role.threadReg (ext : Bool) (code : BitVec 8) : Role → Option Nat
  | .dst _ _ | .dstOrNone _ | .src _ | .rows _ | .args => match Opnd.of ext code with
    | .v n => some n
    | _ => none
  | _ => none

/-- The thread registers an instruction names (R23). -/
def Code.threadRegs (c : Code) : List Nat :=
  let f := c.fields
  let r := c.form
  [r.d.threadReg f.ext f.d, r.a.threadReg f.ext f.a, r.b.threadReg f.ext f.b,
    r.c.threadReg f.ext f.c].filterMap id

/-- The register number of a destination code. -/
def Code.dstReg (c : Code) : Nat :=
  match Opnd.of c.fields.ext c.fields.d with
  | .v n | .g n => n
  | _ => 0

/-- D names a gang register. -/
def Code.gangDst (c : Code) : Bool := c.form.gangDst c.fields

/-- Registers a role reads: in the gang, first number, how many. -/
def Role.reads (ext : Bool) (code : BitVec 8) : Role → List (Bool × Nat × Nat)
  | .src w => named w
  | .uniform _ => named 1
  | .rows written => if written then [] else named 16
  | .desc => named 2
  | .args => named 4
  | _ => []
where
  named (w : Nat) : List (Bool × Nat × Nat) :=
    match Opnd.of ext code with
    | .v n => [(false, n, w)]
    | .g n => [(true, n, w)]
    | _ => []

/-- Opcodes whose base form reads its third source from D (R52, R102). -/
def readsD : List Nat := [0x04, 0x13, 0x1A, 0x23, 0x2D, 0x32]

/-- The registers an instruction reads (R52). -/
def Code.reads (c : Code) : List (Bool × Nat × Nat) :=
  let f := c.fields
  let r := c.form
  r.d.reads f.ext f.d ++ r.a.reads f.ext f.a ++ r.b.reads f.ext f.b ++ r.c.reads f.ext f.c
    ++ (if !f.ext && readsD.contains f.op.toNat then (Role.src (Ty.regs c.ty)).reads f.ext f.d else [])

end Sys2Proof
end

