-- ==== Sys2Proof/Machine/Tables.lean ====
section
/-! DEFINITION. The tables of R97: for each segment the integers C0, C1 and C2, generated from the exact
values of the function as R97 gives, each rounded to an integer with RNE. -/

namespace Sys2Proof.Machine

/-- One segment of a table (R97). -/
structure Seg where
  c0 : Int
  c1 : Int
  c2 : Int
deriving DecidableEq, Repr

/-- Segments 0 to 15 of 2^a on [0, 1) (R97). -/
def ex2Table0 : List Seg :=
 [⟨1073741824, 363408, 62⟩, ⟨1079572136, 365381, 62⟩,
  ⟨1085434106, 367365, 62⟩, ⟨1091327906, 369360, 63⟩,
  ⟨1097253708, 371365, 63⟩, ⟨1103211687, 373382, 63⟩,
  ⟨1109202018, 375409, 64⟩, ⟨1115224875, 377448, 64⟩,
  ⟨1121280436, 379497, 64⟩, ⟨1127368878, 381558, 65⟩,
  ⟨1133490379, 383630, 65⟩, ⟨1139645120, 385713, 65⟩,
  ⟨1145833280, 387807, 66⟩, ⟨1152055042, 389913, 66⟩,
  ⟨1158310587, 392030, 67⟩, ⟨1164600099, 394159, 67⟩]

/-- Segments 16 to 31 of 2^a on [0, 1) (R97). -/
def ex2Table1 : List Seg :=
 [⟨1170923762, 396299, 67⟩, ⟨1177281762, 398451, 68⟩,
  ⟨1183674286, 400614, 68⟩, ⟨1190101520, 402790, 68⟩,
  ⟨1196563654, 404977, 69⟩, ⟨1203060876, 407176, 69⟩,
  ⟨1209593378, 409387, 69⟩, ⟨1216161350, 411610, 70⟩,
  ⟨1222764986, 413845, 70⟩, ⟨1229404479, 416092, 71⟩,
  ⟨1236080024, 418351, 71⟩, ⟨1242791816, 420623, 71⟩,
  ⟨1249540052, 422907, 72⟩, ⟨1256324931, 425203, 72⟩,
  ⟨1263146652, 427512, 73⟩, ⟨1270005413, 429833, 73⟩]

/-- Segments 32 to 47 of 2^a on [0, 1) (R97). -/
def ex2Table2 : List Seg :=
 [⟨1276901417, 432167, 73⟩, ⟨1283834865, 434514, 74⟩,
  ⟨1290805962, 436873, 74⟩, ⟨1297814910, 439245, 75⟩,
  ⟨1304861917, 441630, 75⟩, ⟨1311947188, 444028, 75⟩,
  ⟨1319070932, 446439, 76⟩, ⟨1326233356, 448864, 76⟩,
  ⟨1333434672, 451301, 77⟩, ⟨1340675091, 453751, 77⟩,
  ⟨1347954824, 456215, 77⟩, ⟨1355274085, 458692, 78⟩,
  ⟨1362633090, 461183, 78⟩, ⟨1370032052, 463687, 79⟩,
  ⟨1377471191, 466205, 79⟩, ⟨1384950723, 468736, 80⟩]

/-- Segments 48 to 63 of 2^a on [0, 1) (R97). -/
def ex2Table3 : List Seg :=
 [⟨1392470869, 471282, 80⟩, ⟨1400031848, 473841, 80⟩,
  ⟨1407633882, 476414, 81⟩, ⟨1415277195, 479000, 81⟩,
  ⟨1422962010, 481601, 82⟩, ⟨1430688553, 484216, 82⟩,
  ⟨1438457051, 486846, 83⟩, ⟨1446267730, 489489, 83⟩,
  ⟨1454120821, 492147, 84⟩, ⟨1462016553, 494819, 84⟩,
  ⟨1469955159, 497506, 84⟩, ⟨1477936870, 500208, 85⟩,
  ⟨1485961921, 502924, 85⟩, ⟨1494030547, 505655, 86⟩,
  ⟨1502142985, 508400, 86⟩, ⟨1510299473, 511161, 87⟩]

/-- Segments 64 to 79 of 2^a on [0, 1) (R97). -/
def ex2Table4 : List Seg :=
 [⟨1518500250, 513936, 87⟩, ⟨1526745556, 516727, 88⟩,
  ⟨1535035634, 519533, 88⟩, ⟨1543370725, 522354, 89⟩,
  ⟨1551751076, 525190, 89⟩, ⟨1560176931, 528042, 90⟩,
  ⟨1568648537, 530909, 90⟩, ⟨1577166143, 533792, 91⟩,
  ⟨1585730000, 536690, 91⟩, ⟨1594340357, 539604, 92⟩,
  ⟨1602997467, 542534, 92⟩, ⟨1611701585, 545480, 93⟩,
  ⟨1620452965, 548442, 93⟩, ⟨1629251865, 551420, 94⟩,
  ⟨1638098541, 554414, 94⟩, ⟨1646993254, 557425, 95⟩]

/-- Segments 80 to 95 of 2^a on [0, 1) (R97). -/
def ex2Table5 : List Seg :=
 [⟨1655936265, 560452, 95⟩, ⟨1664927835, 563495, 96⟩,
  ⟨1673968228, 566554, 96⟩, ⟨1683057710, 569631, 97⟩,
  ⟨1692196547, 572724, 97⟩, ⟨1701385007, 575834, 98⟩,
  ⟨1710623359, 578960, 98⟩, ⟨1719911875, 582104, 99⟩,
  ⟨1729250827, 585265, 99⟩, ⟨1738640488, 588443, 100⟩,
  ⟨1748081133, 591638, 100⟩, ⟨1757573041, 594850, 101⟩,
  ⟨1767116489, 598080, 101⟩, ⟨1776711757, 601328, 102⟩,
  ⟨1786359126, 604593, 103⟩, ⟨1796058879, 607876, 103⟩]

/-- Segments 96 to 111 of 2^a on [0, 1) (R97). -/
def ex2Table6 : List Seg :=
 [⟨1805811301, 611177, 104⟩, ⟨1815616678, 614495, 104⟩,
  ⟨1825475297, 617832, 105⟩, ⟨1835387448, 621187, 105⟩,
  ⟨1845353420, 624560, 106⟩, ⟨1855373507, 627951, 107⟩,
  ⟨1865448001, 631361, 107⟩, ⟨1875577199, 634789, 108⟩,
  ⟨1885761398, 638236, 108⟩, ⟨1896000896, 641701, 109⟩,
  ⟨1906295993, 645186, 109⟩, ⟨1916646992, 648689, 110⟩,
  ⟨1927054196, 652211, 111⟩, ⟨1937517909, 655753, 111⟩,
  ⟨1948038440, 659313, 112⟩, ⟨1958616096, 662894, 112⟩]

/-- Segments 112 to 127 of 2^a on [0, 1) (R97). -/
def ex2Table7 : List Seg :=
 [⟨1969251188, 666493, 113⟩, ⟨1979944027, 670112, 114⟩,
  ⟨1990694927, 673751, 114⟩, ⟨2001504204, 677409, 115⟩,
  ⟨2012372174, 681087, 116⟩, ⟨2023299156, 684785, 116⟩,
  ⟨2034285470, 688504, 117⟩, ⟨2045331439, 692242, 117⟩,
  ⟨2056437387, 696001, 118⟩, ⟨2067603638, 699780, 119⟩,
  ⟨2078830522, 703580, 119⟩, ⟨2090118366, 707400, 120⟩,
  ⟨2101467502, 711242, 121⟩, ⟨2112878262, 715104, 121⟩,
  ⟨2124350982, 718986, 122⟩, ⟨2135885998, 722890, 123⟩]

/-- The 128 segments of 2^a on [0, 1) (R97). -/
def ex2Table : List Seg :=
  ex2Table0 ++ ex2Table1 ++ ex2Table2 ++ ex2Table3 ++ ex2Table4 ++ ex2Table5 ++ ex2Table6 ++ ex2Table7

/-- Segments 0 to 15 of log2(a) on [1, 2) (R97). -/
def lg2Table0 : List Seg :=
 [⟨0, 756380, -183⟩, ⟨12055174, 750517, -180⟩,
  ⟨24017256, 744744, -178⟩, ⟨35887675, 739059, -175⟩,
  ⟨47667823, 733460, -172⟩, ⟨59359063, 727945, -170⟩,
  ⟨70962728, 722513, -167⟩, ⟨82480119, 717161, -165⟩,
  ⟨93912511, 711888, -162⟩, ⟨105261148, 706692, -160⟩,
  ⟨116527248, 701571, -158⟩, ⟨127712004, 696524, -155⟩,
  ⟨138816582, 691549, -153⟩, ⟨149842124, 686644, -151⟩,
  ⟨160789745, 681809, -149⟩, ⟨171660541, 677041, -147⟩]

/-- Segments 16 to 31 of log2(a) on [1, 2) (R97). -/
def lg2Table1 : List Seg :=
 [⟨182455581, 672339, -145⟩, ⟨193175914, 667703, -143⟩,
  ⟨203822568, 663129, -141⟩, ⟨214396548, 658618, -139⟩,
  ⟨224898839, 654168, -137⟩, ⟨235330407, 649778, -135⟩,
  ⟨245692198, 645446, -134⟩, ⟨255985140, 641172, -132⟩,
  ⟨266210141, 636954, -130⟩, ⟨276368092, 632790, -128⟩,
  ⟨286459867, 628681, -127⟩, ⟨296486323, 624626, -125⟩,
  ⟨306448299, 620622, -124⟩, ⟨316346620, 616669, -122⟩,
  ⟨326182095, 612766, -120⟩, ⟨335955515, 608912, -119⟩]

/-- Segments 32 to 47 of log2(a) on [1, 2) (R97). -/
def lg2Table2 : List Seg :=
 [⟨345667660, 605106, -117⟩, ⟨355319292, 601348, -116⟩,
  ⟨364911162, 597636, -115⟩, ⟨374444004, 593969, -113⟩,
  ⟨383918542, 590348, -112⟩, ⟨393335482, 586770, -110⟩,
  ⟨402695523, 583235, -109⟩, ⟨411999347, 579743, -108⟩,
  ⟨421247625, 576292, -107⟩, ⟨430441017, 572882, -105⟩,
  ⟨439580170, 569512, -104⟩, ⟨448665721, 566182, -103⟩,
  ⟨457698295, 562890, -102⟩, ⟨466678506, 559636, -101⟩,
  ⟨475606957, 556420, -99⟩, ⟨484484242, 553241, -98⟩]

/-- Segments 48 to 63 of log2(a) on [1, 2) (R97). -/
def lg2Table3 : List Seg :=
 [⟨493310944, 550097, -97⟩, ⟨502087636, 546989, -96⟩,
  ⟨510814882, 543916, -95⟩, ⟨519493235, 540878, -94⟩,
  ⟨528123241, 537873, -93⟩, ⟨536705435, 534901, -92⟩,
  ⟨545240343, 531962, -91⟩, ⟨553728485, 529055, -90⟩,
  ⟨562170370, 526180, -89⟩, ⟨570566499, 523336, -88⟩,
  ⟨578917365, 520522, -87⟩, ⟨587223455, 517739, -86⟩,
  ⟨595485245, 514985, -85⟩, ⟨603703206, 512260, -84⟩,
  ⟨611877800, 509564, -83⟩, ⟨620009483, 506896, -83⟩]

/-- Segments 64 to 79 of log2(a) on [1, 2) (R97). -/
def lg2Table4 : List Seg :=
 [⟨628098702, 504256, -82⟩, ⟨636145900, 501643, -81⟩,
  ⟨644151509, 499058, -80⟩, ⟨652115959, 496498, -79⟩,
  ⟨660039669, 493965, -78⟩, ⟨667923055, 491458, -78⟩,
  ⟨675766525, 488976, -77⟩, ⟨683570481, 486519, -76⟩,
  ⟨691335320, 484086, -75⟩, ⟨699061430, 481678, -75⟩,
  ⟨706749198, 479293, -74⟩, ⟨714399001, 476932, -73⟩,
  ⟨722011213, 474594, -72⟩, ⟨729586201, 472279, -72⟩,
  ⟨737124328, 469987, -71⟩, ⟨744625951, 467716, -70⟩]

/-- Segments 80 to 95 of log2(a) on [1, 2) (R97). -/
def lg2Table5 : List Seg :=
 [⟨752091421, 465468, -70⟩, ⟨759521085, 463240, -69⟩,
  ⟨766915285, 461035, -68⟩, ⟨774274358, 458850, -68⟩,
  ⟨781598637, 456685, -67⟩, ⟨788888448, 454541, -66⟩,
  ⟨796144114, 452417, -66⟩, ⟨803365955, 450313, -65⟩,
  ⟨810554283, 448228, -65⟩, ⟨817709409, 446163, -64⟩,
  ⟨824831638, 444116, -63⟩, ⟨831921271, 442088, -63⟩,
  ⟨838978604, 440079, -62⟩, ⟨846003931, 438087, -62⟩,
  ⟨852997541, 436114, -61⟩, ⟨859959719, 434158, -61⟩]

/-- Segments 96 to 111 of log2(a) on [1, 2) (R97). -/
def lg2Table6 : List Seg :=
 [⟨866890747, 432220, -60⟩, ⟨873790901, 430299, -59⟩,
  ⟨880660455, 428395, -59⟩, ⟨887499680, 426508, -58⟩,
  ⟨894308843, 424637, -58⟩, ⟨901088206, 422783, -57⟩,
  ⟨907838029, 420945, -57⟩, ⟨914558569, 419123, -56⟩,
  ⟨921250079, 417316, -56⟩, ⟨927912807, 415525, -55⟩,
  ⟨934547002, 413749, -55⟩, ⟨941152905, 411989, -55⟩,
  ⟨947730758, 410243, -54⟩, ⟨954280797, 408512, -54⟩,
  ⟨960803257, 406796, -53⟩, ⟨967298370, 405093, -53⟩]

/-- Segments 112 to 127 of log2(a) on [1, 2) (R97). -/
def lg2Table7 : List Seg :=
 [⟨973766362, 403406, -52⟩, ⟨980207461, 401732, -52⟩,
  ⟨986621888, 400072, -51⟩, ⟨993009864, 398425, -51⟩,
  ⟨999371606, 396792, -51⟩, ⟨1005707329, 395173, -50⟩,
  ⟨1012017244, 393567, -50⟩, ⟨1018301561, 391973, -49⟩,
  ⟨1024560487, 390393, -49⟩, ⟨1030794226, 388825, -49⟩,
  ⟨1037002979, 387269, -48⟩, ⟨1043186948, 385727, -48⟩,
  ⟨1049346328, 384196, -47⟩, ⟨1055481314, 382677, -47⟩,
  ⟨1061592099, 381171, -47⟩, ⟨1067678873, 379676, -46⟩]

/-- The 128 segments of log2(a) on [1, 2) (R97). -/
def lg2Table : List Seg :=
  lg2Table0 ++ lg2Table1 ++ lg2Table2 ++ lg2Table3 ++ lg2Table4 ++ lg2Table5 ++ lg2Table6 ++ lg2Table7

/-- Segments 0 to 15 of 1/a on [1, 2) (R97). -/
def rcpTable0 : List Seg :=
 [⟨1073741824, -524272, 253⟩, ⟨1065418244, -516176, 247⟩,
  ⟨1057222719, -508265, 242⟩, ⟨1049152317, -500535, 236⟩,
  ⟨1041204193, -492980, 231⟩, ⟨1033375590, -485595, 226⟩,
  ⟨1025663832, -478375, 221⟩, ⟨1018066322, -471314, 216⟩,
  ⟨1010580540, -464409, 211⟩, ⟨1003204040, -457654, 207⟩,
  ⟨995934445, -451046, 202⟩, ⟨988769449, -444579, 198⟩,
  ⟨981706811, -438251, 194⟩, ⟨974744351, -432057, 189⟩,
  ⟨967879954, -425993, 186⟩, ⟨961111563, -420056, 182⟩]

/-- Segments 16 to 31 of 1/a on [1, 2) (R97). -/
def rcpTable1 : List Seg :=
 [⟨954437177, -414242, 178⟩, ⟨947854852, -408549, 174⟩,
  ⟨941362695, -402971, 171⟩, ⟨934958867, -397507, 167⟩,
  ⟨928641578, -392154, 164⟩, ⟨922409084, -386908, 161⟩,
  ⟨916259690, -381766, 157⟩, ⟨910191745, -376727, 154⟩,
  ⟨904203641, -371786, 151⟩, ⟨898293814, -366942, 148⟩,
  ⟨892460737, -362192, 146⟩, ⟨886702926, -357534, 143⟩,
  ⟨881018933, -352965, 140⟩, ⟨875407347, -348483, 137⟩,
  ⟨869866794, -344086, 135⟩, ⟨864395934, -339772, 132⟩]

/-- Segments 32 to 47 of 1/a on [1, 2) (R97). -/
def rcpTable2 : List Seg :=
 [⟨858993459, -335538, 130⟩, ⟨853658096, -331383, 127⟩,
  ⟨848388602, -327304, 125⟩, ⟨843183764, -323301, 123⟩,
  ⟨838042399, -319370, 121⟩, ⟨832963354, -315511, 118⟩,
  ⟨827945503, -311721, 116⟩, ⟨822987745, -307999, 114⟩,
  ⟨818089009, -304343, 112⟩, ⟨813248245, -300752, 110⟩,
  ⟨808464432, -297224, 108⟩, ⟨803736570, -293758, 106⟩,
  ⟨799063683, -290353, 105⟩, ⟨794444818, -287006, 103⟩,
  ⟨789879043, -283716, 101⟩, ⟨785365448, -280483, 99⟩]

/-- Segments 48 to 63 of 1/a on [1, 2) (R97). -/
def rcpTable3 : List Seg :=
 [⟨780903145, -277305, 98⟩, ⟨776491263, -274180, 96⟩,
  ⟨772128952, -271108, 94⟩, ⟨767815383, -268088, 93⟩,
  ⟨763549742, -265117, 91⟩, ⟨759331235, -262196, 90⟩,
  ⟨755159085, -259323, 88⟩, ⟨751032533, -256496, 87⟩,
  ⟨746950834, -253716, 85⟩, ⟨742913262, -250981, 84⟩,
  ⟨738919105, -248289, 83⟩, ⟨734967666, -245641, 81⟩,
  ⟨731058263, -243035, 80⟩, ⟨727190230, -240470, 79⟩,
  ⟨723362913, -237945, 78⟩, ⟨719575673, -235460, 76⟩]

/-- Segments 64 to 79 of 1/a on [1, 2) (R97). -/
def rcpTable4 : List Seg :=
 [⟨715827883, -233014, 75⟩, ⟨712118930, -230605, 74⟩,
  ⟨708448214, -228234, 73⟩, ⟨704815146, -225899, 72⟩,
  ⟨701219150, -223600, 71⟩, ⟨697659662, -221336, 70⟩,
  ⟨694136129, -219106, 69⟩, ⟨690648007, -216909, 68⟩,
  ⟨687194767, -214746, 67⟩, ⟨683775888, -212614, 66⟩,
  ⟨680390859, -210514, 65⟩, ⟨677039180, -208446, 64⟩,
  ⟨673720360, -206407, 63⟩, ⟨670433919, -204398, 62⟩,
  ⟨667179386, -202419, 61⟩, ⟨663956297, -200468, 60⟩]

/-- Segments 80 to 95 of 1/a on [1, 2) (R97). -/
def rcpTable5 : List Seg :=
 [⟨660764199, -198545, 59⟩, ⟨657602648, -196649, 58⟩,
  ⟨654471207, -194781, 58⟩, ⟨651369448, -192939, 57⟩,
  ⟨648296950, -191123, 56⟩, ⟨645253303, -189333, 55⟩,
  ⟨642238100, -187568, 54⟩, ⟨639250946, -185827, 54⟩,
  ⟨636291451, -184110, 53⟩, ⟨633359233, -182417, 52⟩,
  ⟨630453915, -180748, 51⟩, ⟨627575130, -179101, 51⟩,
  ⟨624722516, -177476, 50⟩, ⟨621895717, -175874, 49⟩,
  ⟨619094385, -174293, 49⟩, ⟨616318177, -172733, 48⟩]

/-- Segments 96 to 111 of 1/a on [1, 2) (R97). -/
def rcpTable6 : List Seg :=
 [⟨613566757, -171194, 47⟩, ⟨610839793, -169676, 47⟩,
  ⟨608136962, -168178, 46⟩, ⟨605457945, -166699, 46⟩,
  ⟨602802428, -165240, 45⟩, ⟨600170102, -163800, 44⟩,
  ⟨597560667, -162379, 44⟩, ⟨594973825, -160976, 43⟩,
  ⟨592409282, -159592, 43⟩, ⟨589866753, -158225, 42⟩,
  ⟨587345955, -156875, 42⟩, ⟨584846611, -155543, 41⟩,
  ⟨582368447, -154228, 41⟩, ⟨579911196, -152929, 40⟩,
  ⟨577474594, -151646, 40⟩, ⟨575058383, -150380, 39⟩]

/-- Segments 112 to 127 of 1/a on [1, 2) (R97). -/
def rcpTable7 : List Seg :=
 [⟨572662306, -149130, 39⟩, ⟨570286114, -147895, 38⟩,
  ⟨567929560, -146675, 38⟩, ⟨565592401, -145470, 37⟩,
  ⟨563274399, -144280, 37⟩, ⟨560975320, -143105, 36⟩,
  ⟨558694933, -141944, 36⟩, ⟨556433010, -140797, 35⟩,
  ⟨554189329, -139664, 35⟩, ⟨551963669, -138544, 35⟩,
  ⟨549755814, -137438, 34⟩, ⟨547565552, -136345, 34⟩,
  ⟨545392673, -135265, 33⟩, ⟨543236970, -134198, 33⟩,
  ⟨541098242, -133143, 33⟩, ⟨538976288, -132101, 32⟩]

/-- The 128 segments of 1/a on [1, 2) (R97). -/
def rcpTable : List Seg :=
  rcpTable0 ++ rcpTable1 ++ rcpTable2 ++ rcpTable3 ++ rcpTable4 ++ rcpTable5 ++ rcpTable6 ++ rcpTable7

/-- Segments 0 to 15 of 1/sqrt(a) on [1, 4) (R97). -/
def rsqTable0 : List Seg :=
 [⟨1073741824, -524249, 377⟩, ⟨1065450257, -512199, 362⟩,
  ⟨1057347856, -500603, 349⟩, ⟨1049427536, -489438, 336⟩,
  ⟨1041682578, -478683, 324⟩, ⟨1034106604, -468315, 312⟩,
  ⟨1026693558, -458317, 302⟩, ⟨1019437682, -448669, 291⟩,
  ⟨1012333500, -439355, 281⟩, ⟨1005375799, -430359, 272⟩,
  ⟨998559613, -421665, 263⟩, ⟨991880210, -413261, 254⟩,
  ⟨985333074, -405132, 246⟩, ⟨978913898, -397266, 238⟩,
  ⟨972618566, -389651, 230⟩, ⟨966443148, -382277, 223⟩]

/-- Segments 16 to 31 of 1/sqrt(a) on [1, 4) (R97). -/
def rsqTable1 : List Seg :=
 [⟨960383883, -375132, 216⟩, ⟨954437177, -368207, 210⟩,
  ⟨948599586, -361492, 204⟩, ⟨942867814, -354980, 198⟩,
  ⟨937238702, -348660, 192⟩, ⟨931709222, -342526, 186⟩,
  ⟨926276469, -336569, 181⟩, ⟨920937655, -330783, 176⟩,
  ⟨915690104, -325161, 171⟩, ⟨910531246, -319697, 166⟩,
  ⟨905458609, -314383, 161⟩, ⟨900469818, -309216, 157⟩,
  ⟨895562589, -304188, 153⟩, ⟨890734723, -299295, 149⟩,
  ⟨885984104, -294532, 145⟩, ⟨881308694, -289894, 141⟩]

/-- Segments 32 to 47 of 1/sqrt(a) on [1, 4) (R97). -/
def rsqTable2 : List Seg :=
 [⟨876706528, -285377, 138⟩, ⟨872175715, -280975, 134⟩,
  ⟨867714429, -276686, 131⟩, ⟨863320910, -272504, 127⟩,
  ⟨858993459, -268427, 124⟩, ⟨854730438, -264451, 121⟩,
  ⟨850530263, -260571, 118⟩, ⟨846391405, -256786, 115⟩,
  ⟨842312387, -253091, 113⟩, ⟨838291779, -249485, 110⟩,
  ⟨834328203, -245963, 108⟩, ⟨830420321, -242523, 105⟩,
  ⟨826566842, -239162, 103⟩, ⟨822766514, -235879, 100⟩,
  ⟨819018128, -232670, 98⟩, ⟨815320510, -229533, 96⟩]

/-- Segments 48 to 63 of 1/sqrt(a) on [1, 4) (R97). -/
def rsqTable3 : List Seg :=
 [⟨811672525, -226466, 94⟩, ⟨808073073, -223466, 92⟩,
  ⟨804521086, -220532, 90⟩, ⟨801015531, -217662, 88⟩,
  ⟨797555404, -214854, 86⟩, ⟨794139734, -212105, 84⟩,
  ⟨790767575, -209415, 82⟩, ⟨787438013, -206781, 81⟩,
  ⟨784150157, -204201, 79⟩, ⟨780903145, -201675, 77⟩,
  ⟨777696137, -199201, 76⟩, ⟨774528319, -196777, 74⟩,
  ⟨771398898, -194401, 73⟩, ⟨768307107, -192073, 71⟩,
  ⟨765252196, -189791, 70⟩, ⟨762233438, -187554, 69⟩]

/-- Segments 64 to 79 of 1/sqrt(a) on [1, 4) (R97). -/
def rsqTable4 : List Seg :=
 [⟨759250125, -370700, 266⟩, ⟨753387102, -362179, 256⟩,
  ⟨747657839, -353980, 247⟩, ⟨742057327, -346085, 238⟩,
  ⟨736580814, -338480, 229⟩, ⟨731223792, -331149, 221⟩,
  ⟨725981977, -324079, 213⟩, ⟨720851298, -317257, 206⟩,
  ⟨715827883, -310671, 199⟩, ⟨710908045, -304310, 192⟩,
  ⟨706088274, -298162, 186⟩, ⟨701365222, -292220, 180⟩,
  ⟨696735698, -286471, 174⟩, ⟨692196655, -280909, 168⟩,
  ⟨687745184, -275525, 163⟩, ⟨683378504, -270310, 158⟩]

/-- Segments 80 to 95 of 1/sqrt(a) on [1, 4) (R97). -/
def rsqTable5 : List Seg :=
 [⟨679093957, -265258, 153⟩, ⟨674889000, -260362, 148⟩,
  ⟨670761200, -255614, 144⟩, ⟨666708225, -251008, 140⟩,
  ⟨662727842, -246540, 136⟩, ⟨658817909, -242202, 132⟩,
  ⟨654976372, -237990, 128⟩, ⟨651201261, -233899, 124⟩,
  ⟨647490682, -229924, 121⟩, ⟨643842818, -226060, 117⟩,
  ⟨640255922, -222303, 114⟩, ⟨636728315, -218649, 111⟩,
  ⟨633258380, -215094, 108⟩, ⟨629844563, -211634, 105⟩,
  ⟨626485368, -208266, 102⟩, ⟨623179354, -204986, 100⟩]

/-- Segments 96 to 111 of 1/sqrt(a) on [1, 4) (R97). -/
def rsqTable6 : List Seg :=
 [⟨619925131, -201792, 97⟩, ⟨616721362, -198679, 95⟩,
  ⟨613566757, -195646, 92⟩, ⟨610460069, -192690, 90⟩,
  ⟨607400100, -189807, 88⟩, ⟨604385689, -186995, 86⟩,
  ⟨601415717, -184252, 84⟩, ⟨598489102, -181575, 82⟩,
  ⟨595604800, -178963, 80⟩, ⟨592761802, -176412, 78⟩,
  ⟨589959130, -173922, 76⟩, ⟨587195840, -171489, 74⟩,
  ⟨584471019, -169113, 73⟩, ⟨581783781, -166791, 71⟩,
  ⟨579133272, -164522, 69⟩, ⟨576518662, -162304, 68⟩]

/-- Segments 112 to 127 of 1/sqrt(a) on [1, 4) (R97). -/
def rsqTable7 : List Seg :=
 [⟨573939147, -160135, 66⟩, ⟨571393950, -158014, 65⟩,
  ⟨568882316, -155940, 63⟩, ⟨566403514, -153910, 62⟩,
  ⟨563956835, -151925, 61⟩, ⟨561541591, -149981, 59⟩,
  ⟨559157115, -148079, 58⟩, ⟨556802759, -146216, 57⟩,
  ⟨554477894, -144392, 56⟩, ⟨552181909, -142606, 55⟩,
  ⟨549914212, -140856, 54⟩, ⟨547674226, -139142, 52⟩,
  ⟨545461392, -137462, 51⟩, ⟨543275165, -135816, 50⟩,
  ⟨541115017, -134202, 49⟩, ⟨538980433, -132621, 48⟩]

/-- The 128 segments of 1/sqrt(a) on [1, 4) (R97). -/
def rsqTable : List Seg :=
  rsqTable0 ++ rsqTable1 ++ rsqTable2 ++ rsqTable3 ++ rsqTable4 ++ rsqTable5 ++ rsqTable6 ++ rsqTable7

/-- Segments 0 to 15 of sqrt(a) on [1, 4) (R97). -/
def sqrtTable0 : List Seg :=
 [⟨1073741824, 524280, -127⟩, ⟨1082097918, 520232, -124⟩,
  ⟨1090389977, 516276, -121⟩, ⟨1098619452, 512409, -118⟩,
  ⟨1106787739, 508627, -116⟩, ⟨1114896182, 504928, -113⟩,
  ⟨1122946079, 501309, -111⟩, ⟨1130938678, 497766, -108⟩,
  ⟨1138875187, 494298, -106⟩, ⟨1146756771, 490900, -104⟩,
  ⟨1154584553, 487572, -102⟩, ⟨1162359621, 484311, -100⟩,
  ⟨1170083026, 481115, -98⟩, ⟨1177755783, 477980, -96⟩,
  ⟨1185378878, 474907, -94⟩, ⟨1192953261, 471891, -92⟩]

/-- Segments 16 to 31 of sqrt(a) on [1, 4) (R97). -/
def sqrtTable1 : List Seg :=
 [⟨1200479854, 468933, -91⟩, ⟨1207959552, 466029, -89⟩,
  ⟨1215393219, 463179, -87⟩, ⟨1222781696, 460381, -86⟩,
  ⟨1230125796, 457632, -84⟩, ⟨1237426310, 454932, -83⟩,
  ⟨1244684005, 452280, -81⟩, ⟨1251899625, 449673, -80⟩,
  ⟨1259073893, 447111, -79⟩, ⟨1266207514, 444592, -77⟩,
  ⟨1273301169, 442115, -76⟩, ⟨1280355523, 439679, -75⟩,
  ⟨1287371222, 437283, -74⟩, ⟨1294348895, 434926, -72⟩,
  ⟨1301289153, 432606, -71⟩, ⟨1308192592, 430324, -70⟩]

/-- Segments 32 to 47 of sqrt(a) on [1, 4) (R97). -/
def sqrtTable2 : List Seg :=
 [⟨1315059792, 428076, -69⟩, ⟨1321891318, 425864, -68⟩,
  ⟨1328687719, 423686, -67⟩, ⟨1335449532, 421541, -66⟩,
  ⟨1342177280, 419428, -65⟩, ⟨1348871473, 417346, -64⟩,
  ⟨1355532607, 415296, -63⟩, ⟨1362161168, 413275, -62⟩,
  ⟨1368757628, 411283, -61⟩, ⟨1375322451, 409320, -60⟩,
  ⟨1381856086, 407385, -60⟩, ⟨1388358974, 405476, -59⟩,
  ⟨1394831545, 403595, -58⟩, ⟨1401274219, 401739, -57⟩,
  ⟨1407687407, 399909, -56⟩, ⟨1414071510, 398104, -56⟩]

/-- Segments 48 to 63 of sqrt(a) on [1, 4) (R97). -/
def sqrtTable3 : List Seg :=
 [⟨1420426919, 396323, -55⟩, ⟨1426754019, 394565, -54⟩,
  ⟨1433053185, 392831, -53⟩, ⟨1439324782, 391119, -53⟩,
  ⟨1445569171, 389430, -52⟩, ⟨1451786701, 387762, -51⟩,
  ⟨1457977717, 386115, -51⟩, ⟨1464142555, 384490, -50⟩,
  ⟨1470281545, 382884, -50⟩, ⟨1476395008, 381299, -49⟩,
  ⟨1482483261, 379733, -48⟩, ⟨1488546612, 378186, -48⟩,
  ⟨1494585366, 376658, -47⟩, ⟨1500599818, 375148, -47⟩,
  ⟨1506590260, 373657, -46⟩, ⟨1512556978, 372183, -46⟩]

/-- Segments 64 to 79 of sqrt(a) on [1, 4) (R97). -/
def sqrtTable4 : List Seg :=
 [⟨1518500250, 741444, -179⟩, ⟨1530317551, 735719, -175⟩,
  ⟨1542044294, 730124, -171⟩, ⟨1553682529, 724655, -167⟩,
  ⟨1565234231, 719308, -163⟩, ⟨1576701302, 714076, -160⟩,
  ⟨1588085574, 708958, -157⟩, ⟨1599388817, 703948, -153⟩,
  ⟨1610612736, 699042, -150⟩, ⟨1621758978, 694238, -147⟩,
  ⟨1632829134, 689532, -144⟩, ⟨1643824740, 684919, -141⟩,
  ⟨1654747284, 680399, -139⟩, ⟨1665598202, 675966, -136⟩,
  ⟨1676378885, 671619, -133⟩, ⟨1687090681, 667355, -131⟩]

/-- Segments 80 to 95 of sqrt(a) on [1, 4) (R97). -/
def sqrtTable5 : List Seg :=
 [⟨1697734891, 663171, -128⟩, ⟨1708312781, 659065, -126⟩,
  ⟨1718825574, 655034, -124⟩, ⟨1729274458, 651076, -121⟩,
  ⟨1739660585, 647189, -119⟩, ⟨1749985070, 643371, -117⟩,
  ⟨1760249000, 639620, -115⟩, ⟨1770453428, 635934, -113⟩,
  ⟨1780599376, 632310, -111⟩, ⟨1790687838, 628748, -109⟩,
  ⟨1800719782, 625245, -108⟩, ⟨1810696145, 621800, -106⟩,
  ⟨1820617842, 618412, -104⟩, ⟨1830485761, 615078, -103⟩,
  ⟨1840300769, 611798, -101⟩, ⟨1850063706, 608569, -99⟩]

/-- Segments 96 to 111 of sqrt(a) on [1, 4) (R97). -/
def sqrtTable6 : List Seg :=
 [⟨1859775393, 605392, -98⟩, ⟨1869436629, 602263, -96⟩,
  ⟨1879048192, 599182, -95⟩, ⟨1888610840, 596149, -93⟩,
  ⟨1898125312, 593160, -92⟩, ⟨1907592330, 590217, -91⟩,
  ⟨1917012597, 587317, -89⟩, ⟨1926386797, 584459, -88⟩,
  ⟨1935715602, 581642, -87⟩, ⟨1944999662, 578866, -86⟩,
  ⟨1954239618, 576129, -84⟩, ⟨1963436090, 573430, -83⟩,
  ⟨1972589688, 570769, -82⟩, ⟨1981701005, 568145, -81⟩,
  ⟨1990770623, 565557, -80⟩, ⟨1999799107, 563004, -79⟩]

/-- Segments 112 to 127 of sqrt(a) on [1, 4) (R97). -/
def sqrtTable7 : List Seg :=
 [⟨2008787014, 560485, -78⟩, ⟨2017734884, 557999, -77⟩,
  ⟨2026643249, 555546, -76⟩, ⟨2035512628, 553126, -75⟩,
  ⟨2044343526, 550737, -74⟩, ⟨2053136442, 548378, -73⟩,
  ⟨2061891861, 546049, -72⟩, ⟨2070610259, 543750, -71⟩,
  ⟨2079292101, 541480, -70⟩, ⟨2087937844, 539238, -69⟩,
  ⟨2096547933, 537023, -68⟩, ⟨2105122807, 534836, -68⟩,
  ⟨2113662894, 532675, -67⟩, ⟨2122168614, 530540, -66⟩,
  ⟨2130640379, 528431, -65⟩, ⟨2139078592, 526346, -64⟩]

/-- The 128 segments of sqrt(a) on [1, 4) (R97). -/
def sqrtTable : List Seg :=
  sqrtTable0 ++ sqrtTable1 ++ sqrtTable2 ++ sqrtTable3 ++ sqrtTable4 ++ sqrtTable5 ++ sqrtTable6 ++ sqrtTable7

/-- Segments 0 to 15 of sin(πa/2) on [0, 1) (R97). -/
def sinTable0 : List Seg :=
 [⟨0, 823560, -2⟩, ⟨13176464, 823498, -6⟩,
  ⟨26350943, 823312, -10⟩, ⟨39521455, 823002, -14⟩,
  ⟨52686014, 822568, -17⟩, ⟨65842639, 822010, -21⟩,
  ⟨78989349, 821329, -25⟩, ⟨92124163, 820523, -29⟩,
  ⟨105245103, 819594, -33⟩, ⟨118350194, 818542, -37⟩,
  ⟨131437462, 817366, -41⟩, ⟨144504935, 816068, -44⟩,
  ⟨157550647, 814646, -48⟩, ⟨170572633, 813102, -52⟩,
  ⟨183568930, 811435, -56⟩, ⟨196537583, 809646, -60⟩]

/-- Segments 16 to 31 of sin(πa/2) on [0, 1) (R97). -/
def sinTable1 : List Seg :=
 [⟨209476638, 807736, -64⟩, ⟨222384147, 805703, -67⟩,
  ⟨235258165, 803549, -71⟩, ⟨248096755, 801274, -75⟩,
  ⟨260897982, 798879, -79⟩, ⟨273659918, 796363, -82⟩,
  ⟨286380643, 793727, -86⟩, ⟨299058239, 790972, -90⟩,
  ⟨311690799, 788098, -94⟩, ⟨324276419, 785105, -97⟩,
  ⟨336813204, 781993, -101⟩, ⟨349299266, 778764, -105⟩,
  ⟨361732726, 775418, -108⟩, ⟨374111709, 771955, -112⟩,
  ⟨386434353, 768376, -115⟩, ⟨398698801, 764680, -119⟩]

/-- Segments 32 to 47 of sin(πa/2) on [0, 1) (R97). -/
def sinTable2 : List Seg :=
 [⟨410903207, 760870, -123⟩, ⟨423045732, 756945, -126⟩,
  ⟨435124548, 752907, -130⟩, ⟨447137835, 748754, -133⟩,
  ⟨459083786, 744489, -137⟩, ⟨470960600, 740112, -140⟩,
  ⟨482766489, 735624, -144⟩, ⟨494499676, 731024, -147⟩,
  ⟨506158392, 726315, -151⟩, ⟨517740883, 721496, -154⟩,
  ⟨529245404, 716569, -157⟩, ⟨540670223, 711533, -161⟩,
  ⟨552013618, 706391, -164⟩, ⟨563273883, 701142, -167⟩,
  ⟨574449320, 695788, -171⟩, ⟨585538248, 690328, -174⟩]

/-- Segments 48 to 63 of sin(πa/2) on [0, 1) (R97). -/
def sinTable3 : List Seg :=
 [⟨596538995, 684765, -177⟩, ⟨607449906, 679099, -180⟩,
  ⟨618269338, 673330, -183⟩, ⟨628995660, 667460, -187⟩,
  ⟨639627258, 661490, -190⟩, ⟨650162530, 655419, -193⟩,
  ⟨660599890, 649251, -196⟩, ⟨670937767, 642984, -199⟩,
  ⟨681174602, 636620, -202⟩, ⟨691308855, 630161, -205⟩,
  ⟨701339000, 623607, -208⟩, ⟨711263525, 616959, -211⟩,
  ⟨721080937, 610218, -214⟩, ⟨730789757, 603385, -216⟩,
  ⟨740388522, 596461, -219⟩, ⟨749875788, 589447, -222⟩]

/-- Segments 64 to 79 of sin(πa/2) on [0, 1) (R97). -/
def sinTable4 : List Seg :=
 [⟨759250125, 582345, -225⟩, ⟨768510122, 575155, -227⟩,
  ⟨777654384, 567878, -230⟩, ⟨786681534, 560516, -233⟩,
  ⟨795590213, 553069, -235⟩, ⟨804379079, 545539, -238⟩,
  ⟨813046808, 537927, -240⟩, ⟨821592095, 530234, -243⟩,
  ⟨830013654, 522461, -245⟩, ⟨838310216, 514609, -248⟩,
  ⟨846480531, 506680, -250⟩, ⟨854523370, 498675, -253⟩,
  ⟨862437520, 490594, -255⟩, ⟨870221790, 482440, -257⟩,
  ⟨877875009, 474213, -259⟩, ⟨885396022, 465914, -262⟩]

/-- Segments 80 to 95 of sin(πa/2) on [0, 1) (R97). -/
def sinTable5 : List Seg :=
 [⟨892783698, 457545, -264⟩, ⟨900036924, 449108, -266⟩,
  ⟨907154608, 440603, -268⟩, ⟨914135678, 432031, -270⟩,
  ⟨920979082, 423394, -272⟩, ⟨927683790, 414694, -274⟩,
  ⟨934248793, 405931, -276⟩, ⟨940673101, 397107, -278⟩,
  ⟨946955747, 388223, -279⟩, ⟨953095785, 379281, -281⟩,
  ⟨959092290, 370282, -283⟩, ⟨964944360, 361227, -285⟩,
  ⟨970651112, 352117, -286⟩, ⟨976211688, 342955, -288⟩,
  ⟨981625251, 333740, -290⟩, ⟨986890984, 324476, -291⟩]

/-- Segments 96 to 111 of sin(πa/2) on [0, 1) (R97). -/
def sinTable6 : List Seg :=
 [⟨992008094, 315163, -293⟩, ⟨996975812, 305802, -294⟩,
  ⟨1001793390, 296395, -295⟩, ⟨1006460100, 286944, -297⟩,
  ⟨1010975242, 277449, -298⟩, ⟨1015338134, 267912, -299⟩,
  ⟨1019548121, 258336, -300⟩, ⟨1023604567, 248720, -302⟩,
  ⟨1027506862, 239067, -303⟩, ⟨1031254418, 229378, -304⟩,
  ⟨1034846671, 219654, -305⟩, ⟨1038283080, 209897, -306⟩,
  ⟨1041563127, 200109, -307⟩, ⟨1044686319, 190290, -308⟩,
  ⟨1047652185, 180443, -309⟩, ⟨1050460278, 170569, -309⟩]

/-- Segments 112 to 127 of sin(πa/2) on [0, 1) (R97). -/
def sinTable7 : List Seg :=
 [⟨1053110176, 160669, -310⟩, ⟨1055601479, 150744, -311⟩,
  ⟨1057933813, 140797, -312⟩, ⟨1060106826, 130829, -312⟩,
  ⟨1062120190, 120841, -313⟩, ⟨1063973603, 110835, -313⟩,
  ⟨1065666786, 100812, -314⟩, ⟨1067199483, 90775, -314⟩,
  ⟨1068571464, 80723, -314⟩, ⟨1069782521, 70659, -315⟩,
  ⟨1070832474, 60585, -315⟩, ⟨1071721163, 50501, -315⟩,
  ⟨1072448455, 40410, -316⟩, ⟨1073014240, 30313, -316⟩,
  ⟨1073418433, 20211, -316⟩, ⟨1073660973, 10106, -316⟩]

/-- The 128 segments of sin(πa/2) on [0, 1) (R97). -/
def sinTable : List Seg :=
  sinTable0 ++ sinTable1 ++ sinTable2 ++ sinTable3 ++ sinTable4 ++ sinTable5 ++ sinTable6 ++ sinTable7

/-- floor(2/π × 2^384); enough bits that the floor of |x| × 2/π × 2^31 is the exact one for every FP32 x
(R96 takes x/(2π) exactly). -/
def twoOverPi : Nat :=
  25084096215574682935721059181227628242930837640303794067822625648239635411884578211128146927372608820164208964506140

end Sys2Proof.Machine
end

