-- ==== Sys2Proof/Machine/Numbers.lean ====
section
/-! DEFINITION. Number formats and arithmetic (R79 to R99): exact dyadic values, one rounding, the random
source, the conversions, L6, the terms of a matrix pass and the transcendentals. -/

namespace Sys2Proof.Machine

/-! ## Rounding modes (R55, R83) -/

/-- The rounding modes of R83. -/
inductive Rnd where
  | rne
  | rz
  | ru
  | rd
  | rs
deriving DecidableEq, Repr

/-- The mode a code of `fmode` selects (R34); the reserved codes are never held. -/
def Rnd.ofFmode (m : BitVec 3) : Rnd :=
  match m.toNat with
  | 0 => .rne
  | 1 => .rz
  | 2 => .ru
  | 3 => .rd
  | _ => .rs

/-- The captured mode: RND of the extended form, or `fmode` (R55, R84). -/
def Rnd.captured (rnd : BitVec 3) (fmode : BitVec 3) : Rnd :=
  match rnd.toNat with
  | 0 => .ofFmode fmode
  | 1 => .rne
  | 2 => .rz
  | 3 => .ru
  | 4 => .rd
  | _ => .rs

/-- RS rounds RNE outside the narrowing conversions (R34, R83). -/
def Rnd.noStochastic : Rnd → Rnd
  | .rs => .rne
  | r => r

/-! ## Exact values -/

/-- The value of a code: NaN, an infinity, or (-1)^neg × m × 2^e with the sign kept when m = 0. -/
inductive Fp where
  | nan
  | inf (neg : Bool)
  | fin (neg : Bool) (m : Nat) (e : Int)
deriving DecidableEq, Repr

/-- A binary format (R79): exponent bits, fraction bits, bias. -/
structure Fmt where
  ebits : Nat
  frac : Nat
  bias : Nat
deriving DecidableEq, Repr

def fp32 : Fmt := { ebits := 8, frac := 23, bias := 127 }
def fp16 : Fmt := { ebits := 5, frac := 10, bias := 15 }
def bf16 : Fmt := { ebits := 8, frac := 7, bias := 127 }

/-- The pattern of +infinity; every larger magnitude pattern is a NaN (R79, R80). -/
def Fmt.infBits (f : Fmt) : Nat := (2 ^ f.ebits - 1) * 2 ^ f.frac
/-- The canonical NaN (R80). -/
def Fmt.nanBits (f : Fmt) : Nat := f.infBits + 2 ^ (f.frac - 1)
/-- The sign bit. -/
def Fmt.signBit (f : Fmt) : Nat := 2 ^ (f.ebits + f.frac)
/-- The exponent of the smallest magnitude (R80). -/
def Fmt.minExp (f : Fmt) : Int := 1 - (f.bias : Int) - f.frac

/-- The value a pattern encodes (R79). -/
def Fmt.value (f : Fmt) (x : Nat) : Fp :=
  let mag := x % f.signBit
  let neg := x / f.signBit % 2 == 1
  if mag > f.infBits then .nan
  else if mag == f.infBits then .inf neg
  else
    let ex := mag / 2 ^ f.frac
    let fr := mag % 2 ^ f.frac
    if ex == 0 then .fin neg fr f.minExp
    else .fin neg (fr + 2 ^ f.frac) (f.minExp + (ex - 1))

/-- A pattern with a sign. -/
def Fmt.sign (f : Fmt) (neg : Bool) (mag : Nat) : Nat := if neg then f.signBit + mag else mag

/-- The result of an overflow in each mode (R83). -/
def Fmt.overflow (f : Fmt) (r : Rnd) (neg : Bool) : Nat :=
  let toInf := match r with
    | .rne => true
    | .rz | .rs => false
    | .ru => !neg
    | .rd => neg
  f.sign neg (if toInf then f.infBits else f.infBits - 1)

/-- A rounded pattern, and whether a random draw was taken for it (R85). -/
structure Rounded where
  bits : Nat
  drew : Bool
deriving DecidableEq, Repr

/-- Round-up decision of the four IEEE modes for a discarded part rem of 2^s. -/
def roundsUp (r : Rnd) (neg : Bool) (odd : Bool) (rem s : Nat) : Bool :=
  match r with
  | .rne => 2 * rem > 2 ^ s || (2 * rem == 2 ^ s && odd)
  | .rz | .rs => false
  | .ru => !neg && rem != 0
  | .rd => neg && rem != 0

/-- One rounding of the exact magnitude m × 2^e, m > 0, into the format (R83, R85). stoch: the format is
one that rounds stochastically, on underflow in every mode and on every inexact result under RS; u is the
draw, used only when `drew` is true. -/
def Fmt.round (f : Fmt) (stoch : Bool) (r : Rnd) (u : Word) (neg : Bool) (m : Nat) (e : Int) : Rounded :=
  let top : Int := (Nat.log2 m : Int) + e
  if top > f.bias then { bits := f.overflow r neg, drew := stoch && r == .rs }
  else
    let q : Int := if top - f.frac < f.minExp then f.minExp else top - f.frac
    let scale := (q - f.minExp).toNat * 2 ^ f.frac
    if q ≤ e then { bits := f.sign neg (scale + m * 2 ^ (e - q).toNat), drew := false }
    else
      let s := Nat.min (q - e).toNat (Nat.log2 m + 40)
      let lo := m / 2 ^ s
      let rem := m % 2 ^ s
      let exact := rem == 0
      let mag := scale + lo
      let draws := stoch && !exact && (mag == 0 || r == .rs)
      let up := if draws then u.toNat < rem * 2 ^ 32 / 2 ^ s
        else roundsUp r neg (lo % 2 == 1) rem s
      let mag' := if up then mag + 1 else mag
      if mag' ≥ f.infBits then { bits := f.overflow r neg, drew := draws }
      else { bits := f.sign neg mag', drew := draws }

/-- Encoding of an exact value: NaN canonical, zeros with their sign, the rest rounded once. -/
def Fmt.encode (f : Fmt) (stoch : Bool) (r : Rnd) (u : Word) : Fp → Rounded
  | .nan => { bits := f.nanBits, drew := false }
  | .inf neg => { bits := f.sign neg f.infBits, drew := false }
  | .fin neg m e => if m == 0 then { bits := f.sign neg 0, drew := false } else f.round stoch r u neg m e

/-- A signed dyadic n × 2^e as a value; zero takes the sign zneg. -/
def Fp.ofInt (n : Int) (e : Int) (zneg : Bool) : Fp :=
  if n == 0 then .fin zneg 0 0 else .fin (n < 0) n.natAbs e

/-- n × 2^e brought to the exponent f ≤ e. -/
def atExp (n e f : Int) : Int := n * (2 ^ (e - f).toNat : Nat)

/-- Signed mantissa of a finite value. -/
def signed (neg : Bool) (m : Nat) : Int := if neg then -(m : Int) else m

/-- Exact sum of two values with IEEE signs of zero (R111). -/
def Fp.add (r : Rnd) : Fp → Fp → Fp
  | .nan, _ => .nan
  | _, .nan => .nan
  | .inf a, .inf b => if a == b then .inf a else .nan
  | .inf a, _ => .inf a
  | _, .inf b => .inf b
  | .fin na ma ea, .fin nb mb eb =>
    let e := if ea < eb then ea else eb
    let n := atExp (signed na ma) ea e + atExp (signed nb mb) eb e
    .ofInt n e (if ma == 0 && mb == 0 && na == nb then na else r == .rd)

/-- Exact product (R111). -/
def Fp.mul : Fp → Fp → Fp
  | .nan, _ => .nan
  | _, .nan => .nan
  | .inf a, .inf b => .inf (a != b)
  | .inf a, .fin nb mb _ => if mb == 0 then .nan else .inf (a != nb)
  | .fin na ma _, .inf b => if ma == 0 then .nan else .inf (na != b)
  | .fin na ma ea, .fin nb mb eb => .fin (na != nb) (ma * mb) (ea + eb)

def Fp.neg : Fp → Fp
  | .nan => .nan
  | .inf a => .inf (!a)
  | .fin n m e => .fin (!n) m e

/-- a × 2^n. -/
def Fp.scale (n : Int) : Fp → Fp
  | .fin s m e => .fin s m (if m == 0 then e else e + n)
  | x => x

def Fp.isNan : Fp → Bool
  | .nan => true
  | _ => false
def Fp.isZero : Fp → Bool
  | .fin _ m _ => m == 0
  | _ => false
def Fp.negative : Fp → Bool
  | .nan => false
  | .inf n => n
  | .fin n _ _ => n

/-- Numeric order of two values that are not NaN: -1, 0 or 1; zeros compare equal (R113). -/
def Fp.cmp : Fp → Fp → Int
  | .inf a, .inf b => if a == b then 0 else if a then -1 else 1
  | .inf a, _ => if a then -1 else 1
  | _, .inf b => if b then 1 else -1
  | .fin na ma ea, .fin nb mb eb =>
    let e := if ea < eb then ea else eb
    let d := atExp (signed na ma) ea e - atExp (signed nb mb) eb e
    if d < 0 then -1 else if d == 0 then 0 else 1
  | _, _ => 0

/-- The total order of `fmin` and `fmax`, in which -0.0 lies below +0.0 (R112). -/
def Fp.below (a b : Fp) : Bool :=
  let c := a.cmp b
  c < 0 || (c == 0 && a.negative && !b.negative)

/-- The sum rules of R93, items 1 to 4, over exact terms; item 5 rounds the result. -/
def Fp.sumTerms (r : Rnd) (ts : List Fp) : Fp :=
  if ts.any (·.isNan) then .nan
  else
    let pos := ts.any fun t => t == .inf false
    let ngt := ts.any fun t => t == .inf true
    if pos && ngt then .nan
    else if pos then .inf false
    else if ngt then .inf true
    else
      let (n, e) := ts.foldl (fun (acc : Int × Int) t => match t with
        | .fin s m x =>
          if m == 0 then acc
          else
            let f := if x < acc.2 then x else acc.2
            (atExp acc.1 acc.2 f + atExp (signed s m) x f, f)
        | _ => acc) (0, 0)
      .ofInt n e (r == .rd)

/-! ## FP32 operations -/

/-- The value of an FP32 register. -/
def f32 (x : Word) : Fp := fp32.value x.toNat

/-- An exact value rounded once into FP32 (R83); RS rounds RNE. -/
def toF32 (r : Rnd) (x : Fp) : Word :=
  BitVec.ofNat 32 (fp32.encode false r.noStochastic 0 x).bits

def faddF32 (r : Rnd) (a b : Word) : Word := toF32 r ((f32 a).add r.noStochastic (f32 b))
def fsubF32 (r : Rnd) (a b : Word) : Word := toF32 r ((f32 a).add r.noStochastic (f32 b).neg)
def fmulF32 (r : Rnd) (a b : Word) : Word := toF32 r ((f32 a).mul (f32 b))
def ffmaF32 (r : Rnd) (a b c : Word) : Word :=
  toF32 r (((f32 a).mul (f32 b)).add r.noStochastic (f32 c))
def fscaleF32 (r : Rnd) (a b : Word) : Word := toF32 r ((f32 a).scale b.toInt)

/-- `fmin` and `fmax` of patterns of a format (R112). -/
def minmaxBits (f : Fmt) (isMax : Bool) (a b : Nat) : Nat :=
  match f.value a, f.value b with
  | .nan, .nan => f.nanBits
  | .nan, _ => b
  | _, .nan => a
  | x, y => if isMax then (if x.below y then b else a) else (if y.below x then b else a)

def fminF32 (a b : Word) : Word := BitVec.ofNat 32 (minmaxBits fp32 false a.toNat b.toNat)
def fmaxF32 (a b : Word) : Word := BitVec.ofNat 32 (minmaxBits fp32 true a.toNat b.toNat)
def fabsF32 (a : Word) : Word := if (f32 a).isNan then 0x7FC00000 else a &&& 0x7FFFFFFF
def fnegF32 (a : Word) : Word := if (f32 a).isNan then 0x7FC00000 else a ^^^ 0x80000000

/-- An exact value rounded to an integer in a mode: the magnitude. -/
def roundInt (r : Rnd) (neg : Bool) (m : Nat) (e : Int) : Nat :=
  if 0 ≤ e then m * 2 ^ e.toNat
  else
    let s := Nat.min (-e).toNat (Nat.log2 m + 2)
    let lo := m / 2 ^ s
    if roundsUp r.noStochastic neg (lo % 2 == 1) (m % 2 ^ s) s then lo + 1 else lo

/-- roundToIntegral (R111). -/
def frndF32 (r : Rnd) (a : Word) : Word :=
  match f32 a with
  | .fin neg m e => if 0 ≤ e then a else toF32 r (.fin neg (roundInt r neg m e) 0)
  | x => toF32 r x

/-- One condition of R113 on two values. -/
def fpCond (cond : Nat) (a b : Fp) : Bool :=
  let un := a.isNan || b.isNan
  let c := a.cmp b
  match cond with
  | 0 => !un && c == 0
  | 1 => un || c != 0
  | 2 => !un && c < 0
  | 3 => !un && c ≤ 0
  | 4 => !un && c > 0
  | 5 => !un && c ≥ 0
  | 6 => un
  | _ => !un

/-- `fclass` (R114). -/
def fclassF32 (a : Word) : Word :=
  let neg := a.getLsbD 31
  match f32 a with
  | .nan => if a.getLsbD 22 then 2 else 1
  | .inf n => if n then 4 else 0x200
  | .fin _ m _ =>
    if m == 0 then (if neg then 0x20 else 0x40)
    else if m < 2 ^ 23 then (if neg then 0x10 else 0x80)
    else (if neg then 8 else 0x100)

/-- `fdp4` (R115). -/
def fdp4F32 (r : Rnd) (a b : List Word) (c : Word) : Word :=
  let prods := (a.zip b).map fun p => (f32 p.1).mul (f32 p.2)
  toF32 r (Fp.sumTerms r.noStochastic (f32 c :: prods))

/-! ## The device random source (R87) -/

/-- rng (R87). -/
def rng (seed lin ctr : Dword) : Word :=
  let k0 := seed ^^^ lin.rotateLeft 32 ^^^ 0x8F3B1D6A5C2E4F97
  let round := fun (x k : Dword) =>
    let x := x + k
    let x := x ^^^ (x >>> 29)
    let x := x * 0xB7E1A2C9D3F50861
    x ^^^ (x >>> 32)
  let c : Dword := 0x6A09E667F3BCC909
  let x := round (ctr ^^^ lin) k0
  let x := round x (k0 + c)
  let x := round x (k0 + c + c)
  let x := round x (k0 + c + c + c)
  highHalf x

/-- The random stream of one thread: its key and counter (R86, R87). -/
structure Stream where
  seed : Dword
  lineage : Dword
  ctr : Dword
deriving DecidableEq, Repr

def Stream.draw (s : Stream) : Word := rng s.seed s.lineage s.ctr
/-- The stream after a draw that was or was not taken (R85). -/
def Stream.after (s : Stream) (drew : Bool) : Stream := if drew then { s with ctr := s.ctr + 1 } else s

/-- One exact value rounded into FP16 or BF16 with its draw (R85). -/
def toHalf (f : Fmt) (r : Rnd) (s : Stream) (x : Fp) : Nat × Stream :=
  let y := f.encode true r s.draw x
  (y.bits, s.after y.drew)

/-! ## L6 (R81, R90) -/

/-- The table of 2^(j/4) in Q12 (R81). -/
def l6Table (j : Nat) : Nat :=
  match j with
  | 0 => 4096
  | 1 => 4871
  | 2 => 5793
  | _ => 6889

/-- The magnitude of a log field sum e: t[j] × 2^(q - 12) (R81). -/
def l6Mag (e : Int) : Nat × Int := (l6Table (e % 4).toNat, e / 4 - 12)

/-- l6_value (R81). -/
def l6Value (code : Nat) (scale : Int) : Fp :=
  let f := code % 32
  let s := code / 32 % 2 == 1
  if f == 0 then (if s then .nan else .fin false 0 0)
  else
    let (m, e) := l6Mag ((f : Int) - 16 + 4 * scale)
    .fin s m e

/-- Significand of a threshold of R90, in units of 2^-23. -/
def l6Thresholds : List Nat := [0x8B95C2, 0xA5FED7, 0xC5672A, 0xEAC0C7]

/-- to_l6 (R90): the code and whether the underflow draw was taken. -/
def toL6 (x : Fp) (scale : Int) (u : Word) : Nat × Bool :=
  match x with
  | .nan => (0x20, false)
  | .inf s => ((if s then 32 else 0) + 31, false)
  | .fin s m e =>
    if m == 0 then (0, false)
    else
      let sb := if s then 32 else 0
      let (m1, e1) := l6Mag (4 * scale - 15)
      if (Fp.fin false m e).cmp (.fin false m1 e1) < 0 then
        -- floor(|x| / m1 × 2^32)
        let d := e - e1 + 32
        let num := if 0 ≤ d then m * 2 ^ d.toNat else m
        let den := if 0 ≤ d then m1 else m1 * 2 ^ (-d).toNat
        (if u.toNat < num / den then sb + 1 else 0, true)
      else
        let k := Nat.log2 m
        let q : Int := (k : Int) + e - scale
        -- the significand in units of 2^-23; FP32 values have at most 24 bits
        let sig := if k ≤ 23 then m * 2 ^ (23 - k) else m / 2 ^ (k - 23)
        let j := (l6Thresholds.filter (· ≤ sig)).length
        let f := 4 * q + j + 16
        (sb + (if f > 31 then 31 else f.toNat), false)

/-! ## Conversions (R89) -/

/-- Saturation to the range of an integer type of w bits (R89). -/
def saturate (isSigned : Bool) (w : Nat) (n : Int) : Nat :=
  let lo : Int := if isSigned then -(2 ^ (w - 1) : Nat) else 0
  let hi : Int := if isSigned then (2 ^ (w - 1) : Nat) - 1 else (2 ^ w : Nat) - 1
  let c := if n < lo then lo else if n > hi then hi else n
  (c % (2 ^ w : Nat)).toNat

/-- FP32 to an integer type of w bits (R89). -/
def fpToInt (isSigned : Bool) (w : Nat) (r : Rnd) (x : Fp) : Nat :=
  match x with
  | .nan => 0
  | .inf neg =>
    if neg then (if isSigned then 2 ^ (w - 1) else 0)
    else if isSigned then 2 ^ (w - 1) - 1 else 2 ^ w - 1
  | .fin neg m e =>
    if (Nat.log2 m : Int) + e > w then saturate isSigned w (signed neg (2 ^ w))
    else saturate isSigned w (signed neg (roundInt r neg m e))

/-- The value an FP32 conversion source holds (R82, R88); x is the 64-bit operand. -/
def cvtValue (t : Nat) (x : Dword) : Fp :=
  let w := lowHalf x
  if t == Ty.i32 then .ofInt w.toInt 0 false
  else if t == Ty.n32 then .fin false w.toNat 0
  else if t == Ty.i64 then .ofInt x.toInt 0 false
  else if t == Ty.n64 then .fin false x.toNat 0
  else if t == Ty.i8 then .ofInt (w.extractLsb' 0 8).toInt 0 false
  else if t == Ty.n8 then .fin false (w.toNat % 256) 0
  else if t == Ty.f16 then fp16.value (w.toNat % 65536)
  else if t == Ty.bf16 then bf16.value (w.toNat % 65536)
  else if t == Ty.l6 then l6Value (w.toNat % 64) 0
  else f32 w

/-- An exact value converted to type t with scale for L6: the register pattern and the stream after it
(R82, R89, R90). -/
def convert (t : Nat) (r : Rnd) (scale : Int) (s : Stream) (x : Fp) : Dword × Stream :=
  let narrow := fun (isSigned : Bool) (w : Nat) =>
    let b := fpToInt isSigned w r x
    if w == 8 && isSigned then (((BitVec.ofNat 8 b).signExtend 32).zeroExtend 64 : Dword)
    else BitVec.ofNat 64 b
  if t == Ty.f32 then ((toF32 r x).zeroExtend 64, s)
  else if t == Ty.f16 then let (b, s') := toHalf fp16 r s x; (BitVec.ofNat 64 b, s')
  else if t == Ty.bf16 then let (b, s') := toHalf bf16 r s x; (BitVec.ofNat 64 b, s')
  else if t == Ty.l6 then let (c, drew) := toL6 x scale s.draw; (BitVec.ofNat 64 c, s.after drew)
  else if t == Ty.i32 then (narrow true 32, s)
  else if t == Ty.n32 then (narrow false 32, s)
  else if t == Ty.i64 then (narrow true 64, s)
  else if t == Ty.n64 then (narrow false 64, s)
  else if t == Ty.i8 then (narrow true 8, s)
  else (narrow false 8, s)

/-! ## Packed pairs (R117, R118) -/

/-- The two elements of a pair (R82). -/
def loElem (x : Word) : Nat := x.toNat % 65536
def hiElem (x : Word) : Nat := x.toNat / 65536

/-- The packed operations of R117. -/
inductive PairOp where
  | add
  | mul
  | fma
  | min
  | max
deriving DecidableEq, Repr

/-- One element of a packed operation. -/
def pairElem (f : Fmt) (op : PairOp) (r : Rnd) (s : Stream) (a b c : Nat) : Nat × Stream :=
  let va := f.value a
  let vb := f.value b
  let r := r.noStochastic
  match op with
  | .add => toHalf f r s (va.add r vb)
  | .mul => toHalf f r s (va.mul vb)
  | .fma => toHalf f r s ((va.mul vb).add r (f.value c))
  | .min => (minmaxBits f false a b, s)
  | .max => (minmaxBits f true a b, s)

/-- A packed operation, element 0 before element 1 (R86, R117). -/
def pairOp (f : Fmt) (op : PairOp) (r : Rnd) (s : Stream) (a b c : Word) : Word × Stream :=
  let (x, s) := pairElem f op r s (loElem a) (loElem b) (loElem c)
  let (y, s) := pairElem f op r s (hiElem a) (hiElem b) (hiElem c)
  (BitVec.ofNat 32 (y * 65536 + x), s)

/-- The half format of a pair type. -/
def halfFmt (t : Nat) : Fmt := if t == Ty.bf16 then bf16 else fp16

/-! ## Transcendentals (R96 to R99) -/

/-- y of R98 for the table, the segment and hh. -/
def quadratic (tbl : List Seg) (i hh : Nat) : Int :=
  let g := tbl.getD i { c0 := 0, c1 := 0, c2 := 0 }
  let t1 := g.c2 * hh / 16777216
  let t2 := g.c1 + 16 * t1
  let t3 := t2 * hh / 16777216
  g.c0 + 16 * t3

/-- p of the point whose distance from the interval's start, in units of 2^-31 of its length, floors
to a (R98). -/
def polyAt (tbl : List Seg) (a : Nat) : Int := quadratic tbl (a / 16777216 % 128) (a % 16777216)

/-- m × 2^e floored after a shift by 2^k, for a normalised significand in [1, 2): (a - 1) × 2^31. -/
def unitFraction (m : Nat) : Nat :=
  let k := Nat.log2 m
  (m - 2 ^ k) * 2 ^ 31 / 2 ^ k

/-- A result whose value is zero is +0.0 (R96). -/
def composed (n e : Int) : Fp := .ofInt n e false

/-- The `rsq` and `sqrt` reduction: x = a × 4^k with 1 ≤ a < 4; the table point and k (R96, R97). -/
def fourthReduce (m : Nat) (e : Int) : (Nat × Nat) × Int :=
  let t : Int := (Nat.log2 m : Int) + e
  let fr := unitFraction m
  -- segments of 1/64 on [1, 2) and of 1/32 on [2, 4): the offset in units of a segment × 2^-24
  let pos := fr / 2
  if t % 2 == 0 then ((pos / 16777216, pos % 16777216), t / 2)
  else ((64 + pos / 16777216, pos % 16777216), (t - 1) / 2)

/-- floor(4g × 2^31) modulo 2^33 for g = frac(x / (2π)), x ≠ 0 (R96). -/
def quarterTurns (neg : Bool) (m : Nat) (e : Int) : Nat :=
  let d : Int := e + 31 - 384
  let prod := m * twoOverPi
  let t : Nat := if 0 ≤ d then prod * 2 ^ d.toNat else prod / 2 ^ (-d).toNat
  if neg then (2 ^ 33 - 1 - t % 2 ^ 33) else t % 2 ^ 33

/-- `sin` or `cos` of a finite x ≠ 0 (R96): p(r) or p(1 - r) with the sign of the quadrant. -/
def sinCos (cosine neg : Bool) (m : Nat) (e : Int) : Fp :=
  let t := quarterTurns neg m e
  let qd := (t / 2 ^ 31 + (if cosine then 1 else 0)) % 4
  let r := t % 2 ^ 31
  let y := if qd % 2 == 0 then polyAt sinTable r else polyAt sinTable (2 ^ 31 - 1 - r)
  composed (if qd < 2 then y else -y) (-30)

/-- The transcendental functions (R96, R99). -/
inductive Trans where
  | ex2
  | lg2
  | rcp
  | rsq
  | sqrt
  | sin
  | cos
deriving DecidableEq, Repr

/-- The exact result before the one rounding (R96, R99). -/
def Trans.eval (fn : Trans) (x : Fp) : Fp :=
  match fn, x with
  | _, .nan => .nan
  | .ex2, .inf neg => if neg then .fin false 0 0 else .inf false
  | .lg2, .inf neg => if neg then .nan else .inf false
  | .rcp, .inf neg => .fin neg 0 0
  | .rsq, .inf neg => if neg then .nan else .fin false 0 0
  | .sqrt, .inf neg => if neg then .nan else .inf false
  | .sin, .inf _ => .nan
  | .cos, .inf _ => .nan
  | .ex2, .fin neg m e =>
    if m == 0 then .fin false 1 0
    else
      -- |x| ≥ 2^10 overflows or vanishes whatever its fraction, which FP32 then does not hold exactly
      let t : Int := (Nat.log2 m : Int) + e
      if t > 12 then composed 1 (if neg then -8192 else 8192)
      else
        -- floor(x × 2^31): x - floor(x) keeps every bit that hh takes
        let a : Int := if 0 ≤ e + 31 then signed neg m * (2 ^ (e + 31).toNat : Nat)
          else signed neg m / (2 ^ (-(e + 31)).toNat : Nat)
        let n := a / 2147483648
        composed (polyAt ex2Table (a % 2147483648).toNat) (n - 30)
  | .lg2, .fin neg m e =>
    if m == 0 then .inf true
    else if neg then .nan
    else composed (((Nat.log2 m : Int) + e) * 1073741824 + polyAt lg2Table (unitFraction m)) (-30)
  | .rcp, .fin neg m e =>
    if m == 0 then .inf neg
    else
      let y := polyAt rcpTable (unitFraction m)
      composed (if neg then -y else y) (-30 - ((Nat.log2 m : Int) + e))
  | .rsq, .fin neg m e =>
    if m == 0 then .inf neg
    else if neg then .nan
    else let ((i, hh), k) := fourthReduce m e; composed (quadratic rsqTable i hh) (-30 - k)
  | .sqrt, .fin neg m e =>
    if m == 0 then .fin neg 0 0
    else if neg then .nan
    else let ((i, hh), k) := fourthReduce m e; composed (quadratic sqrtTable i hh) (-30 + k)
  | .sin, .fin neg m e => if m == 0 then .fin neg 0 0 else sinCos false neg m e
  | .cos, .fin neg m e => if m == 0 then .fin false 1 0 else sinCos true neg m e

/-- A transcendental of an FP32 pattern, rounded once (R119). -/
def transF32 (fn : Trans) (r : Rnd) (a : Word) : Word := toF32 r (fn.eval (f32 a))

/-! ## Lane order of reductions and scans (R95) -/

/-- The combinations of `redux` and `scan` (R68). -/
inductive LaneOp where
  | add
  | min
  | max
  | and
  | or
  | xor
deriving DecidableEq, Repr

/-- The operation that a SUB code selects (R68). -/
def LaneOp.ofCode (n : Nat) : LaneOp :=
  match n with
  | 0 => .add
  | 1 => .min
  | 2 => .max
  | 3 => .and
  | 4 => .or
  | _ => .xor

/-- val(x) at the width of the type (R104). -/
def valOf (t : Nat) (x : Dword) : Int :=
  if t == Ty.i32 then (lowHalf x).toInt
  else if t == Ty.n32 then ((lowHalf x).toNat : Int)
  else if t == Ty.i64 then x.toInt
  else (x.toNat : Int)

/-- A 64-bit value cut to the width of the type. -/
def cut (t : Nat) (x : Dword) : Dword := if Ty.regs t == 2 then x else (lowHalf x).zeroExtend 64

/-- One step of R95 at the type. -/
def LaneOp.apply (op : LaneOp) (t : Nat) (r : Rnd) (a b : Dword) : Dword :=
  if t == Ty.f32 then
    (match op with
      | .add => faddF32 r (lowHalf a) (lowHalf b)
      | .min => fminF32 (lowHalf a) (lowHalf b)
      | _ => fmaxF32 (lowHalf a) (lowHalf b)).zeroExtend 64
  else match op with
    | .add => cut t (a + b)
    | .min => if valOf t a ≤ valOf t b then a else b
    | .max => if valOf t a ≥ valOf t b then a else b
    | .and => a &&& b
    | .or => a ||| b
    | .xor => a ^^^ b

/-- The identities of R95. -/
def LaneOp.identity (op : LaneOp) (t : Nat) : Dword :=
  if t == Ty.f32 then
    match op with
    | .add => 0x80000000
    | .min => 0x7F800000
    | _ => 0xFF800000
  else match op with
    | .add | .or | .xor => 0
    | .and => cut t (BitVec.allOnes 64)
    | .min => if t == Ty.i32 then 0x7FFFFFFF else if t == Ty.n32 then 0xFFFFFFFF
      else if t == Ty.i64 then 0x7FFFFFFFFFFFFFFF else BitVec.allOnes 64
    | .max => if t == Ty.i32 then 0x80000000 else if t == Ty.i64 then 0x8000000000000000 else 0

/-- One round of the butterfly at distance 2^k (R95). -/
def butterfly (f : Dword → Dword → Dword) (x : Vector Dword 32) (d : Nat) : Vector Dword 32 :=
  .ofFn fun i =>
    let j := i.val ^^^ d
    f (x.toArray.getD (Nat.min i.val j) 0) (x.toArray.getD (Nat.max i.val j) 0)

/-- reduce (R95). -/
def laneReduce (f : Dword → Dword → Dword) (x : Vector Dword 32) : Dword :=
  ([1, 2, 4, 8, 16].foldl (butterfly f) x).toArray.getD 0 0

/-- scan (R95). -/
def laneScan (f : Dword → Dword → Dword) (identity : Dword) (exclusive : Bool) (x : Vector Dword 32) :
    Vector Dword 32 :=
  let (s, _) := [1, 2, 4, 8, 16].foldl (fun (st : Vector Dword 32 × Vector Dword 32) d =>
    let (s, t) := st
    let s2 : Vector Dword 32 := .ofFn fun i =>
      if i.val &&& d != 0 then f (t.toArray.getD (i.val ^^^ d) 0) s[i] else s[i]
    (s2, butterfly f t d)) (x, x)
  if exclusive then .ofFn fun i => if i.val == 0 then identity else s.toArray.getD (i.val - 1) 0 else s

/-! ## The format word and matrix passes (R91 to R94) -/

/-- The fields of a format word (R91). -/
structure FormatWord where
  afmt : Nat
  bfmt : Nat
  asc : Int
  bsc : Int
  cplx : Bool
  ornd : Nat
deriving DecidableEq, Repr

def FormatWord.ofWord (w : Word) : FormatWord where
  afmt := (w.extractLsb' 0 4).toNat
  bfmt := (w.extractLsb' 4 4).toNat
  asc := (w.extractLsb' 8 8).toInt
  bsc := (w.extractLsb' 16 8).toInt
  cplx := w.getLsbD 24
  ornd := (w.extractLsb' 25 3).toNat

/-- The combinations of R92, with no reserved code or bit. -/
def formatValid (w : Word) : Bool :=
  let f := FormatWord.ofWord w
  w.extractLsb' 28 4 == 0 && f.ornd < 5 &&
    ((f.afmt == 1 && f.bfmt == 1 && !f.cplx) || (f.afmt == 2 && f.bfmt == 2)
      || ((f.afmt == 3 || f.afmt == 4) && (f.bfmt == 3 || f.bfmt == 4) && !f.cplx)
      || (f.afmt == 5 && f.bfmt == 5 && !f.cplx))

/-- K of one pass, in codes of a row (R92, R94); a complex row holds 16 pairs. -/
def FormatWord.rowCodes (f : FormatWord) : Nat :=
  if f.afmt == 5 then 128 else if f.afmt == 3 || f.afmt == 4 then 64 else 32

/-- The captured output rounding (R84, R91); RS of `fmode` rounds RNE (R83). -/
def FormatWord.rounding (f : FormatWord) (fmode : BitVec 3) : Rnd :=
  (Rnd.captured (BitVec.ofNat 3 f.ornd) fmode).noStochastic

/-- The value of a code that is not L6 (R92). -/
def codeValue (fmt : Nat) (sc : Int) (code : Nat) : Fp :=
  let v := match fmt with
    | 1 => fp16.value code
    | 2 => bf16.value code
    | 3 => Fp.ofInt (BitVec.ofNat 8 code).toInt 0 false
    | 4 => .fin false (code % 256) 0
    | _ => f32 (BitVec.ofNat 32 code)
  v.scale sc

/-- One product term of a pass (R93). -/
def passTerm (f : FormatWord) (a b : Nat) : Fp :=
  if f.afmt == 5 then
    let fa := a % 32
    let fb := b % 32
    if a % 64 == 32 || b % 64 == 32 then .nan
    else if fa == 0 || fb == 0 then .fin false 0 0
    else
      let (m, e) := l6Mag (((fa : Int) - 16 + 4 * f.asc) + ((fb : Int) - 16 + 4 * f.bsc))
      .fin ((a / 32 + b / 32) % 2 == 1) m e
  else (codeValue f.afmt f.asc a).mul (codeValue f.bfmt f.bsc b)

/-- One element of a pass that is not complex (R93): the accumulator, a row of A, a column of B. -/
def passElement (f : FormatWord) (r : Rnd) (acc : Word) (row col : List Nat) : Word :=
  toF32 r (Fp.sumTerms r (f32 acc :: (row.zip col).map fun p => passTerm f p.1 p.2))

/-- One element of a complex pass (R94): row holds re, im pairs; re and im are the columns 2c and
2c + 1 of B. -/
def passComplex (f : FormatWord) (r : Rnd) (imag : Bool) (acc : Word) (row re im : List Nat) : Word :=
  let pairs := (List.range 16).flatMap fun k =>
    let a := row.getD (2 * k) 0
    let b := row.getD (2 * k + 1) 0
    let c := re.getD k 0
    let d := im.getD k 0
    if imag then [passTerm f a d, passTerm f b c] else [passTerm f a c, (passTerm f b d).neg]
  toF32 r (Fp.sumTerms r (f32 acc :: pairs))

end Sys2Proof.Machine
end

