-- ==== Sys2Proof/Machine/State.lean ====
section
/-! DEFINITION. The state of the module as plain data: Module holds what an image holds (R406), State adds
the memories and what stands outside an image (R401, R402). Docstrings name the rule that gives each
piece; a value at reset that the spec does not give is the one log entry 1 names. -/

namespace Sys2Proof.Machine

/-! ## Threads, gangs, teams, kernels -/

/-- Thread states of R305; park carries the reason code of R306. A BINNED thread stands in its bin, and an EXITED
one has left the lists; HALTED is a field of its own beside the state it keeps. -/
inductive ThreadState where
  | ready
  | trapped
  | parked (reason : Nat)
deriving DecidableEq, Repr

/-- One entry of a pending list (R42, R59): first register, register count, and the value once it has
returned. tok names the entry while its value is on the way. -/
structure Pending where
  reg : Nat
  count : Nat
  tok : Nat
  value : Option (List Word)
deriving DecidableEq, Repr

/-- One operation of a thread not yet performed, with the class bits of R172 and R458. -/
structure OutOp where
  tok : Nat
  classes : Nat
deriving DecidableEq, Repr

/-- The registers handler entry writes (R32, R41). -/
structure TrapRegs where
  cause : Word
  pc : Dword
  addr : Dword
  word0 : Word
  word1 : Word
  word2 : Word
  word3 : Dword
  fld : Dword
deriving DecidableEq, Repr

/-- How far a fence has come (R173). -/
inductive FenceStage where
  /-- predecessor-set operations are awaited -/
  | waiting
  /-- its write-back runs -/
  | releasing
  /-- hubs are asked to write back (R161) -/
  | promoting
  | bumping
deriving DecidableEq, Repr

/-- A fence of the thread whose parts are not both complete (R173). -/
structure OpenFence where
  tok : Nat
  /-- tokens of the predecessor-set operations not yet performed -/
  waits : List Nat
  successors : Nat
  ord : Nat
  scope : Nat
  rmt : Bool
  stage : FenceStage
  /-- hubs whose acknowledgement is awaited -/
  promotions : List Nat
deriving DecidableEq, Repr

/-- What a parked thread waits for beyond its pending results (R306). -/
inductive WaitFor where
  | none
  /-- an acquire part: the tokens of the parts still to complete (R161) -/
  | acquire (toks : List Nat)
  /-- `hs` bytes whose lines are absent; the load is performed after (R156) -/
  | present
  /-- team barrier n (R355, R356); the predicate `bar.sync` writes -/
  | bar (n : Nat) (phase : Nat) (pred : Option Nat)
  | gsync
  | gridsync (pred : Nat)
  /-- transaction barrier at an `hs` offset, and the phase waited past (R363) -/
  | tb (off : Nat) (phase : Nat)
  /-- the merge-table request for a page (R374) -/
  | translation
  | xacq
  /-- the repair target and the address after it (R204) -/
  | tackChk (target next : Dword)
  /-- the bytes of the access (R179); none: one tick has passed when the cycle is later -/
  | lkwait (since : Nat)
  /-- the wait of `exit` for pending results (R60) -/
  | exit
  | tret
  | rsmp
  /-- handler entry awaits the pending results (R61, R263): the registers it will write, BADF or the
  reason, and the cycle of the detection (R270) -/
  | trap (x : TrapRegs) (detail since : Nat)
deriving DecidableEq, Repr

/-- Why a thread is halted for a debug session: the reasons of R305. -/
abbrev Halt := Option HaltWhy

/-- What a thread presents at `rsmp` (R334): weight, target count, offset, whether the offset is drawn, and vD, with the
instruction's address and word 0. -/
structure RsmpArgs where
  pc : Dword
  word0 : Word
  weight : Word
  target : Word
  offset : Word
  draw : Bool
  dst : Nat
  tok : Nat
deriving DecidableEq, Repr

/-- One thread (R23, R32, R42, R305). -/
structure Thread where
  ref : ThreadRef
  v : Vector Word 96
  /-- poisoned registers (R157) -/
  poison : List Nat
  /-- p0 to p7; bit 0 is always set (R24) -/
  p : Byte
  pc : Dword
  fmode : BitVec 3
  sptr : Word
  lineage : Dword
  rngctr : Dword
  tackst : Word
  popst : Word
  spawns : Nat
  grank : Dword
  x : TrapRegs
  pend : List Pending
  st : ThreadState
  wait : WaitFor
  /-- the issuing state a parked thread returns to (R305) -/
  inHandler : Bool
  /-- HALTED by the debug session, or by a save that has reached its quarter (R274, R328) -/
  halt : Halt
  stopped : Bool
  nest : Nat
  pass : Nat
  /-- ticks of the quarter on which the thread is not eligible (R126, R268) -/
  skip : Nat
  /-- the bits of ARR and the phases PH (R351) -/
  arr : BitVec 16
  ph : Vector Nat 16
  out : List OutOp
  fences : List OpenFence
  /-- the stack read of `ret` is outstanding: its token and the instruction (R124) -/
  retWait : Option (Nat × Code)
  /-- level of a `pstep` whose pieces have not all registered (R187) -/
  pstepWait : Option Nat
  /-- the bump of an `sfence` is outstanding: tokens of the `hs` writes it awaits (R176) -/
  sfenceWait : Option (List Nat)
  /-- the release part of a collective has not ended (R218) -/
  rel : Bool
  /-- the `hs` offset of the join counter the thread counts on (R320) -/
  joins : Option Nat
  xacqIssued : Bool
  xrelIssued : Bool
  /-- the thread has issued its kernel's `rsmp`: the operands it read, as FP32 patterns and the target count
  (R334, R336) -/
  rsmp : Option RsmpArgs
  /-- the packet that began at a breakpoint is issued once after a resume (R274) -/
  stepOver : Bool
deriving DecidableEq, Repr

/-- An open `xacq` request (R316). -/
structure XacqReq where
  n : Nat
  complete : Bool
  /-- place in the quarter's queue (R318): the cycle it became complete or was restored, and its place in that cycle -/
  since : Nat
  order : Nat
deriving DecidableEq, Repr

/-- One gang (R27, R32, R307, R311). -/
structure Gang where
  ref : GangRef
  g : Vector Word 128
  /-- poisoned registers (R157) -/
  poison : List Nat
  role : Nat
  hub : Nat
  core : Nat
  quarter : Nat
  slot : Nat
  vcore : Nat
  vslot : Nat
  led : Nat
  waitCount : Nat
  /-- pool blocks held, first block first (R315) -/
  blocks : List Nat
  xacq : Option XacqReq
  /-- formed from a bin (R322) -/
  binned : Bool
deriving DecidableEq, Repr

/-- Modes of a team barrier (R350). -/
inductive BarMode where
  | idle
  | all
  | counted
deriving DecidableEq, Repr

/-- A team barrier (R350). -/
structure TeamBarrier where
  arrived : Nat
  expect : Nat
  mode : BarMode
  phase : Nat
  /-- the arrival that holds the last-arriver role so far (R357) -/
  last : Option ThreadRef
  /-- last arrival cycle of each core in the phase (R367) -/
  finish : List (Nat × Nat)
deriving DecidableEq, Repr

/-- States of a buckle (R236). -/
inductive BuckleState where
  | undeclared
  | declared
  | signing
deriving DecidableEq, Repr

/-- A buckle (R30, R236). -/
structure Buckle where
  st : BuckleState
  count : Nat
  first : Nat
  /-- ranks, from first, that have signed the current round -/
  signed : List Nat
  /-- the fields the first signature of the round fixes -/
  word : Word
  sub : Nat
  d : Nat
  a : Nat
  imm : Nat
  fmode : BitVec 3
  /-- the reservation entry of the round (R243) -/
  entry : Option Nat
deriving DecidableEq, Repr

/-- Blocks reserved for a role in a quarter (R297, R310). -/
structure Budget where
  core : Nat
  quarter : Nat
  role : Nat
  blocks : Nat
deriving DecidableEq, Repr

/-- Places a kernel's team takes on its hub, and a saved form of it (R308). -/
inductive TeamState where
  | resident
  | saving
  | saved
deriving DecidableEq, Repr

/-- One team (R30, R31, R138, R155, R186, R308). -/
structure Team where
  ref : TeamRef
  st : TeamState
  hub : Nat
  /-- physical start and size of the allocation (R138) -/
  hsBase : Nat
  hsSize : Nat
  /-- outstanding-copy counts of lines not at 0: (line, count) (R155) -/
  counts : List (Nat × Nat)
  /-- physical numbers of z0 to z(n-1) (R31) -/
  acc : List Nat
  buckles : Vector Buckle 16
  bars : Vector TeamBarrier 16
  /-- release level L (R186) -/
  level : Nat
  /-- pattern pieces not yet registered, with the thread that released each and its lineage (R183, R186) -/
  pieces : List (Nat × Option ThreadRef × Dword)
  budgets : List Budget
  /-- the late core of the team's previous completion, and the count (R367) -/
  streak : Option (Nat × Nat)
  /-- balance loans: the quarter that gave a step and the one that took it (R367) -/
  loans : List (QRef × QRef)
deriving DecidableEq, Repr

/-- Kernel states (R294). -/
inductive KernelState where
  | posted
  | waiting
  | admitted
  | running
  | draining
  | done
  | faulted
  | killed
deriving DecidableEq, Repr

/-- A role of a launch record (R291). -/
structure RoleRec where
  gangs : Nat
  prio : Nat
  blocks : Nat
  ginit : List (Nat × Word)
deriving DecidableEq, Repr

/-- The 64 bytes of a piece, read into fields (R181). -/
structure Piece where
  src : Dword
  dst : Dword
  tstride : Dword
  ext0 : Nat
  ext1 : Nat
  ext2 : Nat
  spitch1 : Nat
  spitch2 : Nat
  dpitch1 : Nat
  dpitch2 : Nat
  tb : Word
  bytes : Nat
  stage : Nat
  dims : Nat
  toKind : Nat
  fromKind : Nat
  reservedClean : Bool
deriving DecidableEq, Repr

/-- The fields of a launch record (R290). -/
structure LaunchRec where
  entry : Dword
  teams : Nat
  gangs : Nat
  roles : List RoleRec
  det : Bool
  pop : Bool
  iso : Bool
  balance : Bool
  prio : Nat
  hsBytes : Nat
  accCount : Nat
  pvSize : Nat
  pvBase : Dword
  kcBase : Dword
  kcSize : Nat
  kcCopy : Dword
  pieceCount : Nat
  seed : Dword
  cap : Nat
  bintimer : Nat
  part : Nat
  ginitBase : Dword
  pgt : Dword
  frames : Nat
deriving DecidableEq, Repr

/-- A row of the process-group table (R300). -/
structure GroupRow where
  module : Nat
  ncount : Nat
  firstTeam : Nat
  teams : Nat
  neighbours : List Nat
deriving DecidableEq, Repr

/-- State of the resampling collective (R336). -/
inductive RsmpPhase where
  | idle
  | gathering
  /-- every thread has arrived; the move is in the next cycle -/
  | arrived
  | resampling
deriving DecidableEq, Repr

/-- A copy that a resample forms (R341): the parent as it arrived, the new rank, the copy's index, the parent's
first rank and count, and its gang's registers. -/
structure CloneRec where
  parent : Thread
  regs : Vector Word 128
  /-- the poisoned ones among them (R157) -/
  regsPoison : List Nat
  rank : Nat
  copy : Nat
  first : Nat
  count : Nat
deriving DecidableEq, Repr

/-- A place reserved for a population (R332): its number, its slot, its scratch range's start, its accumulators and
the extended blocks it reserves in the slot's quarter. -/
structure PlaceRec where
  num : Nat
  hub : Nat
  core : Nat
  quarter : Nat
  slot : Nat
  hsBase : Nat
  acc : List Nat
  blocks : Nat
deriving DecidableEq, Repr

/-- A module's share that has arrived at a grid barrier, with its highest grid rank, and whether it has ended (R365). -/
structure GridShare where
  module : Nat
  high : Dword
  ended : Bool
deriving DecidableEq, Repr

/-- One kernel (R281, R290 to R295, R304, R336, R364). -/
structure Kernel where
  /-- creation number: the model's key of the kernel -/
  kid : Nat
  st : KernelState
  ctx : Nat
  queue : Nat
  /-- the ring slot's CORR, DONECTR and DONEVAL (R281) -/
  corr : Dword
  donectr : Dword
  doneval : Dword
  record : Dword
  knum : Word
  launch : Option LaunchRec
  pieces : List Piece
  group : List GroupRow
  /-- index of this module's row in the group; its first team and team count -/
  share : Nat
  postedAt : Nat
  /-- next team of each virtual hub not yet dispatched (R298) -/
  nextTeam : List (Nat × Nat)
  dispatched : Nat
  /-- one more than the cycle of the last dispatch; 0: none -/
  lastDispatch : Nat
  ended : Nat
  killed : Bool
  faulted : Bool
  cause : Nat
  /-- hubs that ran it (R148, R304) -/
  hubs : List Nat
  /-- energy in femtojoules (R420) -/
  energy : Nat
  /-- the first `rsmp` has happened (R29) -/
  resampled : Bool
  rsmp : RsmpPhase
  /-- the copies of the resample in progress, and ANYBAD of R341 -/
  plan : List CloneRec
  anyBad : Bool
  places : List PlaceRec
  /-- module shares arrived at the open `gridsync` (R364, R365) -/
  shares : List GridShare
  gridsyncs : Nat
  /-- every share of the group had ended at the last one: no further one opens -/
  closed : Bool
  /-- code words fetched so far, by virtual address, that the device may go on using (R293) -/
  fetched : List (Nat × Word)
  /-- the release of R148 at the kernel's end has begun, and runs on these hubs (R304) -/
  ending : Bool
  endRel : List Nat
  /-- the admission's place among admissions, its cycle (R298), and the token of its acquire (R218) -/
  admitOrder : Nat
  admittedAt : Nat
  acqTok : Nat
  /-- a queue reset met it in DRAINING: its completion sets bit 63 (R288) -/
  reset : Bool
  /-- the cycle of its move to DRAINING, and the cause of a kill that the end of the cycle carries out (R294) -/
  drainAt : Option Nat
  killing : Option Nat
  /-- its completion is not yet written: whether with bit 63 (R284) -/
  due : Option Bool
deriving DecidableEq, Repr

/-! ## Accesses and messages -/

/-- Where a translated address lies (R370): this module, another module, host memory. -/
inductive Place where
  | here
  | module (m : Nat)
  | host
deriving DecidableEq, Repr

/-- What an access does at the point where it is performed. -/
inductive AccOp where
  | load
  | store (data : List Byte)
  /-- operation, type and operands of R170 -/
  | atomic (op ty : Nat) (x y : Dword) (mode : Rnd)
  /-- `tb.init`, `tb.arr` or `tb.exp` with its operand (R361) -/
  | trans (op x : Nat)
  | prefetch (l2 : Bool)
deriving DecidableEq, Repr

/-- One access of a thread from issue to the return of its result. -/
structure Access where
  tok : Nat
  thread : ThreadRef
  hub : Nat
  core : Nat
  quarter : Nat
  /-- space code of R136 -/
  space : Nat
  /-- effective address: `gl` virtual, or the offset in the space -/
  ea : Nat
  /-- address the access is performed at: module physical, window byte, or host address -/
  pa : Nat
  place : Place
  size : Nat
  /-- the virtual address that was translated, and its context (R373) -/
  va : Nat
  ctx : Nat
  op : AccOp
  /-- type code for the result's extension; none: no result -/
  result : Option Nat
  ord : Nat
  scope : Nat
  rmt : Bool
  rep : Bool
  /-- a tack load, and whether it degrades (R197, R202) -/
  tack : Bool
  degraded : Bool
  /-- the page is mapped as I/O (R172) -/
  io : Bool
  /-- the thread's lineage and the instruction's address and word 0, for a late MEM_ERROR (R61, R270) -/
  lineage : Dword
  pc : Dword
  word0 : Word
  /-- the cycle in which it issued (R415) -/
  issued : Nat
  /-- the lease end of the translation it goes through (R377); a scratch access has none -/
  lease : Nat
deriving DecidableEq, Repr

/-- What a unit of the module writes for, so that its end can be awaited. -/
inductive UnitJob where
  | other
  /-- the constant-bank copy of a kernel (R295) -/
  | bank (kernel : Nat)
  /-- the private frames that a resample copies (R346) -/
  | frames (kernel : Nat)
  /-- fault records of a context (R269) -/
  | record (ctx : Nat)
  /-- headers, trailers and trace records that a packet or a reset of a queue awaits (R282, R288) -/
  | queue (queue : Nat)
  /-- the ring write of `qpost` (R287) -/
  | post (thread : ThreadRef) (tok : Nat)
deriving DecidableEq, Repr

/-- What changes a counter: the SIGNAL of a queue, or the completion of a kernel that a queue launched (R282, R284). -/
inductive CounterJob where
  | signal (queue : Nat)
  | completion (queue : Nat)
deriving DecidableEq, Repr

/-- Who waits for a home access. -/
inductive Back where
  | none
  /-- a write of a unit of the module, and where it lies -/
  | unit (job : UnitJob) (place : Place)
  /-- a read of a unit of the module: the queue whose packet or WAIT counter it reads, and where it lies (R279, R284) -/
  | unitRead (queue : Nat) (place : Place)
  /-- an L1 fill of a hub; the request's number names it (R150) -/
  | fill (hub : Nat) (place : Place)
  /-- a thread access performed at the home -/
  | access (a : Access)
  /-- a write-back of a sector, with the release records that wait for it -/
  | writeBack (hub : Nat) (place : Place) (line sector : Nat)
  /-- a source read of a copy of the hub -/
  | copyRead (hub copy : Nat)
  /-- a destination sector of a copy of the hub -/
  | copyWrite (hub copy : Nat)
  /-- the host's non-posted request -/
  | host (tag : Nat)
  /-- another module's request -/
  | fabric (src tag : Nat)
  /-- a change of a counter (R282, R284): what changes it, where the counter lies, its context and address, and whether bit 63
  is to be set too -/
  | counter (job : CounterJob) (place : Place) (ctx va : Nat) (failed : Bool)
deriving DecidableEq, Repr

/-- What an access asks of a home slice (R152, R214). -/
inductive HomeOp where
  | line
  | read
  /-- the bytes, the version they carry (R192), and whether the unit is poisoned (R157) -/
  | write (bytes : List (Nat × Byte)) (carried : Option (BitVec 16)) (poisoned : Bool)
  | atomic (op ty : Nat) (x y : Dword) (mode : Rnd)
  /-- bring the line into the slice only (R174) -/
  | touch
deriving DecidableEq, Repr

/-- A request at, or on its way to, a home slice. -/
structure HomeReq where
  id : Nat
  /-- link of R153: 0 to 7 the die, 8 and 9 the I/O dies -/
  link : Nat
  hub : Nat
  pa : Nat
  size : Nat
  op : HomeOp
  back : Back
  rmt : Bool
  /-- the requester wants a replica in its die's replica slice, for its kernel (R154) -/
  replica : Option (Nat × Nat)
deriving DecidableEq, Repr

/-- A tack check on its way (R194). -/
structure TackMsg where
  hub : Nat
  core : Nat
  tok : Nat
  pa : Nat
  /-- the virtual address and its context; 64 for a check of another module -/
  va : Nat
  ctx : Nat
  tag : BitVec 16
  version : BitVec 16
deriving DecidableEq, Repr

/-- The data of a line with what a fill carries (R192). -/
structure LineData where
  sectors : Vector (BitVec 256) 4
  tag : BitVec 16
  versions : Vector (BitVec 16) 4
  poison : BitVec 4
deriving DecidableEq, Repr

/-- A record of a merge-table entry: the threads of one gang in one packet at their pc, or a copy (R374), or an access
whose lease ended before its transfer began (R377). -/
inductive TlbWaiter where
  | packet (ts : List ThreadRef) (pc : Dword)
  | copy (hub id : Nat)
  | access (a : Access)
deriving DecidableEq, Repr

/-- What a requester needs of a page (R374). -/
structure Need where
  r : Bool
  w : Bool
  x : Bool
deriving DecidableEq, Repr

/-- A record with its core and its need. -/
structure MergeWaiter where
  core : Nat
  who : TlbWaiter
  need : Need
deriving DecidableEq, Repr

/-- What a message in flight brings when it is due. -/
inductive Msg where
  /-- a result, or the poisoned unit with the instruction's address and word 0 (R157) -/
  | result (t : ThreadRef) (tok : Nat) (value : List Word) (poisoned : Option (Nat × Dword × Word))
  | home (r : HomeReq)
  | notice (hub pa : Nat)
  | check (c : TackMsg)
  | tackReply (hub core tok : Nat) (confirm : Bool)
  /-- the fill that request req asked for -/
  | l1Fill (hub : Nat) (place : Place) (line req : Nat) (d : LineData)
  | wbAck (hub : Nat) (place : Place) (line sector : Nat) (version : Option (BitVec 16))
  /-- the acknowledgement of a write of module src goes to its port (R192) -/
  | fabricAck (src tag : Nat) (version : Option (BitVec 16))
  /-- a replica on its way to a replica slice, for a kernel (R154) -/
  | replicaFill (slice line kid : Nat) (d : LineData)
  | accessAck (a : Access) (value : List Byte) (version : Option (BitVec 16)) (poisoned : Option Nat)
  | l2Fill (slice line : Nat)
  | promoteReq (home req hub : Nat)
  | promoteAck (home req hub : Nat)
  | invAck (home line die : Nat)
  | preempt (hub core quarter : Nat) (set : HaltSet) (why : HaltWhy)
  | copyData (hub copy : Nat) (bytes : List Byte) (poisoned : Option Nat)
  | copyLanded (hub copy : Nat)
  /-- a second-level lookup ends (R372) -/
  | probe (hub ctx va : Nat) (w : MergeWaiter)
  /-- a prefetch at the second-level translation cache (R174, R372) -/
  | pfProbe (a : Access)
  | rsmpDone (kernel : Nat)
deriving DecidableEq, Repr

/-- A message in flight (R19, R456). -/
structure Flight where
  id : Nat
  due : Nat
  msg : Msg
deriving DecidableEq, Repr

/-! ## Hubs -/

/-- One sector of an L1 line (R148, R162, R192, R213). -/
structure L1Sector where
  data : BitVec 256
  /-- bytes the hub's stores wrote since the sector was last clean (R213) -/
  mask : BitVec 32
  version : Option (BitVec 16)
  /-- marked waiting by a release access (R162) -/
  waiting : Bool
  poison : Bool
deriving DecidableEq, Repr

/-- A line in an L1 slice (R146, R149). -/
structure L1Line where
  place : Place
  pa : Nat
  way : Nat
  classM : Bool
  /-- none for a `kc` line, which carries no generation (R149) -/
  gen : Option Nat
  tag : BitVec 16
  sectors : Vector L1Sector 4
  /-- the virtual address and context it was filled for (R381) -/
  va : Nat
  ctx : Nat
  use : Nat
deriving DecidableEq, Repr

/-- A line the hub has sent a fill for, with the accesses that wait (R147, R149). -/
structure FillWait where
  place : Place
  line : Nat
  sent : Bool
  classM : Bool
  /-- the generation it was sent under, and the number of its request; the answer to another is dropped (R150, R151) -/
  gen : Nat
  req : Nat
  /-- a replica may answer it (R154) -/
  rep : Bool
  /-- with the generation each waited under (R150) -/
  waiters : List (Nat × Access)
deriving DecidableEq, Repr

/-- A write-back of the hub not yet acknowledged (R147), with the releases that wait for it. -/
structure WriteBack where
  place : Place
  line : Nat
  sector : Nat
  count : Nat
deriving DecidableEq, Repr

/-- What continues when a release has completed (R148, R162, R173, R218). -/
inductive RelCont where
  /-- the thread's next instruction has its release part done -/
  | thread (t : ThreadRef)
  | fence (t : ThreadRef) (tok : Nat)
  | access (a : Access)
  | promote (home req : Nat)
  | kernelEnd (kernel : Nat)
deriving DecidableEq, Repr

/-- A release write-back in progress (R148). -/
structure Release where
  id : Nat
  /-- the set is taken at the end of this cycle -/
  at_ : Nat
  taken : Bool
  waits : List (Place × Nat × Nat)
  cont : RelCont
deriving DecidableEq, Repr

/-- A bump waiting for the write-backs of a flash (R151). -/
structure Flash where
  classM : Bool
  waits : List (Place × Nat × Nat)
deriving DecidableEq, Repr

/-- A bump an acquire asks for, in the order they were asked (R150, R151). -/
structure BumpReq where
  /-- none: asked for by a kernel's admission or a resample (R218, R346) -/
  thread : Option ThreadRef
  tok : Nat
  classD : Bool
  classM : Bool
deriving DecidableEq, Repr

/-- A range in the range-lock table (R177). Units of `lo` and `hi` are bytes, hi exclusive. -/
structure RangeLock where
  id : Nat
  /-- registered for copy or operation of this number -/
  owner : Nat
  team : TeamRef
  ctx : Nat
  /-- in the scratchpad (physical), or `gl` (virtual) -/
  hs : Bool
  lo : Nat
  hi : Nat
  dest : Bool
  /-- the cycle of its release, to whose end it applies (R178) -/
  ended : Option Nat := none
deriving DecidableEq, Repr

/-- A translation (R371, R372). -/
structure Tlb where
  ctx : Nat
  vbase : Nat
  logSize : Nat
  place : Place
  pbase : Nat
  r : Bool
  w : Bool
  x : Bool
  u : Bool
  gen : BitVec 8
  leaseEnd : Nat
  use : Nat
deriving DecidableEq, Repr

/-- A registered or waiting copy (R183, R184). -/
structure Copy where
  id : Nat
  team : TeamRef
  ctx : Nat
  kernel : Nat
  piece : Piece
  /-- posting or releasing thread, and the pc of the posting instruction (R189) -/
  by_ : Option ThreadRef
  /-- where that thread stands (R269) -/
  core : Nat
  quarter : Nat
  lineage : Dword
  pc : Dword
  /-- tokens of the thread's copy-read and copy-write operations (R172) -/
  tokRead : Nat
  tokWrite : Nat
  /-- on the queue; a held copy waits without registering -/
  registered : Bool
  /-- posted by `dcopy` -/
  dynamic : Bool
  /-- source bytes received, and destination sectors landed -/
  readPos : Nat
  landPos : Nat
  /-- a source read is outstanding; the sectors of the destination write that is, 0: none -/
  asked : Bool
  writing : Nat
  /-- bytes received and not yet written -/
  buffer : List Byte
  /-- the engine waits for a translation, or its page was denied -/
  waiting : Bool
  denied : Bool
  /-- the translations of the source and the destination page it works through (R373, R377) -/
  srcPage : Option Tlb
  dstPage : Option Tlb
  /-- cycle at which the start-up of a copy at the head of the queue ends (R456) -/
  startAt : Option Nat
deriving DecidableEq, Repr

/-- Operation kinds of the reservation table (R243, R251). -/
inductive EngineOp where
  | mma
  | mzero
  | mldScratch
  | mldRegs
  | mstScratch
  | mstRegs
  | mcvt
  | qblk
deriving DecidableEq, Repr

/-- A staged row of a signature (R241): side, row, codes as words. -/
structure StagedRow where
  sideB : Bool
  row : Nat
  words : List Word
deriving DecidableEq, Repr

/-- A scratch descriptor read into fields (R230). -/
structure Desc where
  base : Nat
  rpitch : Nat
  rot : Nat
  tpitch : Nat
deriving DecidableEq, Repr

/-- An entry of the reservation table (R242, R243). -/
structure Reservation where
  entry : Nat
  /-- posting sequence number, and whether it has been posted -/
  seq : Nat
  posted : Bool
  /-- its place among the held operations and copies of the hub (R177) -/
  order : Nat
  /-- its range locks and line counts are registered (R177, R254) -/
  locked : Bool
  team : TeamRef
  op : EngineOp
  prio : Nat
  /-- team accumulator number -/
  z : Nat
  passes : Nat
  granted : Nat
  /-- passes whose operands the fetch unit has delivered -/
  fetched : Nat
  word : Word
  rnd : Rnd
  ty : Nat
  scale : Int
  /-- the A operand of `mma`, or the tile of an accumulator operation -/
  descA : Option Desc
  descB : Option Desc
  scaleOff : Nat
  rows : List StagedRow
  /-- first row of the register side and column block (R251) -/
  rowBase : Nat
  colBlock : Nat
  stream : Stream
  /-- threads and tokens of an `mst` with thread-register destinations -/
  readers : List (ThreadRef × Nat)
  /-- threads and tokens of matrix reads and writes (R172) -/
  reads : List (ThreadRef × Nat)
  writes : List (ThreadRef × Nat)
  /-- tiles fetched for passes not yet granted: side, pass, rows -/
  tiles : List (Bool × Nat × List (List Byte))
  /-- the posting thread, where it stands, its lineage and its instruction, for a late MEM_ERROR (R257, R269) -/
  by_ : ThreadRef
  core : Nat
  quarter : Nat
  lineage : Dword
  pc : Dword
  word0 : Word
deriving DecidableEq, Repr

/-- An entry of the operand cache (R247): base is physical, rpitch in bytes. -/
structure OperandTile where
  team : TeamRef
  base : Nat
  rpitch : Nat
  rot : Nat
  rowBytes : Nat
  og : BitVec 8
  rows : List (List Byte)
  use : Nat
deriving DecidableEq, Repr

/-- A running fetch, pass or port operation of the matrix engine (R245): its entry, side and pass, the cycle it
started (none: it waits for presence), the generation then current, whether it hit, and the rows read. -/
structure EngineRun where
  entry : Nat
  sideB : Bool
  pass : Nat
  start : Option Nat
  og : BitVec 8
  hit : Bool
  rows : List (List Byte)
  /-- cycles that the pass or the port operation takes -/
  cycles : Nat := 8
deriving DecidableEq, Repr

/-- A spawned thread in a bin (R320, R321). -/
structure BinThread where
  args : List Word
  counter : Option Nat
  lineage : Dword
  /-- a debug halt holds it (R305) -/
  halt : Halt
deriving DecidableEq, Repr

/-- One bin (R321). -/
structure Bin where
  num : Nat
  team : TeamRef
  role : Nat
  entry : Dword
  threads : List BinThread
  since : Nat
  expired : Bool
deriving DecidableEq, Repr

/-- An entry of the merge table (R374, R375). -/
structure MergeRec where
  req : Nat
  ctx : Nat
  page : Nat
  need : Need
  records : List MergeWaiter
  /-- requesters parked on the overflow, in arrival order -/
  overflow : List MergeWaiter
  /-- a Page Request has been asked for by the entry -/
  paged : Bool
  /-- its translation request is outstanding (R374, R379) -/
  asking : Bool
  gen : BitVec 8
deriving DecidableEq, Repr

/-- A store the forwarding table of a quarter holds (R143). -/
structure Forward where
  tok : Nat
  thread : ThreadRef
deriving DecidableEq, Repr

/-- One tack entry (R193). -/
structure TackEntry where
  thread : ThreadRef
  tok : Nat
  /-- the physical sector, and the virtual address and context it was reached by -/
  place : Place
  pa : Nat
  va : Nat
  ctx : Nat
  tag : BitVec 16
  version : BitVec 16
  issued : Nat
  /-- taken on a miss: confirmed by the fill (R195) -/
  byFill : Bool
deriving DecidableEq, Repr

/-- An entry of the sampling table (R416): the access, whether it found a stale line, the cycle in which it completed, and the
cycles it has waited at its L1 slice and at its L2 slice. -/
structure SampleEntry where
  index : Nat
  acc : Access
  stale : Bool
  finish : Option Nat
  l1 : Nat
  l2 : Nat
deriving DecidableEq, Repr

/-- One core (R193, R372): its tack table and first-level translation cache. -/
structure Core where
  tacks : List TackEntry
  tlb : List Tlb
deriving DecidableEq, Repr

/-- A hub's shared units. A hub that is not listed is `Hub.fresh`. -/
structure Hub where
  hub : Nat
  cd : Nat
  cm : Nat
  flash : Option Flash
  bumps : List BumpReq
  l1 : List L1Line
  fills : List FillWait
  writeBacks : List WriteBack
  releases : List Release
  /-- packets of accesses waiting in each core's port, oldest first (R167): (core, accesses) -/
  ports : List (Nat × List Access)
  /-- accesses that wait for a write-back acknowledgement or a waiting sector -/
  held : List Access
  /-- `hs` loads parked on absence (R156) -/
  absent : List Access
  locks : List RangeLock
  copies : List Copy
  reservations : List Reservation
  postSeq : Nat
  operands : List OperandTile
  og : BitVec 8
  fetch : Option EngineRun
  pass : Option EngineRun
  port : Option EngineRun
  bins : List Bin
  tlb2 : List Tlb
  merges : List MergeRec
  /-- requests waiting while the merge table is full (R374) -/
  mergeQueue : List MergeWaiter
  cores : Vector Core 4
  samples : List SampleEntry
  sampleCount : Nat
  samplePeriod : Nat
  /-- joins waiting on a counter: thread, token, `hs` window address (R325) -/
  joins : List (ThreadRef × Nat × Nat)
deriving DecidableEq, Repr

/-- One quarter (R21, R143, R318, R425). -/
structure Quarter where
  q : QRef
  /-- cadence in effect -/
  cadence : Nat
  /-- the planner's grant, to which the loans are applied (R423) -/
  granted : Nat
  /-- a cadence that takes effect at the next window -/
  pending : Option Nat
  /-- the `sys cad` request, and the kernel that made it -/
  request : Nat
  requestBy : Option Nat
  /-- numbers the restored `xacq` requests -/
  xacqSeq : Nat
  forwards : List Forward
deriving DecidableEq, Repr

/-! ## L2, contexts, queues, traces -/

/-- A line in an L2 slice (R153, R154, R191, R221, R457). -/
structure L2Line where
  slice : Nat
  pa : Nat
  way : Nat
  home : Bool
  tag : BitVec 16
  versions : Vector (BitVec 16) 4
  sectors : Vector (BitVec 256) 4
  dirty : BitVec 4
  poison : BitVec 4
  writer : Option Nat
  multi : Bool
  /-- dies whose replica slice may hold a copy (R154) -/
  replicas : BitVec 8
  /-- kernel that placed a replica (R154) -/
  placedBy : Option Nat
  /-- per sector, 1 + the cycle of the last write and the acknowledgement it sent (R191, R192) -/
  wrote : Vector Nat 4
  ackId : Vector Nat 4
  use : Nat
deriving DecidableEq, Repr

/-- A request a home slice holds until something completes. -/
inductive HeldWhy where
  | fill
  | promote (waits : List Nat)
  | invalidate (dies : List Nat)
  | migrating
  /-- a copy of the requester's hub has registered the bytes it writes (R224) -/
  | locked
  /-- an earlier request for the line is held (R142) -/
  | behind
  /-- it reaches the line with the next cycle's arrivals (R214) -/
  | ready
deriving DecidableEq, Repr

/-- A request that its slice holds, and why. -/
structure HeldReq where
  slice : Nat
  why : HeldWhy
  req : HomeReq
deriving DecidableEq, Repr

/-- A fill of a slice that waits until the replicas of the home line it evicts are invalidated (R457); placed: the
kernel and the data of a replica. -/
structure Eviction where
  slice : Nat
  line : Nat
  victim : Nat
  dies : List Nat
  placed : Option (Nat × LineData)
deriving DecidableEq, Repr

/-- A breakpoint of a debug session (R274). -/
structure Breakpoint where
  slot : Nat
  addr : Dword
deriving DecidableEq, Repr

/-- A saved team: its records as they were written (R255, R271, R330). Scratch bytes, accumulators and core-scratch
frames stand in the team's own order, and poison names units of them. -/
structure SavedTeam where
  /-- its place in the save area -/
  at_ : Nat
  team : Team
  gangs : List Gang
  threads : List Thread
  reservations : List Reservation
  copies : List Copy
  locks : List RangeLock
  absent : List Access
  /-- joins with the scratch offset of their counter -/
  joins : List (ThreadRef × Nat × Nat)
  scratch : List Byte
  accs : List Byte
  frames : List Byte
  /-- 64-bit units with an uncorrectable error: 0 scratch, 1 accumulators, 2 frames, and the unit's place there -/
  poison : List (Nat × Nat)
  /-- bins of the team; since: the cycles that had passed -/
  bins : List Bin
deriving DecidableEq, Repr

/-- A trace session (R289, R414). -/
structure Trace where
  id : Nat
  buffer : Dword
  size : Nat
  mask : Word
  records : Nat
  dropped : Nat
  corr : Dword
  queue : Nat
deriving DecidableEq, Repr

/-- A measured span (R409 to R411). -/
structure Span where
  buffer : Dword
  size : Nat
  records : Nat
  dropped : Nat
  /-- the write sum of R411 -/
  sum : Dword
  /-- the stamp log has set OVF while the span is open -/
  horizon : Bool
deriving DecidableEq, Repr

/-- An Invalidate Request not yet completed (R378, R379). -/
structure Invalidate where
  itag : Nat
  gen : BitVec 8
  /-- 0 before its bump, else one more than the cycle of the bump -/
  since : Nat
  /-- the last lease end of the translations installed before the bump, and the translation requests outstanding at it -/
  ends : Nat
  reqs : List Nat
deriving DecidableEq, Repr

/-- Context states (R260). -/
inductive CtxState where
  | free
  | active
  | saving
  | saved
  | restoring
  | draining
deriving DecidableEq, Repr

/-- A debug halt of a set (R274, R328): the cycle of its request, and the sets resumed since. It also halts the threads of
the set that are formed after it has reached their quarter. -/
structure DebugHalt where
  set : HaltSet
  since : Nat
  resumed : List HaltSet
deriving DecidableEq, Repr

/-- One context (R258, R260, R274, R378, R424). Context n of the list has num = n. -/
structure Context where
  num : Nat
  st : CtxState
  err : Nat
  handler : Dword
  hen : Bool
  fqbase : Dword
  fqlog2 : Nat
  fqh : Bool
  fqtail : Nat
  /-- FQTAIL in the descriptor stands behind: the record is not yet visible (R269, R459) -/
  tailDue : Bool
  fqhead : Nat
  drops : Word
  kcount : Word
  ovf : Bool
  fqwritten : Nat
  priv : Bool
  dbg : Bool
  /-- FLAGS [1] has been cleared by a host write of this cycle (R275, R459) -/
  revoke : Bool
  pasid : Nat
  eshare : Nat
  pmask : Nat
  savebase : Dword
  savesize : Dword
  heldDestroy : Bool
  gen : BitVec 8
  /-- LAST of R378: entries that are not NONE -/
  last : List (Nat × Nat)
  bumpWaits : Bool
  /-- the last lease end of the context's translations (R377, R379) -/
  lastLease : Nat
  invalidates : List Invalidate
  saved : List SavedTeam
  session : Bool
  breakpoints : List Breakpoint
  takebrk : Bool
  halts : List DebugHalt
  edits : List (ThreadRef × EditWhat)
  epochEnergy : Nat
  span : Option Span
  traces : List Trace
deriving DecidableEq, Repr

/-- Queue states (R278). -/
inductive QueueState where
  | disabled
  | idle
  | active
  | blocked
  | error
  | resetting
deriving DecidableEq, Repr

/-- One queue (R277, R278, R282 to R284). -/
structure Queue where
  num : Nat
  st : QueueState
  err : Nat
  ringbase : Dword
  ringlog2 : Nat
  prio : Nat
  ctx : Nat
  devpost : Bool
  head : Nat
  tail : Nat
  /-- the packet begun and not retired (R282) -/
  begun : Option (List Byte)
  /-- one more than the cycle of the last beginning; 0: none (R283) -/
  begunAt : Nat
  /-- the cycles in which a WAIT's counter is to be read again (R284) -/
  notified : List Nat
  /-- the write of a begun SIGNAL has been performed (R282) -/
  performed : Bool
  /-- the number of a read of the ring or of a WAIT's counter that is on its way in another owner's memory, and its answer
  (R279, R284) -/
  asked : Option Nat
  answer : Option (List Byte)
deriving DecidableEq, Repr

/-- State of a link port (R394). -/
structure LinkPort where
  num : Nat
  st : Nat
  width : Nat
  rate : Nat
  errcnt : Nat
  paused : Bool
  /-- the port has told its partner to pause (R393) -/
  pausing : Bool
  held : List Arrival
  /-- cycles of the latest link-level retries (R394) -/
  retries : List Nat
deriving DecidableEq, Repr

/-- Registers of an Ethernet port (R395). -/
structure EthPort where
  num : Nat
  owner : Nat
  rxdrop : Nat
  rxbase : Dword
  rxlog2 : Nat
  rxhead : Nat
  rxtail : Nat
  txbase : Dword
  txlog2 : Nat
  txhead : Nat
  txtail : Nat
  /-- the cycle in which the frame on the wire has left -/
  sendAt : Option Nat
deriving DecidableEq, Repr

/-- The move in progress (R384): its region, the ranges where the region lies (owner, address and length), and whether it has
drained. -/
structure Move where
  ctx : Nat
  region : Nat
  phys : List (Place × Nat × Nat)
  /-- the class under which the region was reached at the begin (R386) -/
  cls : Option (Place × Bool)
  drained : Bool
deriving DecidableEq, Repr

/-- An entry of the move history (R385): key, and the end cycles of the last two moves, newer first. -/
structure MoveEntry where
  ctx : Nat
  region : Nat
  newer : Nat
  older : Option Nat
deriving DecidableEq, Repr

/-- A region counter (R381). -/
structure RegionCounter where
  index : Nat
  ctx : Nat
  region : Nat
  reads : Nat
  writes : Nat
deriving DecidableEq, Repr

/-- Region registers and counters of the page unit (R381 to R385). -/
structure PageUnit where
  pgmvaddr : Dword
  err : Nat
  ctx : Nat
  hintbase : Dword
  hinten : Bool
  hintthr : Nat
  hinthead : Word
  hinttail : Word
  hintdrop : Word
  counters : List RegionCounter
  history : List MoveEntry
  move : Option Move
  /-- SETTLED regions: context, region, the cycle that ends the state, and the class it was refused under: the owner, and
  whether it is FORWARDED (R385, R386) -/
  settled : List (Nat × Nat × Nat × Option (Place × Bool))
  /-- requesters that wait for the move to end, with their hubs (R384) -/
  waiting : List (Nat × MergeWaiter)
  /-- Page Requests that the host's allocation allows outstanding (R369) -/
  priAlloc : Nat
  /-- translation requests whose Page Request waits for that, oldest first -/
  priQueue : List Nat
  /-- invalidations of a PASID that no context has: ITag and PASID (R379) -/
  orphans : List (Nat × Nat)
deriving DecidableEq, Repr

/-- The stamp log's registers and window (R398, R399). -/
structure StampLog where
  mode : Nat
  ovf : Bool
  base : Dword
  size : Dword
  head : Dword
  tail : Dword
  horizon : Dword
  refused : Dword
  outsum : Dword
deriving DecidableEq, Repr

/-- Management registers outside the image (R402 to R405). -/
structure Management where
  stopcyc : Dword
  /-- a write of this cycle has set STOPCYC at or below it (R404) -/
  stopnow : Bool
  frzerr : Nat
  frzst : Nat
  memimg : Bool
  imgbase : Dword
  imgsize : Dword
  imgused : Dword
  elogbase : Dword
  elogsize : Word
  eloghead : Word
  elogtail : Word
  elogdrop : Word
  /-- event selectors of the counters, outside the image (R412, R413) -/
  csel : Nat
deriving DecidableEq, Repr

/-- A fault record of the current cycle (R269, R270): its place in the order, and its fields. -/
structure RecordReq where
  key : List Nat
  ctx : Nat
  kernel : Nat
  pc : Dword
  addr : Dword
  lineage : Dword
  corr : Word
  team : Word
  knum : Word
  gang : Nat
  lane : Nat
  cause : Nat
  fatal : Bool
  nested : Bool
  isolated : Bool
  detail : Nat
  word0 : Word
  /-- the cycle of the detection (R270) -/
  cycle : Nat
deriving DecidableEq, Repr

/-- A trace record of the current cycle (R414, R415): its place in the order, its context, the mask bit of its
source, and its fields. -/
structure TraceReq where
  key : List Nat
  ctx : Nat
  bit : Nat
  src : Nat
  pc : Dword
  lineage : Dword
  corr : Word
  team : Word
  knum : Word
  gang : Nat
  lane : Nat
  data0 : Word
  data1 : Dword
  data2 : Dword
  /-- the cycle of the event (R415) -/
  cycle : Nat
deriving DecidableEq, Repr

/-- A packet that goes on at a cycle with the instruction at its pc; with fetch its threads become READY instead (R375). -/
structure Resume where
  at_ : Nat
  threads : List ThreadRef
  pc : Dword
  fetch : Bool
  /-- the page whose translation was DENIED (R376) -/
  denied : Option Nat
deriving DecidableEq, Repr

/-- The module: what an image holds (R406). -/
structure Module where
  cycle : Nat
  phase : Nat
  agenda : List (Instr × Event)
  /-- packets that go on in a later cycle without a picker tick (R372, R375) -/
  resumes : List Resume
  /-- quarters whose issue tick of this cycle is done, and whether the registrations that its packets so far ask for are
  (R21, R183) -/
  ticked : List QRef
  registered : Bool
  /-- operands of the event the next exec of an event acts on -/
  ev : Event
  packet : List ThreadRef
  packetPc : Dword
  packetDenied : Option Nat
  flight : List Flight
  /-- requests on their way to another module or the host, by number -/
  remote : List HomeReq
  /-- tags of the non-posted requests outstanding at the host port, with the requests' numbers, and the requests that wait
  for a tag (R389) -/
  hostTags : List (Nat × Nat)
  hostQueue : List Nat
  /-- fault and trace records of the cycle, with their order keys (R269, R415) -/
  records : List RecordReq
  traces : List TraceReq
  /-- phases of barriers as they stood before the updates of this cycle (R355, R363) -/
  before : List (List Nat × Nat)
  nextId : Nat
  free : Nat
  threads : List Thread
  gangs : List Gang
  teams : List Team
  kernels : List Kernel
  nextKid : Nat
  /-- grid arrivals of other modules for which no kernel stands yet, with their CORR (R365) -/
  early : List (Nat × GridShare)
  hubs : List Hub
  quarters : List Quarter
  win : List Host.Cell
  winPoison : List Nat
  l2 : List L2Line
  l2held : List HeldReq
  evictions : List Eviction
  fillCtr : List (Nat × BitVec 16)
  contexts : Vector Context 64
  queues : List Queue
  qtbase : Dword
  page : PageUnit
  links : List LinkPort
  eth : List EthPort
  domofs : Dword
  domdly : Dword
  refmod : Nat
  alignSent : Option Dword
  debugRegs : List Host.Cell
  pwrbud : Nat
  grant : Nat
  tcap : Nat
  eprev : Dword
  seq : Dword
  bar0 : Dword
  bar2 : Dword
  bar4 : Dword
  ctxbase : Dword
  layout : List Nat
  nextLayout : List Nat
  /-- 0 in reset, 1 running, 2 halted in bring-up, 3 held in reset by its pin (R428, R429) -/
  bringUp : Nat
  failing : Nat
deriving DecidableEq, Repr

/-- What waits at a port, with the cycle at which it reaches the gate (R396); other: a happening that is not an
item, such as a reset, an error of an array or a retry on a link. -/
structure InboxItem where
  at_ : Nat
  item : Arrival
  other : Option (Instr × Event)
deriving DecidableEq, Repr

/-- An image a scan wrote (R406, R407): where its header was written, the module, the items its ports held, and the HBM4
contents and poison when MEMIMG. -/
structure Image where
  base : Dword
  module : Module
  held : List InboxItem
  memory : Option (List Host.Cell)
  poison : List Nat
deriving DecidableEq, Repr

/-- What the module sends (R399): port and bytes. -/
structure OutItem where
  port : Nat
  cycle : Nat
  bytes : List Byte
deriving DecidableEq, Repr

/-- Where the numbers of the logs' messages begin. -/
abbrev logBase : Nat := 2 ^ 64

/-- The whole machine. -/
structure State where
  m : Module
  /-- HBM4 and the DDR-5 tier by module physical address (R391), in canonical form -/
  mem : List Host.Cell
  /-- the sectors of it with an uncorrectable error, by address (R157) -/
  memPoison : List Nat
  slog : StampLog
  mgmt : Management
  modnum : Nat
  routes : List Host.Cell
  /-- HCNT k of hub h: ((h, k), count) (R402, R412); outside the image (R413) -/
  hcnt : List ((Nat × Nat) × Dword)
  images : List Image
  inbox : List InboxItem
  outbox : List OutItem
  nonce : List Byte
  report : List Byte
  frozen : Bool
  /-- the next number of a message of the stamp log and the error log: they take none of the run's own, so that a replay that logs
  nothing numbers its messages as the recorded run did (R399; log entry 6) -/
  logNext : Nat
deriving DecidableEq, Repr

/-- Reasons the machine stops. -/
inductive Fault where
  /-- Raised by `step`: the bring-up found an image that its check refuses, and the module stays halted
  (R428). Safe: the spec says no further step happens until the next power-on. -/
  | bringUpHalted
deriving DecidableEq, Repr

/-- Reasons an instruction has no meaning. -/
inductive Refusal where
  /-- Raised by an arm of `exec` without a meaning. Safe: the model stops. -/
  | notModelled (mnemonic : String)
deriving DecidableEq, Repr

/-! ## The machine right after reset

Where the spec gives a register no reset value, log entry 1 names the one taken here. -/

/-- A context after reset (R260): FREE. -/
def Context.fresh (n : Nat) : Context where
  num := n
  st := .free
  err := 0
  handler := 0
  hen := false
  fqbase := 0
  fqlog2 := 0
  fqh := false
  fqtail := 0
  fqhead := 0
  drops := 0
  kcount := 0
  ovf := false
  tailDue := false
  fqwritten := 0
  priv := false
  dbg := false
  revoke := false
  pasid := 0
  eshare := 0
  pmask := 0
  savebase := 0
  savesize := 0
  heldDestroy := false
  gen := 0
  last := []
  bumpWaits := false
  lastLease := 0
  invalidates := []
  saved := []
  session := false
  breakpoints := []
  takebrk := false
  halts := []
  edits := []
  epochEnergy := 0
  span := none
  traces := []

/-- A queue after reset (R278): DISABLED. -/
def Queue.fresh (n : Nat) : Queue where
  num := n
  st := .disabled
  err := 0
  ringbase := 0
  ringlog2 := 0
  prio := 0
  ctx := 0
  devpost := false
  head := 0
  tail := 0
  begun := none
  begunAt := 0
  notified := []
  performed := false
  asked := none
  answer := none

/-- The page unit after reset (R382, R383): THR 256, nothing counted, nothing moving. -/
def PageUnit.fresh : PageUnit where
  pgmvaddr := 0
  err := 0
  ctx := 0
  hintbase := 0
  hinten := false
  hintthr := 256
  hinthead := 0
  hinttail := 0
  hintdrop := 0
  counters := []
  history := []
  move := none
  settled := []
  waiting := []
  priAlloc := 0
  priQueue := []
  orphans := []

/-- A link port after reset (R394): DISABLED. -/
def LinkPort.fresh (n : Nat) : LinkPort where
  num := n
  st := 0
  width := 0
  rate := 0
  errcnt := 0
  paused := false
  pausing := false
  held := []
  retries := []

/-- The registers of an Ethernet port after reset (R395). -/
def EthPort.fresh (n : Nat) : EthPort where
  num := n
  owner := 0
  rxdrop := 0
  rxbase := 0
  rxlog2 := 0
  rxhead := 0
  rxtail := 0
  txbase := 0
  txlog2 := 0
  txhead := 0
  txtail := 0
  sendAt := none

/-- The stamp log at power-on (R398). -/
def StampLog.fresh : StampLog where
  mode := 0
  ovf := false
  base := 0
  size := 0
  head := 0
  tail := 0
  horizon := BitVec.allOnes 64
  refused := 0
  outsum := 0

/-- The management registers at power-on (R402, R403). -/
def Management.fresh : Management where
  stopcyc := BitVec.allOnes 64
  stopnow := false
  frzerr := 0
  frzst := 0
  memimg := false
  imgbase := 0
  imgsize := 0
  imgused := 0
  elogbase := 0
  elogsize := 0
  eloghead := 0
  elogtail := 0
  elogdrop := 0
  csel := 0

/-- The module in the cycle in which reset is released, with a partition layout in effect; bring-up is the first
step (R20, R429). -/
def Module.fresh (layout : List Nat) : Module where
  cycle := 0
  phase := 0
  agenda := [(.moduleReset, {})]
  resumes := []
  ticked := []
  registered := false
  ev := {}
  packet := []
  packetPc := 0
  packetDenied := none
  flight := []
  remote := []
  hostTags := []
  hostQueue := []
  records := []
  traces := []
  before := []
  nextId := 1
  free := 0
  threads := []
  gangs := []
  teams := []
  kernels := []
  nextKid := 0
  early := []
  hubs := []
  quarters := []
  win := []
  winPoison := []
  l2 := []
  l2held := []
  evictions := []
  fillCtr := []
  contexts := ⟨((List.range 64).map Context.fresh).toArray, rfl⟩
  queues := []
  qtbase := 0
  page := PageUnit.fresh
  links := (List.range 45).map LinkPort.fresh
  eth := (List.range 8).map fun i => EthPort.fresh (37 + i)
  domofs := 0
  domdly := 0
  refmod := 0
  alignSent := none
  debugRegs := []
  pwrbud := 3000
  grant := 16
  tcap := 16
  eprev := 0
  seq := 0
  bar0 := 0
  bar2 := 0
  bar4 := 0
  ctxbase := 0
  layout := layout
  nextLayout := layout
  bringUp := 0
  failing := 0

/-- The machine right after power-on and the release of reset: one partition of eight dies (log entry 11), and
nothing listed in memory. -/
def State.reset : State where
  m := Module.fresh [8]
  mem := []
  memPoison := []
  slog := StampLog.fresh
  mgmt := Management.fresh
  modnum := 0
  routes := []
  hcnt := []
  images := []
  inbox := []
  outbox := []
  nonce := []
  report := []
  frozen := false
  logNext := logBase

end Sys2Proof.Machine
end

