-- ==== Sys2Proof/Machine/Ops.lean ====
section
/-! DEFINITION. The named operations over memory, the sparse tables of the state, messages and registers. -/

namespace Sys2Proof.Machine

/-! ## Memory in canonical form -/

/-- Byte memory: cells of strictly rising address, none of which holds 0; an unlisted byte reads 0
(log entry 2). -/
abbrev Memory := List Host.Cell

/-- One byte. -/
def Memory.read : Memory → Nat → Byte
  | [], _ => 0
  | (k, b) :: rest, a => if k == a then b else if a < k then 0 else Memory.read rest a

/-- Writes one byte and keeps the canonical form. -/
def Memory.write : Memory → Nat → Byte → Memory
  | [], a, b => if b == 0 then [] else [(a, b)]
  | (k, c) :: rest, a, b =>
    if k == a then (if b == 0 then rest else (k, b) :: rest)
    else if a < k then (if b == 0 then (k, c) :: rest else (a, b) :: (k, c) :: rest)
    else (k, c) :: Memory.write rest a b

/-- n bytes from a, lowest address first. -/
def Memory.readBytes (m : Memory) (a n : Nat) : List Byte := (List.range n).map fun i => m.read (a + i)

/-- Writes a list of bytes from a on. -/
def Memory.writeBytes (m : Memory) (a : Nat) : List Byte → Memory
  | [] => m
  | b :: bs => (m.write a b).writeBytes (a + 1) bs

/-- The canonical form: addresses rise strictly above the bound, and no cell holds 0. -/
def Memory.wfFrom : Nat → Memory → Bool
  | _, [] => true
  | lo, (k, b) :: rest => lo ≤ k && b != 0 && Memory.wfFrom (k + 1) rest
/-- The canonical form. -/
def Memory.wf (m : Memory) : Bool := Memory.wfFrom 0 m

/-! ## Little-endian bytes (R3) -/

/-- The number that bytes hold, lowest first. -/
def natOfBytes : List Byte → Nat
  | [] => 0
  | b :: bs => b.toNat + 256 * natOfBytes bs

/-- n bytes of a number, lowest first. -/
def bytesOfNat : Nat → Nat → List Byte
  | 0, _ => []
  | n + 1, x => BitVec.ofNat 8 x :: bytesOfNat n (x / 256)

def bytesOfWord (w : Word) : List Byte := bytesOfNat 4 w.toNat
def bytesOfDword (x : Dword) : List Byte := bytesOfNat 8 x.toNat
/-- A field of a byte list. -/
def fieldAt (bs : List Byte) (off n : Nat) : Nat := natOfBytes ((bs.drop off).take n)
def wordField (bs : List Byte) (off : Nat) : Word := BitVec.ofNat 32 (fieldAt bs off 4)
def dwordField (bs : List Byte) (off : Nat) : Dword := BitVec.ofNat 64 (fieldAt bs off 8)

/-- The bytes of a sector held as a number. -/
def sectorBytes (x : BitVec 256) : List Byte := bytesOfNat 32 x.toNat
/-- A sector with byte i replaced. -/
def setSectorByte (x : BitVec 256) (i : Nat) (b : Byte) : BitVec 256 :=
  (x &&& ~~~((BitVec.ofNat 256 255) <<< (8 * i))) ||| ((b.zeroExtend 256) <<< (8 * i))
/-- A sector with the listed bytes replaced, from offset i on. -/
def setSectorBytes (x : BitVec 256) (i : Nat) : List Byte → BitVec 256
  | [] => x
  | b :: bs => setSectorBytes (setSectorByte x i b) (i + 1) bs
/-- A sector from 32 bytes. -/
def sectorOfBytes (bs : List Byte) : BitVec 256 := BitVec.ofNat 256 (natOfBytes bs)

/-! ## Keyed lists -/

/-- Replaces the first entry with the key, or adds the value at the end. -/
def putBy {α : Type} (same : α → Bool) (x : α) : List α → List α
  | [] => [x]
  | y :: ys => if same y then x :: ys else y :: putBy same x ys

/-- Changes every entry with the key. -/
def updBy {α : Type} (same : α → Bool) (f : α → α) (l : List α) : List α :=
  l.map fun y => if same y then f y else y

/-- Inserts into a list sorted by a key list, after equals. -/
def insertBy {α : Type} (before : α → α → Bool) (x : α) : List α → List α
  | [] => [x]
  | y :: ys => if before x y then x :: y :: ys else y :: insertBy before x ys

/-- Stable insertion sort. -/
def sortBy {α : Type} (before : α → α → Bool) : List α → List α
  | [] => []
  | x :: xs => insertBy before x (sortBy before xs)

/-- The first failing field of a list of tests. -/
def firstBad (l : List (Bool × Nat)) : Option Nat := (l.find? (·.1)).map (·.2)

/-- Lexicographic order of number lists. -/
def lexLt : List Nat → List Nat → Bool
  | [], [] => false
  | [], _ :: _ => true
  | _ :: _, [] => false
  | a :: as, b :: bs => if a == b then lexLt as bs else a < b

/-- Sorts by a number-list key, keeping the order of equals. -/
def sortKey {α : Type} (key : α → List Nat) (l : List α) : List α :=
  sortBy (fun a b => !(lexLt (key b) (key a))) l

/-- The least of a nonempty list under a key, the earliest on a tie. -/
def leastBy {α : Type} (key : α → List Nat) : List α → Option α
  | [] => none
  | x :: xs => match leastBy key xs with
    | none => some x
    | some y => if lexLt (key y) (key x) then some y else some x

/-! ## Lookups and updates of the state -/

/-- Changes the module. -/
def State.modify (s : State) (f : Module → Module) : State := { s with m := f s.m }

def State.thread? (s : State) (r : ThreadRef) : Option Thread := s.m.threads.find? (·.ref == r)
def State.setThread (s : State) (t : Thread) : State :=
  s.modify fun m => { m with threads := updBy (·.ref == t.ref) (fun _ => t) m.threads }
def State.updThread (s : State) (r : ThreadRef) (f : Thread → Thread) : State :=
  s.modify fun m => { m with threads := updBy (·.ref == r) f m.threads }

def State.gang? (s : State) (r : GangRef) : Option Gang := s.m.gangs.find? (·.ref == r)
def State.updGang (s : State) (r : GangRef) (f : Gang → Gang) : State :=
  s.modify fun m => { m with gangs := updBy (·.ref == r) f m.gangs }
def State.team? (s : State) (r : TeamRef) : Option Team := s.m.teams.find? (·.ref == r)
def State.updTeam (s : State) (r : TeamRef) (f : Team → Team) : State :=
  s.modify fun m => { m with teams := updBy (·.ref == r) f m.teams }
def State.kernel? (s : State) (kid : Nat) : Option Kernel := s.m.kernels.find? (·.kid == kid)
def State.updKernel (s : State) (kid : Nat) (f : Kernel → Kernel) : State :=
  s.modify fun m => { m with kernels := updBy (·.kid == kid) f m.kernels }

/-- The threads of a gang, in lane order as created. -/
def State.gangThreads (s : State) (g : GangRef) : List Thread :=
  s.m.threads.filter fun t => t.ref.gangRef == g
def State.teamThreads (s : State) (r : TeamRef) : List Thread :=
  s.m.threads.filter fun t => t.ref.teamRef == r

/-- The launch record of a kernel. -/
def State.launch? (s : State) (kid : Nat) : Option LaunchRec :=
  match s.kernel? kid with
  | some k => k.launch
  | none => none

def Core.fresh : Core := { tacks := [], tlb := [] }

/-- A hub after reset (R149, R247). -/
def Hub.fresh (h : Nat) : Hub where
  hub := h
  cd := 0
  cm := 0
  flash := none
  bumps := []
  l1 := []
  fills := []
  writeBacks := []
  releases := []
  ports := []
  held := []
  absent := []
  locks := []
  copies := []
  reservations := []
  postSeq := 0
  operands := []
  og := 0
  fetch := none
  pass := none
  port := none
  bins := []
  tlb2 := []
  merges := []
  mergeQueue := []
  cores := Vector.replicate 4 Core.fresh
  samples := []
  sampleCount := 0
  samplePeriod := 4096
  joins := []

def State.hub (s : State) (h : Nat) : Hub := (s.m.hubs.find? (·.hub == h)).getD (Hub.fresh h)
def State.setHub (s : State) (x : Hub) : State :=
  s.modify fun m => { m with hubs := putBy (·.hub == x.hub) x m.hubs }
def State.updHub (s : State) (h : Nat) (f : Hub → Hub) : State := s.setHub (f (s.hub h))

/-- A quarter after reset (R21). -/
def Quarter.fresh (q : QRef) : Quarter where
  q := q
  cadence := 16
  granted := 16
  pending := none
  request := 16
  requestBy := none
  xacqSeq := 0
  forwards := []

def State.quarter (s : State) (q : QRef) : Quarter := (s.m.quarters.find? (·.q == q)).getD (.fresh q)
def State.setQuarter (s : State) (x : Quarter) : State :=
  s.modify fun m => { m with quarters := putBy (·.q == x.q) x m.quarters }
def State.updQuarter (s : State) (q : QRef) (f : Quarter → Quarter) : State :=
  s.setQuarter (f (s.quarter q))

/-- The granted cadence of a quarter with the loans of the resident teams applied (R367, R423), within 1 to 16 (R21;
DEDUCED, log entry 102). -/
def State.cadenceTarget (s : State) (q : QRef) : Nat :=
  let ls := s.m.teams.flatMap (·.loans)
  Nat.max 1 (Nat.min 16 ((s.quarter q).granted + (ls.filter (·.2 == q)).length - (ls.filter (·.1 == q)).length))
/-- A quarter's cadence is to become its target at the next window (R21). -/
def State.retarget (s : State) (q : QRef) : State :=
  let n := s.cadenceTarget q
  s.updQuarter q fun x => { x with pending := if n == x.cadence then none else some n }

def State.context (s : State) (n : Nat) : Context := s.m.contexts.toArray.getD n (.fresh n)
def State.updContext (s : State) (n : Nat) (f : Context → Context) : State :=
  s.modify fun m => { m with contexts := m.contexts.setIfInBounds n (f (s.context n)) }

def State.queue (s : State) (n : Nat) : Queue := (s.m.queues.find? (·.num == n)).getD (.fresh n)
def State.updQueue (s : State) (n : Nat) (f : Queue → Queue) : State :=
  let q := f (s.queue n)
  s.modify fun m => { m with queues := putBy (·.num == q.num) q m.queues }

/-! ## Lines, sectors, slices (R146, R152) -/

def lineOf (a : Nat) : Nat := a / 128 * 128
def sectorOf (a : Nat) : Nat := a % 128 / 32
/-- The core whose slice holds the line (R146). -/
def l1Slice (a : Nat) : Nat := a / 128 % 4
/-- The set within the slice (R146). -/
def l1Set (a : Nat) : Nat := a / 512 % 128
/-- The home slice of a physical address (R152). -/
def homeSlice (pa : Nat) : Nat :=
  let x := pa % 2 ^ 52 / 128
  (List.range 7).foldl (fun h i => h ^^^ (x / 2 ^ (7 * i) % 128)) 0
/-- The set within an L2 slice (R457). -/
def l2Set (pa : Nat) : Nat := pa / 128 % 2048
/-- Die of a hub number (R402). -/
def dieOf (hub : Nat) : Nat := hub / 32

/-! ## Numbers, messages, free values -/

/-- A number no object has used. -/
def State.newId (s : State) : Nat × State :=
  (s.m.nextId, s.modify fun m => { m with nextId := m.nextId + 1 })

/-- A value the spec leaves open is drawn: the counter names it (log entry 3). -/
def State.drawFree (s : State) : Nat × State :=
  (s.m.free, s.modify fun m => { m with free := m.free + 1 })

/-- The path a message takes, by the units at its ends: messages of one path keep their order (R153, R142), and their
latency is a figure of the part (R456). -/
def Msg.path : Msg → Nat
  | .home r => if r.hub < 256 then 128 * r.hub + homeSlice r.pa else 128 * r.hub
  | .notice hub pa => 128 * hub + homeSlice pa
  | .check c => 128 * c.hub + homeSlice c.pa
  | .l1Fill hub _ line _ _ => 128 * hub + homeSlice line
  | .wbAck hub _ line _ _ => 128 * hub + homeSlice line
  | .accessAck a _ _ _ => 128 * a.hub + homeSlice a.pa
  | .copyData hub .. | .copyLanded hub _ | .tackReply hub .. => 128 * hub
  | .replicaFill slice .. | .l2Fill slice _ => slice
  | .invAck slice _ die => 8 * slice + die
  | .promoteReq _ _ n | .promoteAck _ _ n => 128 * n
  | .result .. | .fabricAck .. | .preempt .. | .probe .. | .pfProbe _ | .rsmpDone _ => 0

/-- The line a request asks for, with its hub. The requests of a port are performed in the order of its gate, at
whatever homes (R226). -/
def Msg.lineOf : Msg → Option (Nat × Nat)
  | .home r => some (r.hub, if r.hub < 256 then r.pa / 128 else 0)
  | _ => none

/-- Accesses of two threads, which may reach their home in one cycle (R214, R445). -/
def Msg.abreast : Msg → Msg → Bool
  | .home r, .home q => (match r.back, q.back with
    | .access x, .access y => x.thread != y.thread && r.hub < 256
    | _, _ => false)
  | _, _ => false

/-- Work for the stamp log and the error log, which takes none of the run's own numbers (R399): its messages are numbered apart,
and the L2 lines that it uses stand in the recency order as used now (log entry 6). -/
def State.apart (f : State → State) (s : State) : State :=
  let n := s.m.nextId
  let u := f (s.modify fun m => { m with nextId := s.logNext })
  { u with
    logNext := u.m.nextId
    m := { u.m with
      nextId := n
      l2 := updBy (fun l => decide (logBase ≤ l.use)) (fun l => { l with use := n }) u.m.l2 } }

/-- Sends a message that arrives after the latency of its kind, in a later cycle (R19, R456): a fixed one for
each path, so that a path keeps its order. A request of a hub for a line arrives in a later cycle than the
hub's earlier requests for the line, or with those of other threads. -/
def State.send (s : State) (k : Config.Lat) (msg : Msg) : State :=
  let id := s.m.nextId
  let due := s.m.cycle + 1 + Config.latency k msg.path
  let due := if msg.lineOf.isNone then due
    else s.m.flight.foldl (fun d f =>
      if f.msg.lineOf == msg.lineOf then Nat.max d (if f.msg.abreast msg then f.due else f.due + 1) else d) due
  s.modify fun m =>
    { m with nextId := m.nextId + 1, flight := m.flight ++ [{ id := id, due := due, msg := msg }] }

/-- Sends a message with a fixed delay that the spec gives. -/
def State.sendAt (s : State) (due : Nat) (msg : Msg) : State :=
  let id := s.m.nextId
  s.modify fun m =>
    { m with nextId := m.nextId + 1, flight := m.flight ++ [{ id := id, due := due, msg := msg }] }

/-- Takes the message of a number out of flight. -/
def State.takeFlight (s : State) (id : Nat) : Option Flight × State :=
  (s.m.flight.find? (·.id == id),
   s.modify fun m => { m with flight := m.flight.filter (·.id != id) })

/-- The sum of the 64-bit words of some bytes (R398). -/
def wordSum (bs : List Byte) : Dword :=
  (List.range ((bs.length + 7) / 8)).foldl (fun a i => a + dwordField bs (8 * i)) 0

/-- An item is sent; in REPLAY its words go into OUTSUM instead (R399). -/
def State.transmit (s : State) (port : Nat) (bytes : List Byte) : State :=
  if s.slog.mode == 2 then { s with slog := { s.slog with outsum := s.slog.outsum + wordSum bytes } }
  else { s with outbox := s.outbox ++ [{ port := port, cycle := s.m.cycle, bytes := bytes }] }

/-- A port sends: its link is UP, and its partner has not paused it (R393, R394). -/
def LinkPort.sends (l : LinkPort) : Bool := l.st == 2 && !l.paused

/-- Changes a link port. -/
def State.updLink (s : State) (port : Nat) (f : LinkPort → LinkPort) : State :=
  s.modify fun m => { m with links := updBy (·.num == port) f m.links }

/-- What is given to a port leaves at once. -/
def State.portSends (s : State) (port : Nat) : Bool := (s.m.links.find? (·.num == port)).all (·.sends)

/-- An item leaves through a port, or is held there while the port does not send (R394); owner names the request it
serves, or is 0. -/
def State.emit (s : State) (port : Nat) (bytes : List Byte) (owner : Nat := 0) : State :=
  match s.m.links.find? (·.num == port) with
  | some l =>
    if l.sends then s.transmit port bytes
    else s.updLink port fun l =>
      { l with held := l.held ++
          [{ port := port, kind := 0, desc := BitVec.ofNat 64 owner, payload := bytes }] }
  | none => s.transmit port bytes

/-- What the module sends, in the model's own layout (log entry 13): a class, a length, a number, an address and
data. -/
def packet (cls id addr : Nat) (body : List Byte) : List Byte :=
  bytesOfNat 2 cls ++ bytesOfNat 2 body.length ++ bytesOfNat 4 id ++ bytesOfNat 8 addr ++ body

namespace Packet
abbrev readLine : Nat := 0
abbrev read : Nat := 1
abbrev write : Nat := 2
abbrev atomic : Nat := 3
abbrev data : Nat := 4
abbrev ack : Nat := 5
abbrev gridArrival : Nat := 6
abbrev alignRequest : Nat := 7
abbrev alignAnswer : Nat := 8
abbrev translation : Nat := 9
abbrev page : Nat := 10
abbrev invalidated : Nat := 11
abbrev completion : Nat := 12
abbrev frame : Nat := 13
abbrev image : Nat := 14
abbrev pause : Nat := 15
abbrev tackCheck : Nat := 16
abbrev tackReply : Nat := 17
abbrev halted : Nat := 18
end Packet

/-- A version in a packet: a byte that says whether there is one, and its two bytes. -/
def versionBytes (v : Option (BitVec 16)) : List Byte :=
  match v with
  | some x => 1 :: bytesOfNat 2 x.toNat
  | none => [0, 0, 0]
/-- The version of a packet's body. -/
def versionIn (bs : List Byte) : Option (BitVec 16) :=
  if bs.getD 0 0 == 1 then some (BitVec.ofNat 16 (fieldAt bs 1 2)) else none

/-- A flag in a packet. -/
def flagByte (b : Bool) : Byte := if b then 1 else 0

/-- The body of a write: the version it carries (R192), whether it is poisoned (R157), and each byte with its distance
from the packet's address. -/
def writeBody (addr : Nat) (bs : List (Nat × Byte)) (carried : Option (BitVec 16) := none) (poisoned : Bool := false) :
    List Byte :=
  versionBytes carried ++ flagByte poisoned :: bs.flatMap fun c => bytesOfNat 2 (c.1 - addr) ++ [c.2]
/-- The written bytes of a packet, after the four bytes of the head of its body. -/
def writtenBytes (addr : Nat) : List Byte → List (Nat × Byte)
  | a :: b :: c :: rest => (addr + a.toNat + 256 * b.toNat, c) :: writtenBytes addr rest
  | _ => []
/-- A packet that writes consecutive bytes. -/
def writePacket (addr : Nat) (bs : List Byte) : List Byte :=
  packet Packet.write 0 addr (writeBody addr ((List.range bs.length).map fun i => (addr + i, bs.getD i 0)))

/-- A completion: the tag, the status and the byte count as DESC has them (R397), and the data. -/
def completion (tag status : Nat) (bs : List Byte) : List Byte :=
  packet Packet.completion (tag % 1024 + status * 1024 + bs.length * 65536) 0 bs

/-! ## Window addresses (R144) -/

/-- The window address of unit u's byte of a hub. -/
def windowAddr (hub unit ofs : Nat) : Nat := hub * 2 ^ 31 + unit * 2 ^ 28 + ofs
/-- A hub-scratch byte of a team (R138). -/
def hsAddr (t : Team) (off : Nat) : Nat := windowAddr t.hub 0 (t.hsBase + off)
/-- A core-scratch byte of a gang (R139). -/
def ksAddr (g : Gang) (off : Nat) : Nat :=
  windowAddr g.hub 4 (g.core * 2 ^ 20 + (g.quarter * 32 + g.slot) * 2048 + off)
/-- An accumulator byte (R144). -/
def accAddr (hub phys row col : Nat) : Nat := windowAddr hub 1 (phys * 2 ^ 14 + row * 256 + col * 4)

/-- Reads window memory of units 0, 1 and 4. -/
def State.winRead (s : State) (a n : Nat) : List Byte := Memory.readBytes s.m.win a n
/-- Writes window memory; a wholly overwritten 64-bit unit loses its poison (R157). -/
def State.winWrite (s : State) (a : Nat) (bs : List Byte) : State :=
  s.modify fun m =>
    { m with win := Memory.writeBytes m.win a bs,
             winPoison := m.winPoison.filter fun u => !(a ≤ u * 8 && u * 8 + 8 ≤ a + bs.length) }
/-- Window bytes become zero, and whole units lose their poison (R138, R139, R31). -/
def State.winClear (s : State) (a n : Nat) : State :=
  s.modify fun m =>
    { m with win := m.win.filter fun c => c.1 < a || a + n ≤ c.1
             winPoison := m.winPoison.filter fun u => u * 8 < a || a + n ≤ u * 8 }
/-- Some 64-bit unit of the range is poisoned: its address. -/
def State.winPoisoned (s : State) (a n : Nat) : Option Nat :=
  (s.m.winPoison.find? fun u => u * 8 < a + n && a < u * 8 + 8).map (· * 8)

/-! ## Measurement (R412, R420) -/

/-- The event code that counter k selects (R402). -/
def Management.selector (g : Management) (k : Nat) : Nat := g.csel / 2 ^ (8 * k) % 256

/-- Counts n events of a code in a hub, in every counter that selects it; counters wrap (R412). -/
def State.count (s : State) (hub code n : Nat) : State :=
  (List.range 8).foldl (fun s k =>
    if s.mgmt.selector k == code && n != 0 then
      let old := ((s.hcnt.find? (·.1 == (hub, k))).map (·.2)).getD 0
      { s with hcnt := putBy (·.1 == (hub, k)) ((hub, k), old + BitVec.ofNat 64 n) s.hcnt }
    else s) s

/-- Adds n activity events of a kind to a kernel's estimate and its context's epoch (R420, R424). -/
def State.activity (s : State) (kid kind n : Nat) : State :=
  let e := n * Config.energyOf kind
  match s.kernel? kid with
  | none => s
  | some k => (s.updKernel kid fun k => { k with energy := k.energy + e }).updContext k.ctx fun c =>
      { c with epochEnergy := c.epochEnergy + e }

/-! ## Module facts -/

/-- floor test of R21: the picker has an issue tick in the cycle at cadence k. -/
def issueTick (cycle k : Nat) : Bool :=
  let i := cycle % 16
  (i + 1) * k / 16 > i * k / 16

/-- The enabled hubs of each die (R7, R13). -/
def hubsPerDie : Nat := if Config.x7 then 28 else 32

/-- The built hubs of a die that are enabled, in ascending order (R14). -/
def dieHubs (d : Nat) : List Nat :=
  (List.range (34 - hubsPerDie)).foldl (fun l i => l.eraseIdx (Config.fuse d i % l.length)) (List.range 34)

/-- The enabled hubs of a die, as hub numbers: they count up from 32 times the die in the order of `dieHubs` (R14). -/
def enabledHubs (d : Nat) : List Nat := (List.range hubsPerDie).map (d * 32 + ·)

/-- The dies of the partition that starts at die d; the layout lists the sizes in die order (R15). -/
def partitionDies : List Nat → Nat → Nat → List Nat
  | [], _, _ => []
  | n :: rest, first, d => if first == d then (List.range n).map (first + ·) else partitionDies rest (first + n) d

/-- The physical hubs of the partition that starts at a die, in order (R14). -/
def State.partitionHubs (s : State) (d : Nat) : List Nat :=
  (partitionDies s.m.layout 0 d).flatMap enabledHubs

/-- The context of a kernel. -/
def State.ctxOf (s : State) (kid : Nat) : Nat :=
  match s.kernel? kid with
  | some k => k.ctx
  | none => 0

/-! ## Thread facts -/

/-- The thread's gang register file and place; a thread always has its gang. -/
def State.gangOf (s : State) (t : Thread) : Option Gang := s.gang? t.ref.gangRef
def State.teamOf (s : State) (t : Thread) : Option Team := s.team? t.ref.teamRef

/-- rank (R32). -/
def Thread.rank (t : Thread) : Nat := t.ref.gang * 32 + t.ref.lane

/-- HALTED (R305). -/
def Thread.halted (t : Thread) : Bool := t.halt.isSome || t.stopped

/-- READY or TRAPPED, and not halted (R305). -/
def Thread.issuing (t : Thread) : Bool :=
  !t.halted && (t.st == .ready || t.st == .trapped)

/-- Every pending result has returned (R59). -/
def Thread.allReturned (t : Thread) : Bool := t.pend.all (·.value.isSome)

/-- Writes consecutive registers. -/
def writeRegs (v : Vector Word 96) (n : Nat) : List Word → Vector Word 96
  | [] => v
  | x :: xs => writeRegs (v.setIfInBounds n x) (n + 1) xs

/-- Writes registers from n on; a written register loses its poison (R157). -/
def Thread.setRegs (t : Thread) (n : Nat) (ws : List Word) : Thread :=
  { t with v := writeRegs t.v n ws, poison := t.poison.filter fun r => r < n || n + ws.length ≤ r }

/-- commit_all (R59). -/
def Thread.commitAll (t : Thread) : Thread :=
  { t.pend.foldl (fun t e => t.setRegs e.reg ((e.value.getD []).take e.count)) t with pend := [] }

/-- Reads a predicate; p0 is always true (R24). -/
def Thread.pred (t : Thread) (n : Nat) : Bool := n == 0 || t.p.getLsbD n
/-- Writes a predicate; a write to p0 is discarded (R24). -/
def Thread.setPred (t : Thread) (n : Nat) (x : Bool) : Thread :=
  if n == 0 then t
  else { t with p := if x then t.p ||| (1#8 <<< n) else t.p &&& ~~~(1#8 <<< n) }

/-- The issuing state a wake or a resume returns to. -/
def Thread.issuingState (t : Thread) : ThreadState := if t.inHandler then .trapped else .ready

/-- Parks with a reason (R305, R306). -/
def Thread.park (t : Thread) (reason : Nat) (w : WaitFor) : Thread := { t with st := .parked reason, wait := w }

/-- Wakes: back to the issuing state with nothing awaited. -/
def Thread.wake (t : Thread) : Thread := { t with st := t.issuingState, wait := .none }

/-- A marker: commits at once when every result has returned, else parks with reason 1 (R59, R305). -/
def Thread.marker (t : Thread) : Thread :=
  if t.allReturned then t.commitAll else t.park 1 .none

/-- Sets the value of the pending entry with the token (R59). -/
def Thread.returned (t : Thread) (tok : Nat) (value : List Word) : Thread :=
  { t with pend := t.pend.map fun e => if e.tok == tok then { e with value := some value } else e }

/-- An operation of the thread has been performed (R162, R173). -/
def Thread.performed (t : Thread) (tok : Nat) : Thread :=
  { t with out := t.out.filter (·.tok != tok)
           fences := t.fences.map fun f => { f with waits := f.waits.filter (· != tok) }
           sfenceWait := t.sfenceWait.map fun l => l.filter (· != tok) }
def State.performed (s : State) (r : ThreadRef) (tok : Nat) : State := s.updThread r (·.performed tok)

/-- An access has been performed: its forwarding entry is free and its sample is complete (R143, R416). -/
def State.accessDone (s : State) (a : Access) : State :=
  let q : QRef := { hub := a.hub, core := a.core, quarter := a.quarter }
  let s := s.performed a.thread a.tok
  let s := if (s.quarter q).forwards.any (·.tok == a.tok) then
      s.updQuarter q fun x => { x with forwards := x.forwards.filter (·.tok != a.tok) }
    else s
  let now := s.m.cycle
  let close : SampleEntry → SampleEntry := fun e =>
    if e.acc.tok == a.tok && e.finish.isNone then { e with finish := some now } else e
  if (s.hub a.hub).samples.isEmpty then s
  else s.updHub a.hub fun h => { h with samples := h.samples.map close }

/-- tackst fields (R35). -/
def tackOpenBit (x : Word) : Bool := x.getLsbD 0
def tackStruck (x : Word) : Bool := x.getLsbD 2
def tackOut (x : Word) : Nat := (x.extractLsb' 4 4).toNat
/-- tackst with a field replaced. -/
def setBits (x : Word) (lo n : Nat) (v : Nat) : Word :=
  (x &&& ~~~(BitVec.ofNat 32 ((2 ^ n - 1) * 2 ^ lo))) ||| BitVec.ofNat 32 (v % 2 ^ n * 2 ^ lo)
/-- A count of tackst advanced, saturating at 255 (R35). -/
def bumpCount (x : Word) (lo : Nat) : Word :=
  setBits x lo 8 (Nat.min 255 ((x.extractLsb' lo 8).toNat + 1))

/-- An entry leaves PENDING as confirmed or struck (R198). -/
def tackResolved (x : Word) (confirm : Bool) : Word :=
  let x := setBits x 4 4 (tackOut x - 1)
  if confirm then bumpCount x 16 else setBits (bumpCount x 24) 2 1 1

/-- A tack entry is resolved with the replies of this cycle, which come after its writes to `tackst` (R35). -/
def State.settleTack (s : State) (hub core tok : Nat) (confirm : Bool) : State :=
  s.sendAt s.m.cycle (.tackReply hub core tok confirm)

/-- A tack entry of a thread is resolved, and counted in its hub (R198, R412). -/
def State.resolveTack (s : State) (hub : Nat) (r : ThreadRef) (confirm : Bool) : State :=
  (s.updThread r fun t => { t with tackst := tackResolved t.tackst confirm }).count hub (if confirm then 7 else 8) 1

end Sys2Proof.Machine
end

