-- ==== Sys2Proof/Machine/Trap.lean ====
section
/-! DEFINITION. Taking an exception (R263), the fatal causes and the end of a team (R265, R189, R257), and
the fault records (R269, R270). -/

namespace Sys2Proof.Machine

/-! ## Causes (R264) -/

namespace Cause
abbrev illegalOp : Nat := 0x01
abbrev illegalField : Nat := 0x02
abbrev regRange : Nat := 0x03
abbrev priv : Nat := 0x04
abbrev align : Nat := 0x05
abbrev addr : Nat := 0x06
abbrev perm : Nat := 0x07
abbrev rangeLock : Nat := 0x08
abbrev format : Nat := 0x09
abbrev tackRelease : Nat := 0x0A
abbrev soft : Nat := 0x0B
abbrev brk : Nat := 0x0C
abbrev copyFault : Nat := 0x0D
abbrev memError : Nat := 0x0E
abbrev barrierMisuse : Nat := 0x0F
abbrev popMisuse : Nat := 0x10
abbrev extBlock : Nat := 0x11
abbrev teamKilled : Nat := 0x12
abbrev queueReset : Nat := 0x13
/-- Causes 0x01 to 0x0C are handled (R264). -/
def handled (c : Nat) : Bool := 1 ≤ c && c ≤ 0x0C
end Cause

/-! ## Fault records -/

/-- Bit mask of a 57-bit address field. -/
def addr57 (x : Dword) : Dword := x &&& 0x01FFFFFFFFFFFFFF

/-- The place of a thread in the order of R269: its hub, then its core, quarter and lane. -/
def State.recordKey (s : State) (t : Thread) : List Nat :=
  match s.gangOf t with
  | some g => [g.hub, 0, g.core, g.quarter, t.ref.lane]
  | none => [256, 0]

/-- A record that names a thread (R270), with its place in the order. -/
def State.refRecord (s : State) (key : List Nat) (r : ThreadRef) (lineage : Dword) (cause : Nat) (pc addr : Dword)
    (fatal nested : Bool) (detail : Nat) (word0 : Word) : RecordReq :=
  let k := s.kernel? r.kid
  { key := key, ctx := s.ctxOf r.kid, kernel := r.kid, pc := addr57 pc, addr := addr57 addr, lineage := lineage,
    corr := match k with
      | some k => lowHalf k.corr
      | none => 0,
    team := BitVec.ofNat 32 r.team,
    knum := match k with
      | some k => k.knum
      | none => 0,
    gang := r.gang, lane := r.lane, cause := cause, fatal := fatal, nested := nested,
    isolated := match s.launch? r.kid with
      | some l => fatal && l.iso
      | none => false,
    detail := detail, word0 := word0, cycle := s.m.cycle }

/-- A record of a thread's cause (R270). -/
def State.threadRecord (s : State) (t : Thread) (cause : Nat) (pc addr : Dword) (fatal nested : Bool)
    (detail : Nat) (word0 : Word) : RecordReq :=
  s.refRecord (s.recordKey t) t.ref t.lineage cause pc addr fatal nested detail word0

/-- A record of a team, naming no thread (R269, R270): causes 0x12 and 0x13. -/
def State.teamRecord (s : State) (r : TeamRef) (cause : Nat) : RecordReq :=
  let k := s.kernel? r.kid
  { key := [match s.team? r with
      | some t => t.hub
      | none => 255, 1, r.team],
    ctx := s.ctxOf r.kid, kernel := r.kid, pc := BitVec.allOnes 64, addr := 0,
    lineage := BitVec.allOnes 64,
    corr := match k with
      | some k => lowHalf k.corr
      | none => 0,
    team := BitVec.ofNat 32 r.team,
    knum := match k with
      | some k => k.knum
      | none => 0,
    gang := 0xFFFF, lane := 0xFF, cause := cause, fatal := false, nested := false, isolated := false,
    detail := 0, word0 := 0, cycle := s.m.cycle }

/-- Notes a record of this cycle; the cycle's end writes them in the order of R269. -/
def State.addRecord (s : State) (r : RecordReq) : State :=
  s.modify fun m => { m with records := m.records ++ [r] }

/-- A trace record of a kernel's life, in the place of a hub: source 2 to 5, with a team or all ones (R414). -/
def State.traceKernel (s : State) (kid src hub : Nat) (team : Option Nat) : State :=
  let k := s.kernel? kid
  let ones : Dword := BitVec.allOnes 64
  let r : TraceReq :=
    { key := [hub, 1, team.getD 0], ctx := s.ctxOf kid, bit := 1, src := src, pc := ones, lineage := ones,
      corr := (k.map fun k => lowHalf k.corr).getD 0, team := (team.map (BitVec.ofNat 32)).getD (BitVec.allOnes 32),
      knum := (k.map (·.knum)).getD 0, gang := 0xFFFF, lane := 0xFF, data0 := BitVec.allOnes 32, data1 := ones,
      data2 := ones, cycle := s.m.cycle }
  s.modify fun m => { m with traces := m.traces ++ [r] }

/-- The 64 bytes of a record (R270), with the context's unwrapped write count for PHASE. -/
def RecordReq.bytes (r : RecordReq) (fqlog2 written : Nat) : List Byte :=
  let phase := written / 2 ^ fqlog2 % 2
  bytesOfNat 8 r.cycle ++ bytesOfDword r.pc ++ bytesOfDword r.addr ++ bytesOfDword r.lineage
    ++ bytesOfWord r.corr ++ bytesOfWord r.team ++ bytesOfWord r.knum ++ bytesOfNat 2 r.gang
    ++ bytesOfNat 1 r.lane ++ bytesOfNat 1 r.cause ++ bytesOfNat 1 r.ctx
    ++ bytesOfNat 1 ((if r.fatal then 1 else 0) + (if r.nested then 2 else 0) + (if r.isolated then 4 else 0)
        + 128 * phase)
    ++ bytesOfNat 2 r.detail ++ bytesOfWord r.word0 ++ bytesOfNat 8 0

/-! ## Debug halts (R274, R328) -/

/-- The thread belongs to a set. -/
def State.inSet (s : State) (t : ThreadRef) : HaltSet → Bool
  | .thread r => t == r
  | .gang g => t.gangRef == g
  | .team r => t.teamRef == r
  | .context n => s.ctxOf t.kid == n
  | .module => true

/-- The set holds every thread of the team. -/
def State.coversTeam (s : State) (r : TeamRef) : HaltSet → Bool
  | .thread _ | .gang _ => false
  | .team x => x == r
  | .context n => s.ctxOf r.kid == n
  | .module => true

/-- The set names the team or something of it. -/
def State.meetsTeam (s : State) (r : TeamRef) : HaltSet → Bool
  | .thread t => t.teamRef == r
  | .gang g => g.teamRef == r
  | x => s.coversTeam r x

/-- A quarter's number. -/
def quarterNumber (q : QRef) : Nat := q.hub * 16 + q.core * 4 + q.quarter

/-- The cycles a request takes to a quarter: 210 at most (R328). -/
def preemptDelay (q : QRef) : Nat := 1 + Config.latency .preempt (quarterNumber q) % 210

/-- A debug halt holds a thread that is formed in a quarter. -/
def State.bornHalted (s : State) (t : ThreadRef) (q : QRef) : Bool :=
  (s.context (s.ctxOf t.kid)).halts.any fun x =>
    s.inSet t x.set && !x.resumed.any (s.inSet t) && x.since + preemptDelay q ≤ s.m.cycle

/-- A debug halt of the whole team stands (R255, R328). -/
def State.debugStopped (s : State) (r : TeamRef) : Bool :=
  (s.context (s.ctxOf r.kid)).halts.any fun x => s.coversTeam r x.set && !x.resumed.any (s.meetsTeam r)

/-! ## The end of a team -/

/-- The quarter's grant follows the caps and its request; a change reverses the loans that touch the quarter (R423), and so
does a ceiling that falls below what the loans have raised it to (R367). -/
def State.regrant (s : State) (q : QRef) : State :=
  let n := Nat.min s.m.grant (Nat.min s.m.tcap (s.quarter q).request)
  let high := Nat.min s.m.tcap (s.quarter q).request < s.cadenceTarget q
  if n == (s.quarter q).granted && !high then s
  else
    let touches := fun (l : QRef × QRef) => l.1 == q || l.2 == q
    let others := (s.m.teams.flatMap fun t => t.loans.filter touches).flatMap fun l => [l.1, l.2]
    let s := s.modify fun m => { m with teams := m.teams.map fun t => { t with loans := t.loans.filter (!touches ·) } }
    let s := s.updQuarter q fun x => { x with granted := n }
    (others.foldl (·.retarget ·) s).retarget q

/-- The `sys cad` request of a kernel ends when its last gang leaves the quarter (R425). -/
def State.leaveQuarter (s : State) (kid : Nat) (q : QRef) : State :=
  let here := fun (g : Gang) => g.ref.kid == kid && g.hub == q.hub && g.core == q.core && g.quarter == q.quarter
  if s.m.gangs.any here || (s.quarter q).requestBy != some kid then s
  else (s.updQuarter q fun x => { x with request := 16, requestBy := none }).regrant q

/-- The requester belongs to the team. -/
def MergeWaiter.ofTeam (w : MergeWaiter) (r : TeamRef) : Bool :=
  match w.who with
  | .packet (t :: _) _ => t.teamRef == r
  | _ => false

/-- The requester is the team's, or one of its copies. -/
def Hub.waiterOf (h : Hub) (r : TeamRef) (w : MergeWaiter) : Bool :=
  w.ofTeam r || (match w.who with
    | .copy _ id => h.copies.any fun x => x.id == id && x.team == r
    | _ => false)

/-- What a hub drops for an ended team: tack entries, copies, engine work, bins and waiting accesses (R189, R257, R265). Its
range locks are released, and apply to the end of the cycle (R178). -/
def Hub.dropTeam (h : Hub) (r : TeamRef) (now : Nat) : Hub :=
  let mine := fun (t : ThreadRef) => t.teamRef == r
  { h with
    locks := updBy (fun l => l.team == r && l.ended.isNone) (fun l => { l with ended := some now }) h.locks
    copies := h.copies.filter (·.team != r)
    reservations := h.reservations.filter (·.team != r)
    fetch := h.fetch.filter fun e => h.reservations.any fun x => x.entry == e.entry && x.team != r
    operands := h.operands.filter (·.team != r)
    bins := h.bins.filter (·.team != r)
    absent := h.absent.filter fun a => !mine a.thread
    joins := h.joins.filter fun j => !mine j.1
    samples := h.samples.filter fun e => !mine e.acc.thread || e.finish.isSome
    bumps := h.bumps.filter fun b => !((b.thread.map mine).getD false)
    cores := h.cores.map fun c => { c with tacks := c.tacks.filter fun e => !mine e.thread }
    merges := h.merges.map fun m =>
      { m with records := m.records.filter (!h.waiterOf r ·), overflow := m.overflow.filter (!h.waiterOf r ·) }
    mergeQueue := h.mergeQueue.filter (!h.waiterOf r ·) }

/-- Removes a team with everything it holds; its allocations and blocks are free with it, its loans are
reversed, and a `sys cad` request of its kernel ends where the kernel has left the quarter (R265, R307, R308, R367,
R425). -/
def State.endTeam (s : State) (r : TeamRef) : State :=
  let loans := (s.team? r).elim [] (·.loans)
  let s := s.traceKernel r.kid 4 (((s.team? r).map (·.hub)).getD 255) (some r.team)
  let gangs := s.m.gangs.filter fun g => g.ref.teamRef == r
  let s := s.modify fun m =>
    { m with
      threads := m.threads.filter fun t => t.ref.teamRef != r
      gangs := m.gangs.filter fun g => g.ref.teamRef != r
      teams := m.teams.filter (·.ref != r)
      hubs := m.hubs.map (·.dropTeam r m.cycle)
      quarters := m.quarters.map fun q => { q with forwards := q.forwards.filter fun f => f.thread.teamRef != r }
      packet := m.packet.filter fun t => t.teamRef != r
      resumes := m.resumes.map fun p => { p with threads := p.threads.filter fun t => t.teamRef != r }
      kernels := updBy (·.kid == r.kid) (fun k => { k with ended := k.ended + 1 }) m.kernels }
  let s := s.updContext (s.ctxOf r.kid) fun c => { c with saved := c.saved.filter fun t => t.team.ref != r }
  let s := (loans.flatMap fun l => [l.1, l.2]).foldl (·.retarget ·) s
  gangs.foldl (fun s g => s.leaveQuarter r.kid { hub := g.hub, core := g.core, quarter := g.quarter }) s

/-- Every resident or saved team of a kernel. -/
def State.kernelTeams (s : State) (kid : Nat) : List TeamRef :=
  sortKey (fun r => [r.team])
    (((s.m.teams.filter fun t => t.ref.kid == kid).map (·.ref))
      ++ (((s.context (s.ctxOf kid)).saved.filter fun t => t.team.ref.kid == kid).map (·.team.ref)))

/-- Ends every team of a kernel, each with one record of the cause (R265, R294). -/
def State.killTeams (s : State) (kid cause : Nat) : State :=
  (s.kernelTeams kid).foldl (fun s r => (s.addRecord (s.teamRecord r cause)).endTeam r) s

/-- The end of a cycle: the kernels that a kill of the cycle has reached lose their teams and are marked killed. What those
teams did in the cycle stands, a fatal cause and its record too (R294). -/
def State.carryKills (s : State) : State :=
  s.m.kernels.foldl (fun s k => match k.killing with
    | some cause => (s.killTeams k.kid cause).updKernel k.kid fun k =>
        { k with killed := true, killing := none, st := .draining, rsmp := .idle, plan := [] }
    | none => s) s

/-- DONE, FAULTED or KILLED. -/
def Kernel.final (k : Kernel) : Bool := k.st == .done || k.st == .faulted || k.st == .killed

/-- ADMITTED or RUNNING. -/
def Kernel.live (k : Kernel) : Bool := k.st == .admitted || k.st == .running

/-- The kernel has ISO set. -/
def State.isolates (s : State) (kid : Nat) : Bool :=
  match s.launch? kid with
  | some l => l.iso
  | none => false

/-- The kernel is terminated by a fault of one of its teams: nothing more is dispatched, and every other
team ends with the cycle, unless ISO is set (R264, R265, R294, R303); a resample of it is abandoned (R336). -/
def State.kernelFault (s : State) (kid cause : Nat) : State :=
  let iso := s.isolates kid
  s.updKernel kid fun k =>
    let k := { k with faulted := true, cause := if k.faulted then k.cause else cause }
    if iso || !k.live then k else { k with st := .draining, drainAt := some s.m.cycle, rsmp := .idle, plan := [] }

/-- The end of a cycle: the teams of a kernel that a fault has terminated, and that met no cause of their own, end with
cause 0x12 (R303). -/
def State.spreadFaults (s : State) : State :=
  s.m.kernels.foldl (fun s k =>
    if k.faulted && k.st == .draining && !s.isolates k.kid then s.killTeams k.kid Cause.teamKilled else s) s

/-- A fatal cause in a thread, detected in a cycle (R265, R270). -/
def State.fatal (s : State) (t : Thread) (cause : Nat) (pc addr : Dword) (nested : Bool) (detail : Nat)
    (word0 : Word) (since : Nat := s.m.cycle) : State :=
  let s := s.addRecord { s.threadRecord t cause pc addr true nested detail word0 with cycle := since }
  (s.endTeam t.ref.teamRef).kernelFault t.ref.kid cause

/-- Something that a thread left behind: the thread, its core and quarter, and the lineage, address and word 0 of the
instruction. The thread may have ended. -/
structure Left where
  thread : ThreadRef
  core : Nat
  quarter : Nat
  lineage : Dword
  pc : Dword
  word0 : Word
deriving DecidableEq, Repr

/-- The record of a fatal cause that something left behind meets, in the place of its thread (R257, R269). -/
def State.leftRecord (s : State) (l : Left) (cause : Nat) (addr : Dword) : RecordReq :=
  let hub := ((s.team? l.thread.teamRef).map (·.hub)).getD 256
  s.refRecord [hub, 0, l.core, l.quarter, l.thread.lane] l.thread l.lineage cause l.pc addr true false 0 l.word0

/-- A fatal cause that something a thread left behind meets, in its team (R257, R265). -/
def State.lateFatal (s : State) (l : Left) (cause : Nat) (addr : Dword) : State :=
  if (s.team? l.thread.teamRef).isSome then
    ((s.addRecord (s.leftRecord l cause addr)).endTeam l.thread.teamRef).kernelFault l.thread.kid cause
  else s

/-- What an access leaves behind. -/
def Access.left (a : Access) : Left :=
  { thread := a.thread, core := a.core, quarter := a.quarter, lineage := a.lineage, pc := a.pc, word0 := a.word0 }

/-! ## Handler entry -/

/-- The end of R263 once the pending results have returned: entry, or the fatal fourth entry. The record of an entry has the
cycle in which the cause was detected (R270). -/
def State.enterHandler (s : State) (t : Thread) (x : TrapRegs) (detail since : Nat) : State :=
  let t := t.commitAll
  let c := s.context (s.ctxOf t.ref.kid)
  let cause := x.cause.toNat
  if t.nest == 3 then (s.setThread t).fatal t cause x.pc x.addr true detail x.word0 since
  else
    let s := if c.fqh then
        s.addRecord { s.threadRecord t cause x.pc x.addr false false detail x.word0 with cycle := since }
      else s
    s.setThread { t with
      x := x, nest := t.nest + 1, st := .trapped, inHandler := true, wait := .none, pc := c.handler }

/-- A handled cause in a thread (R263): fatal without a handler; else the pending results are awaited and
committed, and the handler is entered. -/
def State.trap (s : State) (r : ThreadRef) (x : TrapRegs) (detail : Nat) : State :=
  match s.thread? r with
  | none => s
  | some t =>
    let c := s.context (s.ctxOf r.kid)
    if !c.hen then s.fatal t x.cause.toNat x.pc x.addr false detail x.word0
    else if t.allReturned then s.enterHandler t x detail s.m.cycle
    else s.setThread (t.park 1 (.trap x detail s.m.cycle))

/-- The trap registers of an instruction at pc with its words and fields (R71, R263). -/
def trapRegs (cause : Nat) (pc addr : Dword) (c : Code) (badf : BitVec 4) : TrapRegs :=
  let ws := c.words
  let f := c.fields
  { cause := BitVec.ofNat 32 cause, pc := addr57 pc, addr := addr57 addr, word0 := ws.getD 0 0,
    word1 := if f.ext then ws.getD 1 0 else 0, word2 := if f.ext then ws.getD 2 0 else 0,
    word3 := match f.lit with
      | some x => x
      | none => 0,
    fld := xfldOf (ws.getD 0 0) f badf }

/-- What an instruction raises in a thread: cause, address, BADF, and the detail of R270. -/
structure Raise where
  cause : Nat
  addr : Dword := 0
  badf : BitVec 4 := 0
  detail : Nat := 0
deriving DecidableEq, Repr

/-- Takes a raised cause in a thread at pc: handled or fatal (R263 to R265). -/
def State.raise (s : State) (r : ThreadRef) (pc : Dword) (c : Code) (e : Raise) : State :=
  let detail := if e.cause == Cause.illegalField then e.badf.toNat else e.detail
  let x := trapRegs e.cause pc e.addr c e.badf
  if Cause.handled e.cause then s.trap r x detail
  else match s.thread? r with
    | some t => s.fatal t e.cause pc e.addr false detail x.word0
    | none => s

/-- The return from a handler (R268): pc from `xpc`, nest 0, READY. -/
def Thread.tret (t : Thread) : Thread :=
  { t with pc := addr57 t.x.pc, nest := 0, st := .ready, inHandler := false, wait := .none }

end Sys2Proof.Machine
end

