-- ==== Sys2Proof/Machine/Coherence.lean ====
section
/-! DEFINITION. The home L2 slices, the L1 slices, write-backs, releases and generation bumps (R146 to R154,
R161 to R171, R191, R192, R213, R214, R221, R457). -/

namespace Sys2Proof.Machine

/-! ## Values of an access -/

/-- The registers a loaded value fills (R160, R82). -/
def extendLoad (ty : Nat) (bs : List Byte) : List Word :=
  let n := natOfBytes bs
  if ty == Ty.i8 then [(BitVec.ofNat 8 n).signExtend 32]
  else if ty == Ty.i64 || ty == Ty.n64 then [BitVec.ofNat 32 n, BitVec.ofNat 32 (n / 2 ^ 32)]
  else if ty == Ty.x4 then (List.range 4).map fun i => BitVec.ofNat 32 (n / 2 ^ (32 * i))
  else [BitVec.ofNat 32 n]

/-- The new value of an atomic (R170). -/
def atomicResult (op ty : Nat) (old x y : Dword) (mode : Rnd) : Dword :=
  match op with
  | 0 => cut ty (old + x)
  | 1 => (faddF32 mode (lowHalf old) (lowHalf x)).zeroExtend 64
  | 2 => if valOf ty x < valOf ty old then x else old
  | 3 => if valOf ty x > valOf ty old then x else old
  | 4 => old &&& x
  | 5 => old ||| x
  | 6 => old ^^^ x
  | 7 => x
  | _ => if old == y then x else old

/-! ## Memory behind the L2 (R457) -/

/-- A line read from HBM4 or the DDR-5 tier: four sectors. -/
def State.memLine (s : State) (line : Nat) : Vector (BitVec 256) 4 :=
  .ofFn fun i => sectorOfBytes (Memory.readBytes s.mem (line + 32 * i.val) 32)

/-- The poison bits memory holds for a line (R157). -/
def State.memLinePoison (s : State) (line : Nat) : BitVec 4 :=
  (List.range 4).foldl (fun p i => if s.memPoison.contains (line + 32 * i) then p ||| (1#4 <<< i) else p) 0

/-- Writes the dirty sectors of an L2 line to memory, each with its poison (R157, R457). -/
def State.flushL2 (s : State) (l : L2Line) : State :=
  (List.range 4).foldl (fun s i =>
    let a := l.pa + 32 * i
    if l.dirty.getLsbD i then
      { s with
        mem := Memory.writeBytes s.mem a (sectorBytes (l.sectors.toArray.getD i 0))
        memPoison := if l.poison.getLsbD i then a :: s.memPoison.filter (· != a) else s.memPoison.filter (· != a) }
    else s) s

def State.l2Line? (s : State) (slice line : Nat) : Option L2Line :=
  s.m.l2.find? fun l => l.slice == slice && l.pa == line
def State.setL2 (s : State) (x : L2Line) : State :=
  s.modify fun m => { m with l2 := putBy (fun l => l.slice == x.slice && l.pa == x.pa) x m.l2 }
def State.dropL2 (s : State) (slice line : Nat) : State :=
  s.modify fun m => { m with l2 := m.l2.filter fun l => !(l.slice == slice && l.pa == line) }

/-- Notes the use of a line in its slice's recency order (R457). -/
def State.touchL2 (s : State) (slice line : Nat) : State :=
  let (n, s) := s.newId
  s.modify fun m =>
    { m with l2 := updBy (fun l => l.slice == slice && l.pa == line) (fun l => { l with use := n }) m.l2 }

/-- The way a fill takes, and the line it evicts: the lowest invalid way, else the least recent (R457). -/
def State.l2Victim (s : State) (slice line : Nat) : Nat × Option L2Line :=
  let set := s.m.l2.filter fun l => l.slice == slice && l2Set l.pa == l2Set line
  match (List.range 16).find? fun w => !(set.any (·.way == w)) with
  | some w => (w, none)
  | none => match leastBy (fun (l : L2Line) => [l.use]) set with
    | some l => (l.way, some l)
    | none => (0, none)

/-- The replicas of a line in some dies go, and those on their way there (R154). -/
def State.dropReplicasIn (s : State) (line : Nat) (dies : List Nat) : State :=
  let coming := fun (f : Flight) => match f.msg with
    | .replicaFill slice l _ _ => l == line && dies.contains (slice / 16)
    | _ => false
  s.modify fun m => { m with
    l2 := m.l2.filter fun x => x.home || x.pa != line || !dies.contains (x.slice / 16)
    flight := m.flight.filter (!coming ·)
    evictions := m.evictions.filter fun e => !(e.line == line && e.placed.isSome && dies.contains (e.slice / 16)) }

/-- The dies whose replica bits a home line has set. -/
def L2Line.dies (l : L2Line) : List Nat := (List.range 8).filter fun d => l.replicas.getLsbD d

/-- Every replica of a home line is invalidated: the acknowledgements travel back (R154, R457). -/
def State.invalidateReplicas (s : State) (l : L2Line) : State :=
  let s := (s.setL2 { l with replicas := 0 }).dropReplicasIn l.pa l.dies
  l.dies.foldl (fun s d => s.send .toHome (.invAck l.slice l.pa d)) s

/-- Installs a line in a slice: the victim is written back and its record cleared with it, and the new line takes the
next fill tag (R191, R457). -/
def State.installL2 (s : State) (slice line : Nat) (home : Bool) (placedBy : Option Nat)
    (data : Vector (BitVec 256) 4) (poison : BitVec 4) : State :=
  let (way, victim) := s.l2Victim slice line
  let s := match victim with
    | some v => (if v.home then s.flushL2 v else s).dropL2 slice v.pa
    | none => s
  let ctr := ((s.m.fillCtr.find? (·.1 == slice)).map (·.2)).getD 0
  let (n, s) := s.newId
  let s := s.modify fun m => { m with fillCtr := putBy (·.1 == slice) (slice, ctr + 1) m.fillCtr }
  s.setL2 { slice := slice, pa := line, way := way, home := home, tag := ctr,
            versions := Vector.replicate 4 0, sectors := data, dirty := 0, poison := poison, writer := none,
            multi := false, replicas := 0, placedBy := placedBy, wrote := Vector.replicate 4 0,
            ackId := Vector.replicate 4 0, use := n }

/-- A slice takes a line: the home line from memory, or a replica with the tag and versions of its home (log entry 6). -/
def State.takeLine (s : State) (slice line : Nat) : Option (Nat × LineData) → State
  | none => s.installL2 slice line true none (s.memLine line) (s.memLinePoison line)
  | some (kid, d) =>
    let s := s.installL2 slice line false (some kid) d.sectors d.poison
    let same : L2Line → L2Line := fun x => { x with tag := d.tag, versions := d.versions }
    s.modify fun m => { m with l2 := updBy (fun x => x.slice == slice && x.pa == line) same m.l2 }

/-- The dies whose acknowledgement of an invalidation of a line is on its way. -/
def State.invalidating (s : State) (line : Nat) : List Nat :=
  s.m.flight.filterMap fun f => match f.msg with
    | .invAck _ l die => if l == line then some die else none
    | _ => none

/-- A fill of a slice: a home line that it would evict has its replicas invalidated first, and every invalidation of the line
acknowledged (R457). -/
def State.fillSlice (s : State) (slice line : Nat) (placed : Option (Nat × LineData)) : State :=
  match (s.l2Victim slice line).2 with
  | some v =>
    let dies := if v.home then (v.dies ++ s.invalidating v.pa).eraseDups else []
    if dies.isEmpty then s.takeLine slice line placed
    else (s.invalidateReplicas v).modify fun m => { m with evictions := m.evictions ++
      [{ slice := slice, line := line, victim := v.pa, dies := dies, placed := placed }] }
  | none => s.takeLine slice line placed

/-- The home line of an address, filled from memory when the slice does not hold it (R457). -/
def State.ensureHome (s : State) (pa : Nat) : State :=
  let line := lineOf pa
  match s.l2Line? (homeSlice pa) line with
  | some _ => s
  | none => s.installL2 (homeSlice pa) line true none (s.memLine line) (s.memLinePoison line)

/-- Makes an acknowledgement of this cycle carry no version, since another write reached the sector
(R192). -/
def State.unversionAck (s : State) (id : Nat) : State :=
  let strip : Flight → Flight := fun f =>
    let msg := match f.msg with
      | .wbAck h p l k _ => Msg.wbAck h p l k none
      | .accessAck a v _ p => .accessAck a v none p
      | .fabricAck src tag _ => .fabricAck src tag none
      | x => x
    { f with msg := msg }
  s.modify fun m => { m with flight := updBy (·.id == id) strip m.flight }

/-- The write sum of R411 after a write touched words of a sector: (word address, value after). -/
def addWords (sum : Dword) (ws : List (Nat × Nat)) : Dword :=
  ws.foldl (fun s w => s + (BitVec.ofNat 64 w.2 ^^^ BitVec.ofNat 64 w.1) * 0xD6E8FEB86659FD93) sum

/-- Every open span takes the words that a write touched (R411). -/
def State.sumWords (s : State) (pa : Nat) (data : BitVec 256) (bs : List (Nat × Byte)) : State :=
  let base := pa / 32 * 32
  let ws := ((List.range 4).filter fun i => bs.any fun c => c.1 % 32 / 8 == i).map fun i =>
    (base + 8 * i, (data.extractLsb' (64 * i) 64).toNat)
  let add : Context → Context := fun c => { c with span := c.span.map fun x => { x with sum := addWords x.sum ws } }
  if s.m.contexts.toList.any fun c => c.span.isSome then
    s.modify fun m => { m with contexts := m.contexts.map add }
  else s

/-- Writes bytes of one sector at its home, advancing the version once a cycle (R191). The answer is the
version an acknowledgement may carry (R192). A poisoned unit poisons the sector, and a whole write clears it (R157). -/
def State.homeWrite (s : State) (pa : Nat) (bs : List (Nat × Byte)) (carried : Option (BitVec 16))
    (poisoned : Bool := false) : Option (BitVec 16) × State :=
  let s := s.ensureHome pa
  let slice := homeSlice pa
  let line := lineOf pa
  let k := sectorOf pa
  match s.l2Line? slice line with
  | none => (none, s)
  | some l =>
    let first := l.wrote.toArray.getD k 0 != s.m.cycle + 1
    let old := l.versions.toArray.getD k 0
    let new := if first then old + 1 else old
    let data := bs.foldl (fun d p => setSectorByte d (p.1 % 32) p.2) (l.sectors.toArray.getD k 0)
    let whole := bs.length == 32
    let s := if first then s else s.unversionAck (l.ackId.toArray.getD k 0)
    let s := s.setL2 { l with
      sectors := l.sectors.setIfInBounds k data
      versions := l.versions.setIfInBounds k new
      dirty := l.dirty ||| (1#4 <<< k)
      poison := if poisoned then l.poison ||| (1#4 <<< k)
        else if whole then l.poison &&& ~~~(1#4 <<< k) else l.poison
      wrote := l.wrote.setIfInBounds k (s.m.cycle + 1)
      ackId := if first then l.ackId.setIfInBounds k 0 else l.ackId }
    let s := (s.touchL2 slice line).sumWords pa data bs
    (if first && carried == some old then some new else none, s)

/-- The next message is the acknowledgement of the sector's first write of the cycle (R192). -/
def State.noteAck (s : State) (pa : Nat) : State :=
  let id := s.m.nextId
  let k := sectorOf pa
  let note : L2Line → L2Line := fun l => { l with ackId := l.ackId.setIfInBounds k id }
  s.modify fun m => { m with l2 := updBy (fun l => l.home && l.pa == lineOf pa) note m.l2 }

/-! ## The module's own units at the homes (R191) -/

/-- The numbers of the module's own units, and of the unit that writes the stamp log and the error log, among the hubs at a
home, and their link (log entry 6). -/
abbrev unitHub : Nat := 259
abbrev logHub : Nat := 260
abbrev unitLink : Nat := 8

/-- A request of a unit: it reaches its home with the next cycle's arrivals, in the order the unit made them. -/
def State.unitRequest (s : State) (pa size : Nat) (op : HomeOp) (back : Back) (hub : Nat := unitHub) : State :=
  let (id, s) := s.newId
  s.sendAt (s.m.cycle + 1) (.home { id := id, link := unitLink, hub := hub, pa := pa, size := size, op := op,
                                    back := back, rmt := false, replica := none })

/-- The sectors of a byte range. -/
def sectorsOf (pa n : Nat) : List Nat := (List.range ((pa + n + 31) / 32 - pa / 32)).map fun i => pa / 32 + i

/-- The device's own write of bytes: each sector at its home (R191), with the poison of the bytes it copies (R157). Those of
another owner leave in the same order. -/
def State.deviceWrite (s : State) (pa : Nat) (bs : List Byte) (job : UnitJob := .other) (place : Place := .here)
    (poison : List Bool := []) (hub : Nat := unitHub) : State :=
  match bs with
  | [] => s
  | _ =>
    let cells := (List.range bs.length).map fun i => (pa + i, bs.getD i 0)
    (sectorsOf pa bs.length).foldl (fun s k =>
      let bad := (List.range bs.length).any fun i => (pa + i) / 32 == k && poison.getD i false
      s.unitRequest (32 * k) 32 (.write (cells.filter fun c => c.1 / 32 == k) none bad) (.unit job place) hub) s

/-- The requests on their way to a home or another owner, and those a home holds. -/
def State.requests (s : State) : List HomeReq :=
  s.m.remote ++ s.m.l2held.map (·.req) ++ s.m.flight.filterMap fun f => match f.msg with
    | .home r => some r
    | _ => none

/-- Some write of a job has not been performed. -/
def State.unitBusy (s : State) (job : UnitJob) : Bool :=
  s.requests.any fun r => match r.back with
    | .unit j _ => j == job
    | _ => false

/-- The units' writes in this module's memory that have not reached their homes, oldest first: bytes, and whether the unit is
poisoned. -/
def State.unitPending (s : State) : List (List (Nat × Byte) × Bool) :=
  let ofReq := fun (r : HomeReq) => match r.op, r.back with
    | .write bs _ p, .unit _ .here => some (r.id, bs, p)
    | _, _ => none
  (sortKey (fun (x : Nat × List (Nat × Byte) × Bool) => [x.1]) (s.requests.filterMap ofReq)).map (·.2)

/-- The bytes of those writes. -/
def State.unitWrites (s : State) : List (Nat × Byte) := s.unitPending.flatMap (·.1)

/-! ## Bus writes and region counters (R381, R391) -/

/-- A bus address inside BAR4 names module physical memory (R391). -/
def State.busPa? (s : State) (a : Nat) : Option Nat :=
  let b := s.m.bar4.toNat
  if b ≤ a && a < b + 2 ^ 52 then some (a - b) else none

/-- HBM4 bytes of one module. -/
abbrev hbmSize : Nat := 768 * 2 ^ 30

/-- The place and address a module physical address names (R391). The DDR-5 tier is taken as fitted in full, 4 TiB (R10; DESIGN
CHOICE, log entry 98). -/
def State.classifyPa (s : State) (pa : Nat) : Place × Nat :=
  if pa < hbmSize then (.here, pa)
  else if 2 ^ 40 ≤ pa && pa < 5 * 2 ^ 40 then (.here, pa)
  else if 2 ^ 51 ≤ pa then
    let m := (pa - 2 ^ 51) / 2 ^ 40
    let off := pa % 2 ^ 40
    if m < 1152 && off < hbmSize then (if m == s.modnum then (.here, off) else (.module m, off))
    else (.host, s.m.bar4.toNat + pa)
  else (.host, s.m.bar4.toNat + pa)

/-- A write of the device at a module physical address: at the homes of this module, or at another owner (R391). -/
def State.paWrite (s : State) (pa : Nat) (bs : List Byte) (hub : Nat := unitHub) : State :=
  let (place, a) := s.classifyPa pa
  s.deviceWrite a bs .other place [] hub

/-- A write of the device at a bus address: module physical memory, or a posted request (R226). -/
def State.busWrite (s : State) (a : Nat) (bs : List Byte) : State :=
  match s.busPa? a with
  | some pa => s.paWrite pa bs
  | none => s.deviceWrite a bs .other .host

/-- A place is forwarded: other modules, host memory, and the DDR-5 tier (R370, R391). -/
def forwarded (place : Place) (pa : Nat) : Bool := place != .here || 2 ^ 40 ≤ pa

/-- One count of a forwarded region, and the hint record when the threshold is reached (R381). -/
def State.countRegion (s : State) (ctx va : Nat) (place : Place) (pa : Nat) (write : Bool) : State :=
  let region := va / 65536
  let quiet := (match s.m.page.move with
    | some v => v.ctx == ctx && v.region == region
    | none => false) || s.m.page.settled.any fun y => y.1 == ctx && y.2.1 == region
  if !forwarded place pa || quiet then s
  else
    let i := (region + 16 * ctx) % 2048
    let new : RegionCounter := { index := i, ctx := ctx, region := region, reads := 0, writes := 0 }
    let c := match s.m.page.counters.find? (·.index == i) with
      | some c => if c.ctx == ctx && c.region == region then c else new
      | none => new
    let c := if write then { c with writes := c.writes + 1 } else { c with reads := c.reads + 1 }
    let thr := Nat.max 1 s.m.page.hintthr
    let due := thr ≤ c.reads + c.writes
    let keep := if due then { c with reads := 0, writes := 0 } else c
    let s := s.modify fun m =>
      { m with page := { m.page with counters := putBy (·.index == i) keep m.page.counters } }
    let p := s.m.page
    if !due || !p.hinten then s
    else
      let n := 2 ^ ((p.hintbase.toNat % 16) + 6)
      if (p.hinttail.toNat + 1) % n == p.hinthead.toNat % n then
        let d := if p.hintdrop == 0xFFFFFFFF then p.hintdrop else p.hintdrop + 1
        s.modify fun m => { m with page := { m.page with hintdrop := d } }
      else
        let (kind, owner) := match place with
          | .here => (1, 0)
          | .module k => (2, k)
          | .host => (3, 0)
        let rec_ := bytesOfNat 8 s.m.cycle ++ bytesOfNat 8 (region * 65536) ++ bytesOfNat 4 c.reads
          ++ bytesOfNat 4 c.writes ++ bytesOfNat 1 ctx ++ bytesOfNat 1 kind ++ bytesOfNat 2 owner ++ bytesOfNat 4 0
        let s := s.busWrite (p.hintbase.toNat / 4096 * 4096 + 32 * p.hinttail.toNat) rec_
        let t := BitVec.ofNat 32 ((p.hinttail.toNat + 1) % n)
        s.modify fun m => { m with page := { m.page with hinttail := t } }

/-- The bytes of an address range as the homes hold them. -/
def State.homeRead (s : State) (pa n : Nat) : List Byte :=
  (List.range n).map fun i =>
    let a := pa + i
    match s.l2Line? (homeSlice a) (lineOf a) with
    | some l => (l.sectors.toArray.getD (sectorOf a) 0).extractLsb' (8 * (a % 32)) 8
    | none => Memory.read s.mem a

/-- The bytes of a range as the module's units read them: their own earlier writes stand before those of the homes. -/
def State.unitBytes (s : State) (pa n : Nat) : List Byte :=
  let ws := s.unitWrites
  if ws.isEmpty then s.homeRead pa n
  else (List.range n).map fun i => match (ws.filter (·.1 == pa + i)).getLast? with
    | some w => w.2
    | none => (s.homeRead (pa + i) 1).getD 0 0

/-- Poison of the sector at its home (R157). -/
def State.homePoison (s : State) (pa : Nat) : Bool :=
  match s.l2Line? (homeSlice pa) (lineOf pa) with
  | some l => l.poison.getLsbD (sectorOf pa)
  | none => s.memPoison.contains (pa / 32 * 32)

/-- Poison of a sector as the module's units read it, behind their own earlier writes. -/
def State.unitPoison (s : State) (pa : Nat) : Bool :=
  s.unitPending.foldl (fun p w =>
    if !(w.1.any fun c => c.1 / 32 == pa / 32) then p else w.2 || (p && w.1.length != 32)) (s.homePoison pa)

/-- The first poisoned sector of a range. -/
def State.homePoisonIn (s : State) (pa n : Nat) : Option Nat :=
  ((List.range ((pa + n + 31) / 32 - pa / 32)).map fun i => 32 * (pa / 32 + i)).find? s.homePoison

/-- A poisoned sector of a line in a packet: 0 none, else one more than its place in the line. -/
def poisonByte (u : Option Nat) : Byte :=
  match u with
  | some u => BitVec.ofNat 8 (1 + sectorOf u)
  | none => 0

/-! ## Counters (R281, R282, R284) -/

/-- The counter that a begun WAIT watches (R281). -/
def Queue.watches (q : Queue) : Option Nat :=
  match q.begun with
  | some bs => if fieldAt bs 0 1 == 2 then some (fieldAt bs 8 8) else none
  | none => none

/-- Every WAIT on a counter of a context reads it again in the next cycle (R284). -/
def State.notifyWaits (s : State) (ctx va : Nat) : State :=
  s.modify fun m => { m with queues := m.queues.map fun q =>
    if q.st == .blocked && q.ctx == ctx && q.watches == some va then 
      { q with notified := if q.notified.contains (m.cycle + 1) then q.notified else q.notified ++ [m.cycle + 1] }
    else q }

/-- A unit's write has been performed: the ring write of a `qpost` is one of its thread's operations (R172, R287). -/
def State.unitDone (s : State) : UnitJob → State
  | .post t tok => s.performed t tok
  | _ => s

/-- The answer to the read of a queue in another owner's memory; none: it was given up, and is made again (R279, R284). -/
def State.unitAnswer (s : State) (queue id : Nat) (bs : Option (List Byte)) : State :=
  s.updQueue queue fun q => if q.asked == some id then { q with asked := none, answer := bs } else q

/-- A counter's change has been performed (R282, R284): WAITs on it are told, and so is the queue whose SIGNAL it is. -/
def State.counterDone (s : State) (job : CounterJob) (ctx va : Nat) : State :=
  let s := s.notifyWaits ctx va
  match job with
  | .signal n => s.updQueue n fun q => { q with performed := true }
  | .completion _ => s

/-! ## Leases (R377) -/

/-- The access is one of a scratchpad. -/
def Access.scratch (a : Access) : Bool := a.space == 1 || a.space == 2

/-- The access reads only. -/
def Access.isLoad (a : Access) : Bool :=
  match a.op with
  | .load | .prefetch _ => true
  | _ => false

/-- What the access needs of its page (R376). -/
def Access.need (a : Access) : Need :=
  { r := a.isLoad || (match a.op with
      | .atomic .. => a.result.isSome
      | _ => false),
    w := !a.isLoad, x := false }

/-- The lease of the access's translation is over. -/
def Access.overdue (a : Access) (now : Nat) : Bool := !a.scratch && a.lease ≤ now

/-- An access that outlived its translation looks its page up again before its transfer begins (R377); a prefetch has no
effect (R174). -/
def State.relook (s : State) (a : Access) : State :=
  match a.op with
  | .prefetch _ => s.accessDone a
  | _ => s.sendAt (s.m.cycle + 6) (.probe a.hub a.ctx a.va { core := a.core, who := .access a, need := a.need })

/-- The access that a requester of a translation is. -/
def MergeWaiter.access (w : MergeWaiter) : Option Access :=
  match w.who with
  | .access a => some a
  | _ => none

/-- The accesses of a hub that look their pages up again. -/
def State.relooking (s : State) (hub : Nat) : List Access :=
  let h := s.hub hub
  let probes := s.m.flight.filterMap fun f => match f.msg with
    | .probe n _ _ w => if n == hub then some w else none
    | _ => none
  (probes ++ h.merges.flatMap (fun e => e.records ++ e.overflow) ++ h.mergeQueue
    ++ (s.m.page.waiting.filter (·.1 == hub)).map (·.2)).filterMap (·.access)

/-! ## Sending to a home -/

/-- The spoke port that carries packets for a module; 0: none (R393). -/
def State.route (s : State) (m : Nat) : Nat := (Memory.read s.routes m).toNat % 64

/-- MEM_ERROR in the team of a thread's access (R157, R264, R393). -/
def State.accessError (s : State) (a : Access) (addr : Nat) : State :=
  s.lateFatal a.left Cause.memError (BitVec.ofNat 64 addr)

/-- COPY_FAULT (R189), BARRIER_MISUSE of a landing sector (R362), or MEM_ERROR of a copy whose packet cannot be sent
(R393): the copy's team ends, with one record. -/
def State.failCopy (s : State) (x : Copy) (cause : Nat) (addr : Nat) : State :=
  let k := s.kernel? x.kernel
  let ones : Dword := BitVec.allOnes 64
  let hub := ((s.team? x.team).map (·.hub)).getD 256
  let key := match x.by_ with
    | some t => [hub, 0, x.core, x.quarter, t.lane]
    | none => [hub, 1, x.team.team]
  let r : RecordReq :=
    { key := key, ctx := x.ctx, kernel := x.kernel, pc := if x.dynamic then addr57 x.pc else 0,
      addr := addr57 (BitVec.ofNat 64 addr), lineage := if x.by_.isSome then x.lineage else ones,
      corr := (k.map fun k => lowHalf k.corr).getD 0, team := BitVec.ofNat 32 x.team.team,
      knum := (k.map (·.knum)).getD 0, gang := (x.by_.map (·.gang)).getD 0xFFFF, lane := (x.by_.map (·.lane)).getD 0xFF,
      cause := cause, fatal := true, nested := false,
      isolated := match s.launch? x.kernel with
        | some l => l.iso
        | none => false,
      detail := 0, word0 := 0, cycle := s.m.cycle }
  ((s.addRecord r).endTeam x.team).kernelFault x.kernel cause

/-- A request that cannot be sent ends its accesses' teams (R393). A write-back belongs to no access any more, and
a counter's change to none: its hub or queue goes on (log entry 14). -/
def State.unroutable (s : State) (r : HomeReq) : State :=
  match r.back with
  | .access a => s.accessError a r.pa
  | .fill hub place =>
    let h := s.hub hub
    let mine := fun (f : FillWait) => f.place == place && f.line == lineOf r.pa
    let ws := (h.fills.filter mine).flatMap fun f => f.waiters.map (·.2)
    ws.foldl (fun s a => s.accessError a r.pa) (s.setHub { h with fills := h.fills.filter (!mine ·) })
  | .copyRead hub id | .copyWrite hub id => match (s.hub hub).copies.find? (·.id == id) with
    | some x => s.failCopy x Cause.memError r.pa
    | none => s
  | .writeBack hub place line k => s.send .toHub (.wbAck hub place line k none)
  | .counter job _ ctx va _ => s.counterDone job ctx va
  | .unit job _ => s.unitDone job
  | .unitRead queue _ => s.unitAnswer queue r.id none
  | _ => s

/-- The code of a rounding mode in a packet. -/
def roundingCode (m : Rnd) : Nat :=
  match m with
  | .rne => 0
  | .rz => 1
  | .ru => 2
  | .rd => 3
  | .rs => 4

/-- A request as a packet to another owner. -/
def HomeReq.packet (r : HomeReq) : List Byte :=
  match r.op with
  | .line => Machine.packet Packet.readLine r.id r.pa []
  | .read | .touch => Machine.packet Packet.read r.id r.pa (bytesOfNat 2 r.size ++ [flagByte r.rmt])
  | .write bs v p => Machine.packet Packet.write r.id r.pa (writeBody r.pa bs v p)
  | .atomic op ty x y mode => Machine.packet Packet.atomic r.id r.pa
      (bytesOfNat 1 op ++ bytesOfNat 1 ty ++ bytesOfNat 1 r.size ++ bytesOfNat 1 (roundingCode mode) ++ bytesOfDword x
        ++ bytesOfDword y ++ [flagByte r.rmt])

/-- The hub and entry of a translation request's number. -/
def State.findMerge (s : State) (req : Nat) : Option (Nat × MergeRec) :=
  s.m.hubs.findSome? fun h => (h.merges.find? (·.req == req)).map fun e => (h.hub, e)

/-- A non-posted request goes to the host under a tag: a Translation Request of an entry (R369), or an access. -/
def State.hostRequest (s : State) (id tag : Nat) : State :=
  match s.m.remote.find? (·.id == id), s.findMerge id with
  | some r, _ => s.emit 0 ({ r with id := tag } : HomeReq).packet id
  | none, some (hub, e) =>
    let c := s.context e.ctx
    (s.count hub 14 1).emit 0 (packet Packet.translation id (e.page * 4096) (bytesOfNat 4 c.pasid
      ++ bytesOfNat 1 ((if c.priv then 1 else 0) + (if e.need.x then 2 else 0) + (if e.need.w then 0 else 4)))) id
  | none, none => s

/-- The lowest of the 768 tags that no request holds (R389). -/
def State.freeTag (s : State) : Option Nat := (List.range 768).find? fun t => !(s.m.hostTags.any (·.1 == t))

/-- A request that has not left goes through a translation whose lease is over (R377). -/
def State.outlived (s : State) (r : HomeReq) : Bool :=
  let now := s.m.cycle
  let page := fun (hub id : Nat) (pick : Copy → Option Tlb) =>
    ((s.hub hub).copies.find? (·.id == id)).any fun x => (pick x).any (·.leaseEnd ≤ now)
  match r.back with
  | .access a => a.overdue now
  | .fill hub _ => ((s.hub hub).fills.find? (·.req == r.id)).any fun f => f.waiters.any (·.2.overdue now)
  | .copyRead hub id => page hub id (·.srcPage)
  | .copyWrite hub id => page hub id (·.dstPage)
  | _ => false

/-- A request that has not left is given up: what asked for it looks its page up again (R377). -/
def State.recall (s : State) (r : HomeReq) : State :=
  let s := s.modify fun m =>
    { m with remote := m.remote.filter (·.id != r.id), hostQueue := m.hostQueue.filter (· != r.id) }
  match r.back with
  | .access a => s.relook a
  | .fill hub _ => s.updHub hub fun h => { h with fills := updBy (·.req == r.id) (fun f => { f with sent := false }) h.fills }
  | .copyRead hub id => s.updHub hub fun h =>
      { h with copies := updBy (·.id == id) (fun x => { x with asked := false, srcPage := none }) h.copies }
  | .copyWrite hub id => s.updHub hub fun h =>
      { h with copies := updBy (·.id == id) (fun x => { x with writing := 0, dstPage := none }) h.copies }
  | _ => s

/-- The requests that wait for a tag go out, the oldest first, while there is one (R389). -/
def State.hostSends (s : State) : State :=
  s.m.hostQueue.foldl (fun s id => match s.freeTag, s.m.remote.find? fun r => r.id == id && s.outlived r with
    | _, some r => s.recall r
    | some t, none => (s.modify fun m =>
        { m with hostTags := (t, id) :: m.hostTags, hostQueue := m.hostQueue.filter (· != id) }).hostRequest id t
    | none, none => s) s

/-- A non-posted request for the host. -/
def State.askHost (s : State) (id : Nat) : State :=
  (s.modify fun m => { m with hostQueue := m.hostQueue ++ [id] }).hostSends

/-- A non-posted request is answered or given up: its tag is free. -/
def State.hostDone (s : State) (id : Nat) : State :=
  (s.modify fun m => { m with hostTags := m.hostTags.filter (·.2 != id), hostQueue := m.hostQueue.filter (· != id) }).hostSends

/-- A posted request to the host has left, and nothing answers it (R226): what waited for it goes on. -/
def State.posted (s : State) (r : HomeReq) : State :=
  match r.back with
  | .access a => s.send .toHub (.accessAck a [] none none)
  | .copyWrite hub id => s.send .toHub (.copyLanded hub id)
  | .writeBack hub place line k => s.send .toHub (.wbAck hub place line k none)
  | .unit job _ => s.unitDone job
  | _ => s

/-- Sends a request towards its home: a slice of this module, or through a port for another owner (R170,
R389, R393). The bytes on a port are the model's packet of log entry 13. -/
def State.sendHome (s : State) (place : Place) (r : HomeReq) : State :=
  let away := s.modify fun m => { m with remote := m.remote ++ [r] }
  match place with
  | .here => s.send .toHome (.home r)
  | .module n => if s.route n == 0 then s.unroutable r else away.emit (s.route n) r.packet r.id
  | .host => match r.op with
    | .write .. => if s.portSends 0 then (s.emit 0 r.packet).posted r else away.emit 0 r.packet r.id
    | _ => away.askHost r.id

/-- A request of a hub for a sector or line. -/
def State.requestHome (s : State) (hub : Nat) (place : Place) (pa size : Nat) (op : HomeOp) (back : Back)
    (rmt : Bool := false) (replica : Option (Nat × Nat) := none) : State :=
  let (id, s) := s.newId
  s.sendHome place { id := id, link := dieOf hub, hub := hub, pa := pa, size := size, op := op, back := back,
                     rmt := rmt, replica := replica }

/-! ## L1 lines -/

def Hub.line? (h : Hub) (place : Place) (pa : Nat) : Option L1Line :=
  h.l1.find? fun l => l.place == place && l.pa == lineOf pa
def Hub.setLine (h : Hub) (x : L1Line) : Hub :=
  { h with l1 := putBy (fun l => l.place == x.place && l.pa == x.pa) x h.l1 }
def Hub.dropLine (h : Hub) (place : Place) (line : Nat) : Hub :=
  { h with l1 := h.l1.filter fun l => !(l.place == place && l.pa == line) }

/-- The generation current for a class (R149). -/
def Hub.gen (h : Hub) (classM : Bool) : Nat := if classM then h.cm else h.cd
/-- A line is fresh (R149). -/
def Hub.fresh? (h : Hub) (l : L1Line) : Bool :=
  match l.gen with
  | some g => g == h.gen l.classM
  | none => true

def L1Line.sector (l : L1Line) (k : Nat) : L1Sector :=
  l.sectors.toArray.getD k { data := 0, mask := 0, version := none, waiting := false, poison := false }
def L1Line.dirty (l : L1Line) : Bool := l.sectors.toList.any (·.mask != 0)
/-- Some write-back of the line is unacknowledged (R147). -/
def Hub.unacked (h : Hub) (place : Place) (line : Nat) : Bool := h.writeBacks.any fun w => w.place == place && w.line == line

/-- The bytes a write-back carries (R213). -/
def L1Sector.dirtyBytes (x : L1Sector) (base : Nat) : List (Nat × Byte) :=
  (List.range 32).filterMap fun i =>
    if x.mask.getLsbD i then some (base + i, x.data.extractLsb' (8 * i) 8) else none

/-- Writes back one dirty sector of a line and marks it clean (R148, R192). -/
def State.writeBackSector (s : State) (hub : Nat) (l : L1Line) (k : Nat) : State :=
  let x := l.sector k
  if x.mask == 0 then s
  else
    let mine := fun (w : WriteBack) => w.place == l.place && w.line == l.pa && w.sector == k
    let s := s.updHub hub fun h =>
      { h with writeBacks := match h.writeBacks.find? mine with
          | some w => putBy mine { w with count := w.count + 1 } h.writeBacks
          | none => h.writeBacks ++ [{ place := l.place, line := l.pa, sector := k, count := 1 }],
               l1 := updBy (fun y => y.place == l.place && y.pa == l.pa)
                 (fun y => { y with sectors := y.sectors.setIfInBounds k { y.sector k with mask := 0 } }) h.l1 }
    s.requestHome hub l.place (l.pa + 32 * k) 32 (.write (x.dirtyBytes (l.pa + 32 * k)) x.version x.poison)
      (.writeBack hub l.place l.pa k)

/-- Writes back every dirty sector of a line: one write-back for its region's counter (R381). -/
def State.writeBackLine (s : State) (hub : Nat) (l : L1Line) : State :=
  let s := if (List.range 4).all fun k => (l.sector k).mask == 0 then s else s.countRegion l.ctx l.va l.place l.pa true
  (List.range 4).foldl (fun s k => s.writeBackSector hub l k) s

/-- Writes back and invalidates the hub's copy of a line, if it holds one. -/
def State.purgeLine (s : State) (hub : Nat) (place : Place) (pa : Nat) : State :=
  match (s.hub hub).line? place pa with
  | some l => (s.writeBackLine hub l).updHub hub (·.dropLine place l.pa)
  | none => s

/-- The accesses that wait for a fill not yet sent and have outlived their translations look their pages up again (R377). -/
def State.shedLate (s : State) (hub : Nat) (place : Place) (line : Nat) : State :=
  let h := s.hub hub
  let mine := fun (f : FillWait) => f.place == place && f.line == line && !f.sent
  let late := ((h.fills.filter mine).flatMap (·.waiters)).filter (·.2.overdue s.m.cycle)
  if late.isEmpty then s
  else
    let stay : FillWait → FillWait := fun f => { f with waiters := f.waiters.filter (!·.2.overdue s.m.cycle) }
    late.foldl (fun s w => s.relook w.2) (s.setHub { h with
      fills := (updBy mine stay h.fills).filter fun f => !(mine f && f.waiters.isEmpty) })

/-- Sends the fill of a line once no write-back of the line is unacknowledged (R147, R150). Every access that waits by now
is answered by it. -/
def State.trySendFill (s : State) (hub : Nat) (place : Place) (line : Nat) : State :=
  let s := s.shedLate hub place line
  let h := s.hub hub
  match h.fills.find? fun f => f.place == place && f.line == line && !f.sent with
  | none => s
  | some f =>
    if h.unacked place line then s
    else
      let g := h.gen f.classM
      let s := match f.waiters with
        | (_, a) :: _ => s.countRegion a.ctx a.va place line false
        | [] => s
      let rep := match f.waiters with
        | (_, a) :: _ => if a.rep then some (dieOf hub, a.thread.kid) else none
        | [] => none
      let f := { f with sent := true, gen := g, req := s.m.nextId, rep := rep.isSome
                        waiters := f.waiters.map fun w => (g, w.2) }
      let s := s.updHub hub fun h =>
        { h with fills := putBy (fun x => x.place == place && x.line == line) f h.fills }
      s.requestHome hub place line 128 .line (.fill hub place) false rep

/-- A fill of the line is on its way, with earlier accesses that wait for it (R142). -/
def Hub.filling (h : Hub) (a : Access) : Bool := h.fills.any fun f => f.place == a.place && f.line == lineOf a.pa

/-- An access waits for a fill of its line, and for the one in flight where there is one (R149, R195). -/
def Hub.awaitFill (h : Hub) (a : Access) : Hub :=
  let line := lineOf a.pa
  let classM := a.place != .here
  let g := h.gen classM
  if h.filling a then
    { h with fills := updBy (fun f => f.place == a.place && f.line == line)
               (fun f => { f with waiters := f.waiters ++ [(g, a)] }) h.fills }
  else { h with fills := h.fills ++ [{ place := a.place, line := line, sent := false, classM := classM, gen := g, req := 0,
                                       rep := false, waiters := [(g, a)] }] }

/-- An access misses: stale dirty sectors are written back, and the access waits for a fill of the line
(R147, R149). An access is answered by a fill in flight only when it was sent under the current generation. -/
def State.miss (s : State) (a : Access) : State :=
  let s := match (s.hub a.hub).line? a.place a.pa with
    | some l => s.writeBackLine a.hub l
    | none => s
  (s.updHub a.hub (·.awaitFill a)).trySendFill a.hub a.place (lineOf a.pa)

/-- The fill is one of `kc`, whose lines carry no generation (R149). -/
def FillWait.kc (f : FillWait) : Bool := f.waiters.any fun w => w.2.space == 4

/-- The fill in flight of a line is dropped and sent again, behind what the hub has just sent for the line (R151, R223). -/
def Hub.refill (h : Hub) (mine : FillWait → Bool) : Hub :=
  { h with fills := updBy (fun f => f.sent && mine f) (fun f => { f with sent := false }) h.fills }

/-! ## Results to threads -/

/-- A result returns to its pending entry after a latency (R59); poisoned data brings MEM_ERROR (R157). -/
def State.answer (s : State) (k : Config.Lat) (a : Access) (bs : List Byte) (poisoned : Option Nat) : State :=
  match a.result with
  | some ty => s.send k (.result a.thread a.tok (extendLoad ty bs) (poisoned.map fun u => (u, a.pc, a.word0)))
  | none => s

/-- One part of an acquire is complete. -/
def WaitFor.acquired : WaitFor → Nat → WaitFor
  | .acquire toks, tok => .acquire (toks.filter (· != tok))
  | w, _ => w

/-- The acquire part of an access that has been performed asks for its bump (R150, R161). -/
def State.afterPerformed (s : State) (a : Access) : State :=
  let s := s.accessDone a
  if (a.ord == 1 || a.ord == 3) && a.scope ≥ 2 then
    s.updHub a.hub fun h => { h with bumps := h.bumps ++
      [{ thread := some a.thread, tok := a.tok, classD := true, classM := a.scope ≥ 3 }] }
  else s.updThread a.thread fun t => { t with wait := t.wait.acquired a.tok }

/-- A tack entry that is still in its table is confirmed (R195, R196). -/
def State.confirmTack (s : State) (hub : Nat) (r : ThreadRef) (tok : Nat) : State :=
  let h := s.hub hub
  match (List.range 4).find? fun c => (h.cores.toArray.getD c Core.fresh).tacks.any fun e => e.tok == tok && e.thread == r with
  | some c => s.settleTack hub c tok true
  | none => s

/-! ## Performing at the L1 slice -/

/-- Bytes of a sector from the offset of an access. -/
def sectorSlice (x : BitVec 256) (pa n : Nat) : List Byte :=
  (List.range n).map fun i => x.extractLsb' (8 * (pa % 32 + i)) 8

/-- The mask of n bytes at an offset of a sector. -/
def byteMask (off n : Nat) : BitVec 32 := BitVec.ofNat 32 ((2 ^ n - 1) * 2 ^ off)

/-- The line of an access as it stood in an earlier state, else as it stands now. -/
def State.seenLine (seen : State) (a : Access) (l : L1Line) : L1Line := ((seen.hub a.hub).line? a.place a.pa).getD l

/-- Performs an access on the line its slice holds (R164, R166, R171). A load reads the bytes of the state seen, which stood
before the cycle's sequence (R167). -/
def State.performL1 (s : State) (a : Access) (l : L1Line) (seen : State := s) : State :=
  let k := sectorOf a.pa
  let x := l.sector k
  let old := sectorSlice x.data a.pa a.size
  let (n, s) := s.newId
  let write := fun (s : State) (bs : List Byte) =>
    let clean := !l.dirty
    let x' := { x with data := setSectorBytes x.data (a.pa % 32) bs,
                       mask := x.mask ||| byteMask (a.pa % 32) bs.length,
                       poison := x.poison && bs.length != 32 }
    let l' := { l with use := n, sectors := l.sectors.setIfInBounds k x' }
    let s := s.updHub a.hub (·.setLine l')
    if clean && a.place == .here then s.send .toHome (.notice a.hub l.pa) else s
  let s := s.updHub a.hub (·.setLine { l with use := n })
  let poisoned := if x.poison then some (l.pa + 32 * k) else none
  match a.op with
  | .load =>
    let y := (seen.seenLine a l).sector k
    (s.answer .l1 a (sectorSlice y.data a.pa a.size) (if y.poison then some (l.pa + 32 * k) else none)).afterPerformed a
  | .prefetch _ | .trans .. => s.accessDone a
  | .store bs => (write s bs).afterPerformed a
  | .atomic op ty v w mode =>
    let o := BitVec.ofNat 64 (natOfBytes old)
    let new := atomicResult op ty o v w mode
    let s := write s (bytesOfNat a.size new.toNat)
    (s.answer .l1 a old poisoned).afterPerformed a

/-- The sector an access touches is marked waiting (R162). -/
def Hub.waitingSector (h : Hub) (a : Access) : Bool :=
  match h.line? a.place a.pa with
  | some l => (l.sector (sectorOf a.pa)).waiting
  | none => false

/-- A check travels to the home slice of its line, or to the module that owns it (R194). -/
def State.sendCheck (s : State) (a : Access) (c : TackMsg) : State :=
  match a.place with
  | .module n =>
    if s.route n == 0 then s.accessError a c.pa
    else s.emit (s.route n) (packet Packet.tackCheck c.tok c.pa (bytesOfNat 2 c.tag.toNat ++ bytesOfNat 2 c.version.toNat)) c.tok
  | _ => s.send .toHome (.check c)

/-- A tack load at the slice (R194, R195): it joins a fill in flight, takes the data of a versioned sector, fresh or stale,
and sends its check, or misses. Its use of the line counts in the recency order as a hit's does (R147). -/
def State.tackAtL1 (s : State) (a : Access) (seen : State := s) : State :=
  let h := s.hub a.hub
  let k := sectorOf a.pa
  if h.filling a then (s.setHub (h.awaitFill a)).count a.hub 5 1
  else match h.line? a.place a.pa with
    | some l =>
      let x := l.sector k
      match x.version with
      | some v =>
        let note : TackEntry → TackEntry := fun e =>
          if e.tok == a.tok && e.thread == a.thread then { e with tag := l.tag, version := v } else e
        let (n, s) := s.newId
        let noted : Hub := { h with cores := h.cores.map fun c => { c with tacks := c.tacks.map note } }
        let s := (s.setHub (noted.setLine { l with use := n })).count a.hub 4 1
        let y := (seen.seenLine a l).sector k
        let s := s.answer .l1 a (sectorSlice y.data a.pa a.size) (if y.poison then some (l.pa + 32 * k) else none)
        (s.sendCheck a { hub := a.hub, core := a.core, tok := a.tok, pa := l.pa + 32 * k, va := a.va, ctx := a.ctx, tag := l.tag,
                         version := v }).accessDone a
      | none => (s.count a.hub 5 1).miss a
    | none => (s.count a.hub 5 1).miss a

/-- An access that is performed at its home or beyond (R162, R164, R171, R197): the hub's dirty sectors of
the line go back first and are acknowledged before it leaves, a release store's own line too (DEDUCED, log entry 95). A
release marks the hub's copy, an atomic drops it, and so does a degraded tack load, since the thread's later reads may not
return an older copy (R216; log entry 95). -/
def State.accessAtHome (s : State) (a : Access) : State :=
  let drops := a.degraded || (match a.op with
    | .atomic .. => true
    | _ => false)
  let s := if drops then s.purgeLine a.hub a.place a.pa
    else match (s.hub a.hub).line? a.place a.pa with
      | some l => s.writeBackLine a.hub l
      | none => s
  if (s.hub a.hub).unacked a.place (lineOf a.pa) then
    s.updHub a.hub fun h => { h with held := h.held ++ [a] }
  else
    let s := match a.op with
      | .store _ => s.updHub a.hub fun h => match h.line? a.place a.pa with
        | some l =>
          let x := { l.sector (sectorOf a.pa) with waiting := true }
          h.setLine { l with sectors := l.sectors.setIfInBounds (sectorOf a.pa) x }
        | none => h
      | _ => s
    let carried := match (s.hub a.hub).line? a.place a.pa with
      | some l => (l.sector (sectorOf a.pa)).version
      | none => none
    let op := match a.op with
      | .load | .prefetch _ | .trans .. => HomeOp.read
      | .store bs => .write ((List.range bs.length).map fun i => (a.pa + i, bs.getD i 0)) carried false
      | .atomic op ty x y mode => .atomic op ty x y mode
    let s := if a.place == .host then s.countRegion a.ctx a.va a.place a.pa (!(a.op == .load)) else s
    s.requestHome a.hub a.place a.pa a.size op (.access a) a.rmt

/-- The access is performed at its home or beyond rather than at the slice (R163, R171, R197). -/
def Access.atHome (a : Access) : Bool :=
  a.degraded || (a.scope ≥ 2 && (a.ord != 0 || (match a.op with
    | .atomic .. => true
    | _ => false))) || a.place == .host

/-- An access of the hub to the line waits ahead (R142). -/
def Hub.heldLine (h : Hub) (a : Access) : Bool :=
  h.held.any fun x => x.place == a.place && lineOf x.pa == lineOf a.pa && x.scratch == a.scratch

/-- Presents a `gl`, `pv` or `kc` access to its slice (R146, R149, R164, R166). An access to a line with a fill on its way
waits for it behind the earlier ones (R142). -/
def State.presentL1 (s : State) (a : Access) (seen : State := s) : State :=
  let h := s.hub a.hub
  if a.overdue s.m.cycle then s.relook a
  else if h.waitingSector a || (a.atHome && h.filling a) then s.setHub { h with held := h.held ++ [a] }
  else if a.tack && !a.degraded && a.place != .host then s.tackAtL1 a seen
  else if a.atHome then s.accessAtHome a
  else match a.op with
    | .prefetch true =>
      let s := s.countRegion a.ctx a.va a.place a.pa false
      (s.requestHome a.hub a.place (lineOf a.pa) 128 .touch .none false
        (if a.rep then some (dieOf a.hub, a.thread.kid) else none)).accessDone a
    | _ =>
      if h.filling a then (s.setHub (h.awaitFill a)).count a.hub 5 1
      else match h.line? a.place a.pa with
        | some l => if h.fresh? l then (s.count a.hub 4 1).performL1 a l seen else (s.count a.hub 5 1).miss a
        | none => (s.count a.hub 5 1).miss a

/-! ## Scratchpads -/

/-- Presence of the lines an `hs` access touches (R155). -/
def Team.present (t : Team) (off n : Nat) : Bool :=
  t.counts.all fun c => !(c.1 * 128 < off + n && off < c.1 * 128 + 128)

/-! ## Transaction barriers at the scratchpad (R359 to R362) -/

/-- A phase as it stood before the updates of this cycle (R355, R363). -/
def State.phaseBefore (s : State) (key : List Nat) (now : Nat) : Nat :=
  ((s.m.before.find? (·.1 == key)).map (·.2)).getD now
/-- Notes the phase before the first update of a cycle. -/
def State.noteBefore (s : State) (key : List Nat) (phase : Nat) : State :=
  if s.m.before.any (·.1 == key) then s else s.modify fun m => { m with before := (key, phase) :: m.before }

/-- The fields of the 16 bytes (R359). -/
structure TransBarrier where
  reserved : Nat
  psect : Int
  expa : Nat
  parr : Nat
  phase : Nat
deriving DecidableEq, Repr

def TransBarrier.ofNat (x : Nat) : TransBarrier :=
  { reserved := x / 2 ^ 76 % 2 ^ 52, psect := (BitVec.ofNat 32 (x / 2 ^ 44)).toInt, expa := x / 2 ^ 24 % 2 ^ 20,
    parr := x / 16 % 2 ^ 20, phase := x % 16 }
def TransBarrier.toNat (b : TransBarrier) : Nat :=
  b.reserved * 2 ^ 76 + (BitVec.ofInt 32 b.psect).toNat * 2 ^ 44 + b.expa * 2 ^ 24 + b.parr * 16 + b.phase

/-- advance (R361). -/
def TransBarrier.advance (b : TransBarrier) : TransBarrier :=
  if b.parr == 0 && b.psect == 0 then { b with phase := (b.phase + 1) % 16, parr := b.expa } else b

/-- tb_init, tb_arr, tb_exp with the operand; none: BARRIER_MISUSE (R361). -/
def TransBarrier.apply (b : TransBarrier) (op x : Nat) : Option TransBarrier :=
  match op with
  | 0 => if x == 0 || x ≥ 2 ^ 20 then none
    else some { reserved := 0, psect := 0, expa := x, parr := x, phase := 0 }
  | 1 => if b.reserved != 0 || b.parr == 0 then none else some (TransBarrier.advance { b with parr := b.parr - 1 })
  | 2 => if b.reserved != 0 || b.psect + x > 2 ^ 31 - 1 then none
    else some (TransBarrier.advance { b with psect := b.psect + x })
  | _ => if b.reserved != 0 then none else some b

/-- A landing sector's decrement (R362); none: BARRIER_MISUSE. -/
def TransBarrier.land (b : TransBarrier) : Option TransBarrier :=
  if b.psect - 1 < -(2 ^ 31 : Nat) then none else some (TransBarrier.advance { b with psect := b.psect - 1 })

/-- BARRIER_MISUSE that the scratchpad finds in a packet's operations on transaction barriers: it is raised in every thread
of the packet, and ends their teams (R361, R366). -/
def State.transMisuse (s : State) (as : List Access) : State :=
  as.foldl (fun s a => s.lateFatal a.left Cause.barrierMisuse 0) s

/-- Some operation of a packet on a transaction barrier is misuse, as the operations ahead of it leave the barriers (R361). -/
def State.misuses (s : State) : List Access → Bool
  | [] => false
  | a :: as => match a.op with
    | .trans op v => match (TransBarrier.ofNat (natOfBytes (s.winRead a.pa a.size))).apply op v with
      | some b => (s.winWrite a.pa (bytesOfNat 16 b.toNat)).misuses as
      | none => true
    | _ => s.misuses as

/-- A load of a thread parked on the absence of its lines (R156): the thread parks on the result now. -/
def Thread.linesCame (t : Thread) (tok : Nat) : Thread :=
  if t.st == .parked 2 && (t.out.getLast?.map (·.tok)) == some tok then { t with st := .parked 1 } else t

/-- Performs an `hs` or `ks` access at its scratchpad (R164, R166, R171). A load reads the bytes of the state seen, which
stood before the cycle's sequence (R167). -/
def State.performScratch (s : State) (a : Access) (seen : State := s) : State :=
  let old := s.winRead a.pa a.size
  let poisoned := s.winPoisoned a.pa a.size
  match a.op with
  | .load =>
    let ready := match s.team? a.thread.teamRef with
      | some t => a.space != 1 || t.present a.ea a.size
      | none => true
    if ready then
      ((s.updThread a.thread (·.linesCame a.tok)).answer .scratch a (seen.winRead a.pa a.size)
        (seen.winPoisoned a.pa a.size)).afterPerformed a
    else s.updHub a.hub fun h => { h with absent := h.absent ++ [a] }
  | .prefetch _ => s
  | .trans op v =>
    let b := TransBarrier.ofNat (natOfBytes old)
    match b.apply op v with
    | some new => ((s.noteBefore [0, a.pa] b.phase).winWrite a.pa (bytesOfNat 16 new.toNat)).afterPerformed a
    | none => s.transMisuse [a]
  | .store bs => (s.winWrite a.pa bs).afterPerformed a
  | .atomic op ty x y mode =>
    let new := atomicResult op ty (BitVec.ofNat 64 (natOfBytes old)) x y mode
    ((s.winWrite a.pa (bytesOfNat a.size new.toNat)).answer .scratch a old poisoned).afterPerformed a

/-- An earlier release access of the thread to the line waits for its write-back (R142, R162). -/
def Hub.behindRelease (h : Hub) (a : Access) : Bool :=
  h.releases.any fun r => match r.cont with
    | .access x => x.tok < a.tok && x.thread == a.thread && x.space == a.space && x.place == a.place
        && lineOf x.pa == lineOf a.pa
    | _ => false

/-- A copy registered over the bytes of a write after the write was checked: it waits for the range's release (R178, R224). -/
def Hub.behindCopy (h : Hub) (a : Access) : Bool :=
  let meets := fun (r : RangeLock) => r.ended.isNone && h.copies.any (·.id == r.owner) &&
    if r.hs then a.space == 1 && r.lo < a.pa % 2 ^ 28 + a.size && a.pa % 2 ^ 28 < r.hi
    else !a.scratch && r.ctx == a.ctx && r.lo < a.va + a.size && a.va < r.hi
  !a.isLoad && h.locks.any meets

/-- An earlier access of the thread to the page looks it up again (R142, R377). -/
def State.behindLookup (s : State) (a : Access) : Bool :=
  (s.relooking a.hub).any fun x => x.tok < a.tok && x.thread == a.thread && x.ctx == a.ctx && x.va / 4096 == a.va / 4096

/-- A copy holds the bytes of a write that waited for a fill, or an earlier access of its thread to the line (R142, R224). -/
def Hub.yields (h : Hub) (a : Access) : Bool :=
  h.behindCopy a || h.held.any fun x => x.tok < a.tok && x.thread == a.thread && x.place == a.place && lineOf x.pa == lineOf a.pa

/-- Something keeps an access from its unit. -/
def State.keptBack (s : State) (a : Access) : Bool :=
  let h := s.hub a.hub
  h.behindRelease a || h.behindCopy a || h.heldLine a || s.behindLookup a

/-- Presents an access where its space is held (R136). -/
def State.present (s : State) (a : Access) (seen : State := s) : State :=
  if s.keptBack a then s.updHub a.hub fun h => { h with held := h.held ++ [a] }
  else if a.scratch then s.performScratch a seen
  else s.presentL1 a seen

/-- A session of the thread's context samples its accesses (R414, R416). -/
def State.sampling (s : State) (r : ThreadRef) : Bool :=
  (s.context (s.ctxOf r.kid)).traces.any fun x => x.mask.getLsbD 3

/-- An access reaches the hub: it is counted, and taken when the hub's count reaches the period and an entry is free
(R416). -/
def State.sample (s : State) (a : Access) : State :=
  if a.scratch || !s.sampling a.thread then s
  else
    let h := s.hub a.hub
    if h.sampleCount + 1 < h.samplePeriod then s.setHub { h with sampleCount := h.sampleCount + 1 }
    else
      let stale := match h.line? a.place a.pa with
        | some l => !h.fresh? l
        | none => false
      let new := match (List.range 64).find? fun i => !(h.samples.any (·.index == i)) with
        | some i => [({ index := i, acc := a, stale := stale, finish := none, l1 := 0, l2 := 0 } : SampleEntry)]
        | none => []
      s.setHub { h with sampleCount := 0, samples := h.samples ++ new }

/-- An access goes back into its core's port, in the place of its packet: packets stand in the order of their issue, and
within a cycle by quarter (R167). -/
def Hub.enterPort (h : Hub) (a : Access) : Hub :=
  let mate := fun (p : Nat × List Access) => p.1 == a.core && p.2.any fun x =>
    x.issued == a.issued && x.quarter == a.quarter && x.pc == a.pc && x.word0 == a.word0
  let later := fun (p : Nat × List Access) => p.1 == a.core && p.2.any fun x => lexLt [a.issued, a.quarter] [x.issued, x.quarter]
  { h with ports :=
      if h.ports.any mate then updBy mate (fun p => (p.1, p.2 ++ [a])) h.ports
      else h.ports.takeWhile (!later ·) ++ [(a.core, [a])] ++ h.ports.dropWhile (!later ·) }

/-- Retries the accesses a hub held for a waiting sector, an acknowledgement or a range; those of a scratchpad go through
their ports, with the cycle's merge. -/
def State.retryHeld (s : State) (hub : Nat) : State :=
  let h := s.hub hub
  let s := s.setHub ((h.held.filter (·.scratch)).foldl (·.enterPort ·) { h with held := [] })
  (h.held.filter (!·.scratch)).foldl (fun s a => s.present a) s

/-- The loads among the accesses that a merge has left waiting stand before the others of the merge: they see the bytes as
they stood before them (R167). -/
def Hub.loadsFirst (h before : Hub) : Hub :=
  let fills := h.fills.map fun f =>
    let n := match before.fills.find? fun x => x.place == f.place && x.line == f.line with
      | some x => x.waiters.length
      | none => 0
    let new := f.waiters.drop n
    { f with waiters := f.waiters.take n ++ new.filter (·.2.isLoad) ++ new.filter (!·.2.isLoad) }
  let new := h.held.drop before.held.length
  { h with fills := fills, held := h.held.take before.held.length ++ new.filter (·.isLoad) ++ new.filter (!·.isLoad) }

/-- A core's packet reaches the units: its accesses follow each other in lane order (R167), and an operation on a transaction
barrier that is misuse leaves the whole packet without effect (R366). -/
def State.mergePacket (s seen : State) (as : List Access) : State :=
  let trans := fun (a : Access) => (match a.op with
    | .trans .. => true
    | _ => false) && !s.keptBack a
  if s.misuses (as.filter trans) then s.transMisuse as
  else as.foldl (fun s a => s.present a seen) s

/-- The merge of one cycle on a hub: each core's port gives its oldest packet, and its accesses are counted (R416) and
presented in (core, quarter, lane) order (R146, R167). Fills that had to wait are sent after those of the merge. -/
def State.mergeHub (s : State) (hub : Nat) : State :=
  let s := s.retryHeld hub
  let h := s.hub hub
  let head := fun (c : Nat) => match h.ports.find? (·.1 == c) with
    | some p => sortKey (fun (a : Access) => [a.quarter, a.thread.lane]) p.2
    | none => []
  let drop := (List.range 4).foldl (fun ps c => match ps.findIdx? (fun p => p.1 == c) with
    | some i => ps.eraseIdx i
    | none => ps) h.ports
  let s := s.setHub { h with ports := drop }
  let s := ((List.range 4).flatMap head).foldl (fun s a => s.sample a) s
  let seen := s
  let s := (List.range 4).foldl (fun s c => s.mergePacket seen (head c)) s
  let s := s.updHub hub (·.loadsFirst (seen.hub hub))
  (s.hub hub).fills.foldl (fun s f => s.trySendFill hub f.place f.line) s

/-! ## Returns to the hub -/

/-- The way an L1 fill takes and its victim (R147). -/
def Hub.victim (h : Hub) (line : Nat) : Nat × Option L1Line :=
  let set := h.l1.filter fun l => l1Slice l.pa == l1Slice line && l1Set l.pa == l1Set line
  match (List.range 16).find? fun w => !(set.any (·.way == w)) with
  | some w => (w, none)
  | none => match leastBy (fun (l : L1Line) => [l.use]) set with
    | some l => (l.way, some l)
    | none => (0, none)

/-- The line a fill brings. What the hub's stores wrote into an older copy since it was clean stays (R213). -/
def FillWait.install (f : FillWait) (old : Option L1Line) (way use : Nat) (d : LineData) : L1Line :=
  let (va, ctx) := match f.waiters with
    | w :: _ => (lineOf w.2.va, w.2.ctx)
    | [] => (0, 0)
  { place := f.place, pa := f.line, way := way, classM := f.classM,
    gen := if f.kc then none else some f.gen,
    tag := d.tag, use := use, va := va, ctx := ctx,
    sectors := .ofFn fun i =>
      let o : L1Sector := match old with
        | some l => l.sector i.val
        | none => { data := 0, mask := 0, version := none, waiting := false, poison := false }
      { data := (o.dirtyBytes 0).foldl (fun x c => setSectorByte x c.1 c.2) d.sectors[i], mask := o.mask,
        version := some d.versions[i], waiting := o.waiting, poison := d.poison.getLsbD i.val || (o.poison && o.mask != 0) } }

/-- An access that waited for a fill goes on. A tack load takes the line as the accesses ahead of it have left it (R142) and
is CONFIRMED, unless the fill was sent before the current generation or may have read a replica: then it misses, and the
fill that it asks for confirms it (R150, R154, R195, R227; log entry 95). A write to bytes that a copy has registered since
waits (R224). -/
def State.filled (s : State) (f : FillWait) (w : Nat × Access) : State :=
  let a := w.2
  match (s.hub a.hub).line? f.place f.line with
  | none => s.presentL1 a
  | some l =>
    if a.tack && !a.degraded then
      if w.1 == f.gen && !f.rep then
        let x := l.sector (sectorOf a.pa)
        ((s.confirmTack a.hub a.thread a.tok).answer .l1 a (sectorSlice x.data a.pa a.size)
          (if x.poison then some (f.line + 32 * sectorOf a.pa) else none)).accessDone a
      else s.miss a
    else if (s.hub a.hub).yields a then s.updHub a.hub fun h => { h with held := h.held ++ [a] }
    else if w.1 == f.gen || f.kc then s.performL1 a l
    else s.presentL1 a

/-- The fill of a request returns: the line takes a way, and the accesses that waited under its generation are performed in
their order; the others present themselves again (R147, R149, R150, R195). The answer to a fill that was dropped has no
effect (R151). -/
def State.l1Fill (s : State) (hub : Nat) (place : Place) (line req : Nat) (d : LineData) : State :=
  let h := s.hub hub
  match h.fills.find? fun f => f.place == place && f.line == line && f.sent && f.req == req with
  | none => s
  | some f =>
    let old := h.line? place line
    let (way, victim) := match old with
      | some l => (l.way, none)
      | none => h.victim line
    let s := match victim with
      | some v => (s.writeBackLine hub v).updHub hub (·.dropLine v.place v.pa)
      | none => s
    let (n, s) := s.newId
    let s := s.updHub hub fun h =>
      ({ h with fills := h.fills.filter fun x => !(x.place == place && x.line == line) }).setLine (f.install old way n d)
    (f.waiters.foldl (fun s w => s.filled f w) s).retryHeld hub

/-- Release records lose a write-back they waited for (R148). -/
def Hub.ackRelease (h : Hub) (place : Place) (line sector : Nat) : Hub :=
  { h with releases := h.releases.map fun r => { r with waits := r.waits.filter (· != (place, line, sector)) },
           flash := h.flash.map fun f => { f with waits := f.waits.filter (· != (place, line, sector)) } }

/-- A home acknowledges a write-back (R147, R148, R192). -/
def State.writeBackAcked (s : State) (hub : Nat) (place : Place) (line sector : Nat) (version : Option (BitVec 16)) : State :=
  let h := s.hub hub
  let mine := fun (w : WriteBack) => w.place == place && w.line == line && w.sector == sector
  let left := match h.writeBacks.find? mine with
    | some w => w.count - 1
    | none => 0
  let wbs := h.writeBacks.filter (!mine ·)
  let take : L1Line → L1Line := fun l =>
    { l with sectors := l.sectors.setIfInBounds sector { l.sector sector with version := version } }
  let h := { h with
    writeBacks := if left == 0 then wbs else wbs ++ [{ place := place, line := line, sector := sector, count := left }]
    l1 := updBy (fun l => l.place == place && l.pa == line) take h.l1 }
  (s.setHub (if left == 0 then h.ackRelease place line sector else h)).retryHeld hub

/-- The home's answer to a thread's access (R162, R171, R197). -/
def State.accessAcked (s : State) (a : Access) (value : List Byte) (version : Option (BitVec 16))
    (poisoned : Option Nat) : State :=
  let s := match a.op with
    | .store bs => s.updHub a.hub fun h => match h.line? a.place a.pa with
      | some l =>
        let k := sectorOf a.pa
        let x := { l.sector k with data := setSectorBytes (l.sector k).data (a.pa % 32) bs, waiting := false,
                                   version := version }
        h.setLine { l with sectors := l.sectors.setIfInBounds k x }
      | none => h
    | _ => s
  let s := s.answer .l1 a value poisoned
  let s := if a.tack && !a.degraded then s.confirmTack a.hub a.thread a.tok else s
  (s.afterPerformed a).retryHeld a.hub

/-! ## The home slice (R153, R154, R214) -/

/-- The access is one of `qsig` (R287). -/
def Access.signals (a : Access) : Bool := a.word0.extractLsb' 22 7 == 0x7C#7

/-- Data of a line as its home gives it to a fill (R192). -/
def L2Line.data (l : L2Line) : LineData := { sectors := l.sectors, tag := l.tag, versions := l.versions, poison := l.poison }

/-- A line's data, tag, versions and poison in a packet. -/
def lineBody (d : LineData) : List Byte :=
  d.sectors.toList.flatMap sectorBytes ++ bytesOfNat 2 d.tag.toNat ++ d.versions.toList.flatMap (fun v => bytesOfNat 2 v.toNat)
    ++ bytesOfNat 1 d.poison.toNat

/-- Answers a performed home access: the reply travels back (R192, R213, R393). -/
def State.replyHome (s : State) (r : HomeReq) (value : List Byte) (version : Option (BitVec 16)) : State :=
  let pois := s.homePoisonIn r.pa r.size
  let line := s.l2Line? (homeSlice r.pa) (lineOf r.pa)
  match r.back with
  | .none => s
  | .fill hub place => match line with
    | some l => s.send .toHub (.l1Fill hub place (lineOf r.pa) r.id l.data)
    | none => s
  | .access a => s.send .toHub (.accessAck a value version pois)
  | .writeBack hub place line k => s.send .toHub (.wbAck hub place line k version)
  | .copyRead hub id => s.send .toHub (.copyData hub id (s.homeRead r.pa r.size) pois)
  | .copyWrite hub id => s.send .toHub (.copyLanded hub id)
  | .counter job _ ctx va _ => s.counterDone job ctx va
  | .unit job _ => s.unitDone job
  | .unitRead queue _ => s.unitAnswer queue r.id (some value)
  | .host tag => s.emit 0 (completion tag 0 value)
  | .fabric src tag => match r.op with
    | .write .. => s.send .toHome (.fabricAck src tag version)
    | _ =>
      let body := match r.op, line with
        | .line, some l => lineBody l.data
        | _, _ => poisonByte pois :: value
      if s.route src == 0 then s else s.emit (s.route src) (packet Packet.data tag 0 body)

/-- The acknowledgement of another module's write leaves (R192, R393). -/
def State.fabricAcked (s : State) (src tag : Nat) (version : Option (BitVec 16)) : State :=
  if s.route src == 0 then s else s.emit (s.route src) (packet Packet.ack tag 0 (versionBytes version))

/-- The request is one whose acknowledgement may carry a version (R192). -/
def HomeReq.versioned (r : HomeReq) : Bool :=
  match r.back with
  | .access _ | .writeBack .. | .fabric .. => true
  | _ => false

/-- The request completes a kernel that has failed: bit 63 of the counter is set with the addition (R284). -/
def HomeReq.fails (r : HomeReq) : Bool :=
  match r.back with
  | .counter _ _ _ _ failed => failed
  | _ => false

/-- Performs a request on the home line it finds (R171, R191, R213). -/
def State.performHome (s : State) (r : HomeReq) : State :=
  match r.op with
  | .line | .read | .touch =>
    let s := s.touchL2 (homeSlice r.pa) (lineOf r.pa)
    s.replyHome r (s.homeRead r.pa r.size) none
  | .write bs carried poisoned =>
    let (v, s) := s.homeWrite r.pa bs carried poisoned
    (if v.isSome && r.versioned then s.noteAck r.pa else s).replyHome r [] v
  | .atomic op ty x y mode =>
    let old := BitVec.ofNat 64 (natOfBytes (s.homeRead r.pa r.size))
    let sum := atomicResult op ty old x y mode
    let new := if r.fails then sum ||| 0x8000000000000000 else sum
    let (_, s) := s.homeWrite r.pa
      ((List.range r.size).map fun i => (r.pa + i, (bytesOfNat r.size new.toNat).getD i 0)) none
    let note : L2Line → L2Line := fun l => { l with writer := some r.hub }
    let s := if r.link < 8 then
        s.modify fun m => { m with l2 := updBy (fun l => l.home && l.pa == lineOf r.pa) note m.l2 }
      else s
    let s := match r.back with
      | .access a => if a.signals then s.notifyWaits a.ctx a.va else s
      | _ => s
    s.replyHome r (bytesOfNat r.size old.toNat) none

/-- The request writes. -/
def HomeReq.writes (r : HomeReq) : Bool :=
  match r.op with
  | .write .. | .atomic .. => true
  | _ => false

/-- The targets of a promotion (R221). -/
def promotionTargets (l : L2Line) (requester : Nat) (hubs : List Nat) : List Nat :=
  match l.writer, l.multi with
  | some h, false => if h == requester then [] else [h]
  | _, _ => hubs.filter (· != requester)

/-- Puts a request on hold at its slice. -/
def State.holdReq (s : State) (why : HeldWhy) (r : HomeReq) : State :=
  s.modify fun m => { m with l2held := m.l2held ++ [{ slice := homeSlice r.pa, why := why, req := r }] }

/-- A request that came through a spoke port: another module's (R384). -/
def HomeReq.foreign (r : HomeReq) : Bool := r.hub == 257 || r.hub == 258

/-- A region in MIGRATING holds the address (R384). -/
def State.migrating (s : State) (pa : Nat) : Bool :=
  match s.m.page.move with
  | some v => v.phys.any fun p => p.1 == .here && p.2.1 ≤ pa && pa < p.2.1 + p.2.2
  | none => false

/-- A home slice sends a replica of its line to a replica slice, with its tag and versions, and notes the die (R154). -/
def State.placeReplica (s : State) (l : L2Line) (slice die kid : Nat) : State :=
  (s.setL2 { l with replicas := l.replicas ||| (1#8 <<< die) }).send .toHome (.replicaFill slice l.pa kid l.data)

/-- A relaxed read or prefetch that finds a replica in the requester's replica slice is answered there (R154). -/
def State.fromReplica (s : State) (r : HomeReq) : Option State :=
  match r.replica with
  | none => none
  | some (d, _) => match s.l2Line? (16 * d + r.hub % 16) (lineOf r.pa) with
    | some l =>
      if l.home then none
      else
        let s := s.touchL2 l.slice l.pa
        some (match r.back with
          | .fill hub place => s.send .toHub (.l1Fill hub place l.pa r.id l.data)
          | _ => s)
    | none => none

/-- Requests of one port are performed in the order of its gate (R226). -/
def HomeReq.orderedAfter (r q : HomeReq) : Bool := 256 ≤ r.hub && q.hub == r.hub && q.id < r.id

/-- The request is a write-back. -/
def HomeReq.returns (r : HomeReq) : Bool :=
  match r.back with
  | .writeBack .. => true
  | _ => false

/-- The request is a copy's. -/
def HomeReq.copies (r : HomeReq) : Bool :=
  match r.back with
  | .copyRead .. | .copyWrite .. => true
  | _ => false

/-- A copy of the requester's hub has registered the bytes that a thread's request writes (R224). -/
def State.reqLocked (s : State) (r : HomeReq) : Bool :=
  match r.back with
  | .access a => (s.hub a.hub).behindCopy a
  | _ => false

/-- A held request keeps back the requests for its line that its hub sent after it (R142): behind a fill only where one of the two
writes, behind a promotion all but the write-backs that the promotion asks for (R221). While replicas are invalidated every
request for the line waits; a request held by a move keeps back none, since the move holds each for itself (R384). -/
def HeldReq.blocks (h : HeldReq) (r : HomeReq) : Bool :=
  let before := h.req.hub == r.hub && h.req.id < r.id
  lineOf h.req.pa == lineOf r.pa && (match h.why with
    | .fill | .ready => before && (h.req.writes || r.writes)
    | .promote _ | .behind => before && !r.returns
    | .locked => before && !r.copies
    | .invalidate _ => true
    | .migrating => false)

/-- A request waits behind a held one, or for the replicas of an evicted line (R142, R226, R457). -/
def State.reqBehind (s : State) (r : HomeReq) : Bool :=
  s.m.l2held.any (fun h => h.blocks r || r.orderedAfter h.req) || (r.writes && s.m.evictions.any (·.victim == lineOf r.pa))

/-- Where the bytes of a unit's request lie, when they are another owner's: the request leaves in the order of the units'
requests (R282, R284). -/
def HomeReq.away (r : HomeReq) : Option Place :=
  match r.back with
  | .counter _ place _ _ _ | .unit _ place | .unitRead _ place => if place == .here then none else some place
  | _ => none

/-- A request reaches its home slice: held for a move, a fill, a promotion or the replicas, else performed
(R154, R221, R384, R457). -/
def State.arriveHome (s : State) (r : HomeReq) : State :=
  let slice := homeSlice r.pa
  let line := lineOf r.pa
  if let some place := r.away then
    if s.m.l2held.any (fun h => r.orderedAfter h.req) then s.holdReq .behind r else s.sendHome place r
  else if r.foreign && s.migrating r.pa then s.holdReq .migrating r
  else if s.reqBehind r then s.holdReq .behind r
  else if s.reqLocked r then s.holdReq .locked r
  else match s.fromReplica r with
  | some s => s
  | none => match s.l2Line? slice line with
  | none =>
    let started := s.m.l2held.any fun h => h.why == .fill && lineOf h.req.pa == line
    let s := s.holdReq .fill r
    if started then s else s.send .l2Fill (.l2Fill slice line)
  | some l =>
    let ts := if r.rmt then promotionTargets l r.hub ((List.range 8).flatMap enabledHubs) else []
    if !ts.isEmpty then
      let s := s.holdReq (.promote ts) r
      ts.foldl (fun s h => s.send .toHub (.promoteReq slice r.id h)) s
    else
      let l := if r.rmt then { l with multi := false } else l
      let s := s.setL2 l
      let r := { r with rmt := false }
      if r.writes && l.replicas != 0 then (s.holdReq (.invalidate l.dies) r).invalidateReplicas l
      else
        let s := s.performHome r
        match r.replica, s.l2Line? slice line with
        | some (d, kid), some l =>
          let rs := 16 * d + r.hub % 16
          let leaving := s.m.evictions.any (·.victim == line) || (s.kernel? kid).all Kernel.final
          if r.writes || rs == slice || leaving || s.m.l2held.any (fun h => h.req.writes && lineOf h.req.pa == line) then s
          else s.placeReplica l rs d kid
        | _, _ => s

/-- Held requests that need wait no longer reach their lines with the next cycle's arrivals (R214). -/
def State.resumeHeld (s : State) (go : HeldReq → Bool) : State :=
  s.modify fun m => { m with l2held := updBy go (fun h => { h with why := .ready }) m.l2held }

/-- Requests that no earlier one keeps back any more are ready (R142), and so are those whose bytes no copy holds (R224). -/
def State.resumeBehind (s : State) : State :=
  let s := s.resumeHeld fun h => h.why == .locked && !s.reqLocked h.req
  s.resumeHeld fun h => h.why == .behind && !s.reqBehind h.req

/-- A held request that is ready reaches its line. -/
def State.arriveHeld (s : State) (id : Nat) : State :=
  match s.m.l2held.find? fun h => h.why == .ready && h.req.id == id with
  | some h => (s.modify fun m => { m with l2held := m.l2held.filter (·.req.id != id) }).arriveHome h.req
  | none => s

/-- A fill of a home line from memory completes (R457). -/
def State.l2FillDone (s : State) (slice line : Nat) : State :=
  let s := match s.l2Line? slice line with
    | some _ => s
    | none => s.fillSlice slice line none
  if (s.l2Line? slice line).isSome then
    s.resumeHeld fun h => h.why == .fill && h.slice == slice && lineOf h.req.pa == line
  else s

/-- A replica reaches its replica slice: one that stands there is replaced (R154). -/
def State.replicaArrives (s : State) (slice line kid : Nat) (d : LineData) : State :=
  match s.l2Line? slice line with
  | some l =>
    if l.home then s
    else (s.setL2 { l with sectors := d.sectors, poison := d.poison, tag := d.tag, versions := d.versions,
                           placedBy := some kid }).touchL2 slice line
  | none => s.fillSlice slice line (some (kid, d))

/-- An acknowledgement of an eviction's invalidations: with the last one the fill of the slice is taken up again, with those of
the next cycle (R191, R457). -/
def State.evictionAcked (s : State) (line die : Nat) : State :=
  let drop : Eviction → Eviction := fun e => if e.victim == line then { e with dies := e.dies.filter (· != die) } else e
  let es := s.m.evictions.map drop
  let done := es.filter (·.dies.isEmpty)
  let s := s.modify fun m => { m with evictions := es.filter (!·.dies.isEmpty) }
  done.foldl (fun s e => s.sendAt (s.m.cycle + 1) (match e.placed with
    | some (kid, d) => .replicaFill e.slice e.line kid d
    | none => .l2Fill e.slice e.line)) s

/-- A writer notice arrives (R153, R221). -/
def State.writerNotice (s : State) (hub pa : Nat) : State :=
  let note : L2Line → L2Line := fun l =>
    { l with writer := some hub, multi := l.multi || (l.writer.isSome && l.writer != some hub) }
  s.modify fun m => { m with l2 := updBy (fun l => l.home && l.pa == lineOf pa) note m.l2 }

/-- A tack check is decided (R194). Hub numbers from 512 on name the module that asks. -/
def State.tackCheck (s : State) (c : TackMsg) : State :=
  let moving := match s.m.page.move with
    | some v => v.ctx == c.ctx && v.region == c.va / 65536
    | none => false
  let ok := !moving && !s.migrating c.pa && (match s.l2Line? (homeSlice c.pa) (lineOf c.pa) with
    | some l => l.tag == c.tag && l.versions.toArray.getD (sectorOf c.pa) 0 == c.version
    | none => false)
  if c.hub < 512 then s.send .toHub (.tackReply c.hub c.core c.tok ok)
  else
    let m := c.hub - 512
    if s.route m == 0 then s
    else s.emit (s.route m) (packet Packet.tackReply c.tok c.pa (bytesOfNat 1 (if ok then 1 else 0)))

/-- A tack reply resolves its entry, if it is still in the table (R194, R196). -/
def State.tackReply (s : State) (hub core tok : Nat) (confirm : Bool) : State :=
  let h := s.hub hub
  let c := h.cores.toArray.getD core Core.fresh
  match c.tacks.find? (·.tok == tok) with
  | none => s
  | some e =>
    let s := s.setHub { h with cores := h.cores.setIfInBounds core { c with tacks := c.tacks.filter (·.tok != tok) } }
    s.resolveTack hub e.thread confirm

/-! ## Releases (R148) and bumps (R150, R151) -/

/-- A release write-back is asked for; its set is taken at the end of the cycle. -/
def State.startRelease (s : State) (hub : Nat) (cont : RelCont) : State :=
  let (id, s) := s.newId
  s.updHub hub fun h => { h with releases := h.releases ++
    [{ id := id, at_ := s.m.cycle, taken := false, waits := [], cont := cont }] }

/-- The end of a cycle: every release asked for takes the sectors dirty now and those on their way, and the
dirty ones are written back (R148). -/
def State.takeReleases (s : State) (hub : Nat) : State :=
  let h := s.hub hub
  if h.releases.all (·.taken) then s
  else
    let s := h.l1.foldl (fun s l => s.writeBackLine hub l) s
    s.updHub hub fun h => { h with releases := h.releases.map fun r =>
      if r.taken then r else { r with taken := true, waits := h.writeBacks.map fun w => (w.place, w.line, w.sector) } }

/-- Some valid line or fill of the class holds the generation; `kc` lines are not counted (R151). -/
def Hub.holdsGen (h : Hub) (classM : Bool) (g : Nat) : Bool :=
  h.l1.any (fun l => l.classM == classM && l.gen == some g)
    || h.fills.any fun f => f.sent && !f.kc && f.classM == classM && f.gen == g

/-- The dirty sectors of a line. -/
def L1Line.dirtySectors (l : L1Line) : List (Place × Nat × Nat) :=
  ((List.range 4).filter fun k => (l.sector k).mask != 0).map fun k => (l.place, l.pa, k)

/-- Flash-invalidates a class: dirty sectors go back, lines become invalid, and fills in flight are dropped, to be sent
again (R151). -/
def State.flashClass (s : State) (hub : Nat) (classM : Bool) : State :=
  let s := s.count hub 6 1
  let h := s.hub hub
  let mine := fun (l : L1Line) => l.classM == classM && l.gen.isSome
  let s := (h.l1.filter mine).foldl (fun s l => s.writeBackLine hub l) s
  let waits := (h.l1.filter mine).flatMap (·.dirtySectors)
  s.updHub hub fun h =>
    { ({ h with l1 := h.l1.filter (!mine ·) } : Hub).refill (fun f => f.classM == classM && !f.kc) with
      flash := some { classM := classM, waits := waits } }

/-- Advances the generation of a class (R150). -/
def Hub.advance (h : Hub) (classM : Bool) : Hub :=
  if classM then { h with cm := (h.cm + 1) % 16 } else { h with cd := (h.cd + 1) % 16 }

/-- One try at the oldest bump of a hub (R151): a flash in progress holds it, a generation still held starts
one, and otherwise the class advances; an acquire whose classes are done completes. -/
def State.bumpOnce (s : State) (hub : Nat) : State :=
  let h := s.hub hub
  match h.flash with
  | some f =>
    if f.waits.isEmpty then
      let s := s.setHub (Hub.advance { h with flash := none } f.classM)
      s.updHub hub fun h => match h.bumps with
        | b :: rest =>
          let b := if f.classM then { b with classM := false } else { b with classD := false }
          { h with bumps := b :: rest }
        | [] => h
    else s
  | none => match h.bumps with
    | [] => s
    | b :: rest =>
      if b.classD then
        if h.holdsGen false ((h.cd + 1) % 16) then s.flashClass hub false
        else s.setHub { h.advance false with bumps := { b with classD := false } :: rest }
      else if b.classM then
        if h.holdsGen true ((h.cm + 1) % 16) then s.flashClass hub true
        else s.setHub { h.advance true with bumps := { b with classM := false } :: rest }
      else
        let s := s.setHub { h with bumps := rest }
        s.modify fun m => { m with threads := m.threads.map fun t =>
          { t with wait := t.wait.acquired b.tok, fences := t.fences.filter (·.tok != b.tok) } }

end Sys2Proof.Machine
end

