-- ==== Sys2Proof/Machine/Operands.lean ====
section
/-! DEFINITION. Operand forms: what a code names in a thread (R49, R51), the widths of R26 and R101, the
literal of R53, the third source of R52, and the registers R23 counts as named. -/

namespace Sys2Proof.Machine

/-- What one execution of an instruction reads: a thread, its gang's registers and the instruction. For a
scalar-datapath execution the thread is the one of the lowest lane in the packet (R103). -/
structure Lane where
  t : Thread
  g : Vector Word 128
  f : Fields
  ty : Nat
  seed : Dword
deriving DecidableEq, Repr

/-- Registers from n on, w of them. -/
def regsFrom {k : Nat} (v : Vector Word k) (n w : Nat) : List Word :=
  (List.range w).map fun i => v.toArray.getD (n + i) 0

/-- A 32-bit constant at the width of its operand (R49): sign-extended for 64 bits, repeated for .x4. -/
def constWords (w : Nat) (x : Word) : List Word :=
  if w == 2 then let y : Dword := x.signExtend 64; [lowHalf y, highHalf y] else List.replicate w x

/-- A thread's number as an operand: zero-extended for 64 bits, repeated for .x4 (R49). -/
def numberWords (w n : Nat) : List Word :=
  if w == 2 then [BitVec.ofNat 32 n, 0] else List.replicate w (BitVec.ofNat 32 n)

/-- The literal at the width of its operand (R53, R49). -/
def literalOperand (w : Nat) (x : Dword) : List Word :=
  if w == 2 then [lowHalf x, highHalf x] else List.replicate w (lowHalf x)

/-- The registers an operand of w registers delivers (R49, R51, R101). -/
def Lane.opnd (l : Lane) (w : Nat) (code : BitVec 8) : List Word :=
  match Opnd.of l.f.ext code with
  | .v n => regsFrom l.t.v n w
  | .g n => regsFrom l.g n w
  | .zero => constWords w 0
  | .one => constWords w 1
  | .minusOne => constWords w 0xFFFFFFFF
  | .half => constWords w 0x3F000000
  | .fone => constWords w 0x3F800000
  | .two => constWords w 0x40000000
  | .lane => numberWords w l.t.ref.lane
  | .rank => numberWords w l.t.rank
  | .lit => match l.f.lit with
    | some x => literalOperand w x
    | none => List.replicate w 0
  | .reserved => List.replicate w 0

/-- A 64-bit value of one or two registers. -/
def dwordOf : List Word → Dword
  | [] => 0
  | [x] => x.zeroExtend 64
  | x :: y :: _ => pair x y

/-- The registers of a 64-bit value at a width. -/
def wordsOf (w : Nat) (x : Dword) : List Word :=
  if w == 2 then [lowHalf x, highHalf x] else [lowHalf x]

/-- A 32-bit operand. -/
def Lane.word (l : Lane) (code : BitVec 8) : Word := (l.opnd 1 code).getD 0 0
/-- A 64-bit operand. -/
def Lane.dword (l : Lane) (code : BitVec 8) : Dword := dwordOf (l.opnd 2 code)
/-- An operand at the width of the instruction's type. -/
def Lane.val (l : Lane) (code : BitVec 8) : Dword := dwordOf (l.opnd (Ty.regs l.ty) code)
/-- The four elements of a .x4 operand or of a quad (R101, R115). -/
def Lane.quad (l : Lane) (code : BitVec 8) : List Word := l.opnd 4 code

/-- The rounding mode an instruction captures (R55, R84, R103). -/
def Lane.rnd (l : Lane) : Rnd := Rnd.captured l.f.rnd l.t.fmode

/-- The thread's random stream (R86, R87). -/
def Lane.stream (l : Lane) : Stream := { seed := l.seed, lineage := l.t.lineage, ctr := l.t.rngctr }

/-- The kernel seed (R32). -/
def State.seedOf (s : State) (kid : Nat) : Dword :=
  match s.launch? kid with
  | some l => l.seed
  | none => 0

/-- Gang registers of a thread. -/
def State.gregs (s : State) (t : Thread) : Vector Word 128 :=
  match s.gangOf t with
  | some g => g.g
  | none => Vector.replicate 128 0

/-- The operands a thread reads in a state. -/
def State.lane (s : State) (c : Code) (t : Thread) : Lane :=
  { t := t, g := s.gregs t, f := c.fields, ty := c.ty, seed := s.seedOf t.ref.kid }

/-- The guard of R54. -/
def guardTrue (f : Fields) (t : Thread) : Bool := t.pred f.p.toNat ^^ f.n

/-- Extended blocks a thread counts as its gang's (R23, R317). -/
def State.blocksOf (s : State) (t : Thread) : Nat :=
  if t.xrelIssued then 0
  else match s.gangOf t with
    | some g => g.blocks.length
    | none => 0

/-- The instruction names a register of a block the gang does not hold (R23). -/
def State.outOfRange (s : State) (c : Code) (t : Thread) : Bool :=
  c.threadRegs.any fun n => s.blocksOf t < n / 32

/-- Window address of a thread register (R144): blocks of the pool by their number. -/
def threadRegWindow (g : Gang) (lane n : Nat) : Nat :=
  let (pool, slot) := if n < 32 then (0, g.slot) else (1, g.blocks.getD (n / 32 - 1) 0)
  windowAddr g.hub 2 (g.core * 2 ^ 20 + g.quarter * 2 ^ 18 + pool * 2 ^ 17 + slot * 2 ^ 12 + n % 32 * 2 ^ 7 + lane * 4)
/-- Window address of a gang register (R144). -/
def gangRegWindow (g : Gang) (n : Nat) : Nat :=
  windowAddr g.hub 3 (g.core * 2 ^ 20 + (g.quarter * 32 + g.slot) * 2 ^ 9 + n * 4)

/-- The instruction reads a poisoned register: the register's window address (R157). -/
def State.poisonRead (s : State) (c : Code) (t : Thread) : Option Dword :=
  match s.gangOf t with
  | none => none
  | some g => c.reads.findSome? fun (gang, n, w) =>
      ((if gang then g.poison else t.poison).find? fun r => n ≤ r && r < n + w).map fun r =>
        BitVec.ofNat 64 (if gang then gangRegWindow g r else threadRegWindow g t.ref.lane r)

end Sys2Proof.Machine
end

