-- ==== Sys2Proof/Machine/Flags.lean ====
section
/-! DEFINITION. Predicates and status fields: the conditions of R109 and R113, the combine field of R68, the
predicate operations of R128 and R129, votes (R132), and the write rules of `fmode`, `tackst` and `popst`
(R34, R35, R36, R39). -/

namespace Sys2Proof.Machine

/-- Integer conditions eq, ne, lt, le, gt, ge (R109). -/
def intCond (cond : Nat) (a b : Int) : Bool :=
  match cond with
  | 0 => a == b
  | 1 => a != b
  | 2 => a < b
  | 3 => a ≤ b
  | 4 => a > b
  | 5 => a ≥ b
  | _ => false

/-- set, and, or, xor with the committed predicate (R68, R109). -/
def combine (k : Nat) (old r : Bool) : Bool :=
  match k with
  | 0 => r
  | 1 => old && r
  | 2 => old || r
  | _ => old ^^ r

/-- The condition field of D (R52). -/
def condOf (f : Fields) : Nat := (f.d.extractLsb' 4 3).toNat
/-- The predicate field of D (R52). -/
def predOf (code : BitVec 8) : Nat := code.toNat % 8

/-- A compare's new predicate value. -/
def Lane.combined (l : Lane) (n : Nat) (r : Bool) : Nat × Bool :=
  (n, combine (if l.f.ext then subBits l.f 0 2 else 0) (l.t.pred n) r)

/-- and, or, xor, andn of predicates (R128). -/
def plogOp (k : Nat) (a b : Bool) : Bool :=
  match k with
  | 0 => a && b
  | 1 => a || b
  | 2 => a ^^ b
  | _ => a && !b

/-- The eight predicates as bits [7:0]; p0 reads true (R129). -/
def Thread.predByte (t : Thread) : Byte := t.p ||| 1
/-- p1 to p7 from bits [7:1] (R129). -/
def Thread.setPreds (t : Thread) (x : Word) : Thread := { t with p := (x.truncate 8) ||| 1 }

/-- all, any, uni over the participating lanes (R132). -/
def voteResult (k : Nat) (ps : List Bool) : Bool :=
  match k with
  | 0 => ps.all id
  | 1 => ps.any id
  | _ => ps.all id || ps.all (!·)

/-- Why a `swr` value is refused: a reserved bit or code (R39). -/
def swrBad (n : Nat) (x : Dword) : Bool :=
  match n with
  | 0x11 => 4 < (lowHalf x).toNat
  | 0x15 => lowHalf x &&& 0x8 != 0
  | 0x16 => lowHalf x &&& 0xFFFFFFFE != 0
  | 0x21 => x &&& 0xFE00000000000000 != 0
  | _ => false

/-- `tackst` after a `swr` (R35, R39): the three counts are RW, DEG is W1C, the rest is RO. Ones written in the
RO fields OUT, STRUCK and OPEN are ignored: R39 has no case of its own for them (DESIGN CHOICE, log entry 107). -/
def tackstWritten (old x : Word) : Word :=
  (old &&& 0xFD#32) ||| (old &&& 0x2 &&& ~~~x) ||| (x &&& 0xFFFFFF00)

/-- The reserved bits of `tackst`, `popst`, `xcause` and `xfld` read zero, whatever is stored to them from an image or by an
edit (R4, R32, R35 to R37). -/
def tackstKept (x : Word) : Word := x &&& 0xFFFFFFF7
def popstKept (x : Word) : Word := x &&& 1
def xcauseKept (x : Word) : Word := x &&& 0xFF
def xfldKept (x : Dword) : Dword := x &&& 0x00F1FFFFFFFFFFFF

/-- `popst` after a `swr` (R36): BADW is W1C. -/
def popstWritten (old x : Word) : Word := old &&& ~~~(x &&& 1)

end Sys2Proof.Machine
end

