-- ==== Sys2Proof/Machine/Issue.lean ====
section
/-! DEFINITION. One instruction in the threads of its packet: the guard, the implicit marker, REG_RANGE, the
advance of the program counter with its marker, and the immediate, deferred and scalar-datapath results
(R23, R28, R29, R54, R58 to R61, R100, R103). The packet is the list of its threads in lane order. -/

namespace Sys2Proof.Machine

/-- What a meaning answers. -/
abbrev Out := Host.Outcome State Fault Refusal

/-- The address after an instruction (R47), which wraps at the width of an address (DESIGN CHOICE, log entry 96). -/
def nextPc (c : Code) (pc : Dword) : Dword := addr57 (pc + BitVec.ofNat 64 c.length)

/-- The instruction ends in a thread: its next address, and the marker of S = 1 (R59). -/
def Thread.goTo (t : Thread) (c : Code) (pc : Dword) : Thread :=
  let t := { t with pc := pc }
  if c.fields.s then t.marker else t

/-- The instruction ends and the next one follows. -/
def Thread.finish (t : Thread) (c : Code) : Thread := t.goTo c (nextPc c t.pc)

/-- Acts in every thread of the packet, lowest lane first; a thread whose team has ended is passed over. -/
def State.eachThread (s : State) (body : State → Thread → State) : State :=
  s.m.packet.foldl (fun s r => match s.thread? r with
    | some t => body s t
    | none => s) s

/-- Raises a cause at the thread's instruction. -/
def State.raiseAt (s : State) (t : Thread) (c : Code) (e : Raise) : State := s.raise t.ref t.pc c e

/-- The instructions that raise TACK_RELEASE while a window is open (R206): the release forms of `st`, `atom`, `red` and
`fence`, `gsync`, `bar.arr` and `bar.sync`, `tb.arr`, `gridsync`, `spawn` and `rsmp`. -/
def Code.tackReleases (c : Code) : Bool :=
  let f := c.fields
  match f.op.toNat with
  | 0x59 | 0x5A | 0x5B | 0x5C => f.ord == 2 || f.ord == 3
  | 0x69 => f.sub.toNat % 4 != 1
  | 0x6A => f.sub.toNat % 8 == 1
  | 0x68 | 0x6C | 0x6D | 0x70 => true
  | _ => false

/-- The instruction raises TACK_RELEASE in the thread: its window is open (R206). -/
def Code.barred (c : Code) (t : Thread) : Bool := Code.tackReleases c && tackOpenBit t.tackst

/-- One instruction in one thread: a false guard only ends the segment when S = 1 (R54); a deferred one
waits for room in the pending list (R59); a register the gang does not hold raises REG_RANGE (R23), and after it come
TACK_RELEASE (R206) and a poisoned source (R157). -/
def State.runThread (s : State) (c : Code) (defers : Bool) (body : State → Thread → State) (t : Thread) :
    State :=
  if !guardTrue c.fields t then s.setThread (t.finish c)
  else if defers && 8 ≤ t.pend.length && !t.allReturned then s.setThread (t.park 1 .none)
  else
    let t := if defers && 8 ≤ t.pend.length then t.commitAll else t
    let s := s.setThread t
    if s.outOfRange c t then s.raiseAt t c { cause := Cause.regRange }
    else if Code.barred c t then s.raiseAt t c { cause := Cause.tackRelease }
    else match s.poisonRead c t with
      | some a => s.raiseAt t c { cause := Cause.memError, addr := a }
      | none => body s t

/-- One instruction in the packet. -/
def State.run (s : State) (c : Code) (body : State → Thread → State) (defers : Bool := false) : State :=
  s.eachThread fun s t => s.runThread c defers body t

/-! ## Computed results -/

/-- What a computation writes: the registers of D, predicates, and the random counter after its draws. -/
structure Calc where
  words : List Word := []
  preds : List (Nat × Bool) := []
  ctr : Option Dword := none
deriving DecidableEq, Repr

/-- Writes a computation's predicates and random counter. -/
def Thread.applyFlags (t : Thread) (x : Calc) : Thread :=
  let t := x.preds.foldl (fun t p => t.setPred p.1 p.2) t
  match x.ctr with
  | some n => { t with rngctr := n }
  | none => t

/-- An immediate result in one thread (R58). -/
def State.immediate (s : State) (c : Code) (fn : Lane → Calc) (t : Thread) : State :=
  let x := fn (s.lane c t)
  s.setThread (((t.setRegs c.dstReg x.words).applyFlags x).finish c)

/-- A deferred result in one thread enters the pending list and returns later (R58, R59, R456). -/
def State.deferred (s : State) (c : Code) (k : Config.Lat) (fn : Lane → Calc) (t : Thread) : State :=
  let x := fn (s.lane c t)
  let (tok, s) := s.newId
  let e : Pending := { reg := c.dstReg, count := x.words.length, tok := tok, value := none }
  let t := { (t.applyFlags x) with pend := t.pend ++ [e] }
  (s.setThread (t.finish c)).send k (.result t.ref tok x.words none)

/-- Writes gang registers from n on. -/
def Gang.setRegs (g : Gang) (n : Nat) (ws : List Word) : Gang :=
  { g with g := (List.range ws.length).foldl (fun v i => v.setIfInBounds (n + i) (ws.getD i 0)) g.g
           poison := g.poison.filter fun r => r < n || n + ws.length ≤ r }

/-- A write to gang register n is POP_MISUSE: a population kernel after its first `rsmp` (R29). -/
def State.gangWriteBarred (s : State) (kid n : Nat) : Bool :=
  n < 96 && match s.kernel? kid with
    | some k => k.resampled && (match k.launch with
      | some l => l.pop
      | none => false)
    | none => false

/-- The threads of the packet that take part: those that do not trap on a register (R23, R130, R266). -/
def State.participants (s : State) (c : Code) : List Thread :=
  (s.m.packet.filterMap fun r => s.thread? r).filter fun t => !s.outOfRange c t

/-- A result into a gang register, once for the packet, from the participating threads, lowest lane first; its
draws are the lowest lane's (R28, R86, R103). A barred write traps in every thread (R29), and a poisoned source ends the
team with nothing written or drawn (R86, R157). -/
def State.scalar (s : State) (c : Code) (fn : Thread → List Thread → Calc) : State :=
  match s.participants c with
  | [] => s.run c fun s t => s.setThread (t.finish c)
  | t :: ts =>
    if (t :: ts).any fun t => (s.poisonRead c t).isSome then s.run c fun s t => s.setThread (t.finish c)
    else if s.gangWriteBarred t.ref.kid c.dstReg then
      s.run c fun s t => s.raiseAt t c { cause := Cause.popMisuse }
    else
      let x := fn t (t :: ts)
      let s := s.updThread t.ref fun t => t.applyFlags x
      let s := s.updGang t.ref.gangRef (·.setRegs c.dstReg x.words)
      s.run c fun s t => s.setThread (t.finish c)

/-- An immediate computation: on the scalar datapath when D is a gang register, else in each thread (R28,
R100). -/
def State.compute (s : State) (c : Code) (fn : Lane → Calc) : State :=
  if c.gangDst then s.scalar c fun t _ => fn (s.lane c t)
  else s.run c (fun s t => s.immediate c fn t)

/-- A deferred computation in each thread. -/
def State.computeLater (s : State) (c : Code) (k : Config.Lat) (fn : Lane → Calc) : State :=
  s.run c (fun s t => s.deferred c k fn t) true

/-! ## Cross-lane execution (R130) -/

/-- A value of each lane column, with a stand-in where no thread participates. -/
def columns {α : Type} (ts : List Thread) (f : Thread → α) (absent : α) : Vector α 32 :=
  .ofFn fun i => match ts.find? (·.ref.lane == i.val) with
    | some t => f t
    | none => absent

/-- A cross-lane instruction: what each participating thread writes is computed from all of them before any
write (R100, R130). -/
def State.across (s : State) (c : Code) (fn : List Thread → Thread → Calc) : State :=
  let ts := s.participants c
  s.run c fun s t =>
    let x := fn ts t
    s.setThread (((t.setRegs c.dstReg x.words).applyFlags x).finish c)

end Sys2Proof.Machine
end

