-- ==== Sys2Proof/Machine/CrossLane.lean ====
section
/-! DEFINITION. Cross-lane instructions (R130 to R134). The lists hold the participating threads. -/

namespace Sys2Proof.Machine

/-- The lowest participating lane's thread stands first; a stand-in for an empty list is the thread itself. -/
def lowest (ts : List Thread) (t : Thread) : Thread := ts.headD t

/-- The source lane of shfl; none when it is out of range (R131). -/
def shflSource (mode lane bv : Nat) : Option Nat :=
  match mode with
  | 0 => if bv < 32 then some bv else none
  | 1 => if bv ≤ lane then some (lane - bv) else none
  | 2 => if lane + bv < 32 then some (lane + bv) else none
  | _ => if bv < 32 then some (lane ^^^ bv) else none

/-- shfl in one lane (R131). -/
def State.shflCalc (s : State) (c : Code) (ts : List Thread) (t : Thread) : Calc :=
  let l := s.lane c t
  let f := c.fields
  let n := Ty.regs l.ty
  let q := subBits f 2 3
  match shflSource (subBits f 0 2) t.ref.lane (l.word f.b).toNat with
  | some k => match ts.find? (·.ref.lane == k) with
    | some u => { words := (s.lane c u).opnd n f.a, preds := [(q, true)] }
    | none => { words := l.opnd n f.c, preds := [(q, false)] }
  | none => { words := l.opnd n f.c, preds := [(q, false)] }

/-- shfl with a gang destination and sources that are gang registers or constants. R131 does not say which lane's result the gang
register takes, nor whether every lane's output predicate is written: the register takes the lowest participating lane's, and every
lane writes its predicate (DESIGN CHOICE, log entry 130). -/
def State.shuffle (s : State) (c : Code) : State :=
  if c.gangDst then
    let ps := s.participants c
    let qs := ps.map fun t => (t.ref, (s.shflCalc c ps t).preds)
    (s.scalar c fun t ts => s.shflCalc c ts t).eachThread fun s t => match qs.find? (·.1 == t.ref) with
      | some q => s.setThread (t.applyFlags { preds := q.2 })
      | none => s
  else s.across c fun ts t => s.shflCalc c ts t

/-- vote (R132). -/
def State.voteCalc (_s : State) (c : Code) (ts : List Thread) : Calc :=
  let f := c.fields
  let ps := ts.map fun t => t.pred (predOf f.a)
  let k := subBits f 0 2
  if k == 3 then
    { words := [BitVec.ofNat 32 ((ts.filter fun t => t.pred (predOf f.a)).foldl (fun x t => x + 2 ^ t.ref.lane) 0)] }
  else { preds := [(predOf f.d, voteResult k ps)] }

/-- rdfl (R133): the lowest participating lane's value. -/
def State.rdflCalc (s : State) (c : Code) (ts : List Thread) (t : Thread) : Calc :=
  { words := (s.lane c (lowest ts t)).opnd (Ty.regs c.ty) c.fields.a }

/-- The columns of A for redux and scan: the identity where no thread participates (R95, R134). -/
def State.laneValues (s : State) (c : Code) (ts : List Thread) (op : LaneOp) : Vector Dword 32 :=
  columns ts (fun t => (s.lane c t).val c.fields.a) (op.identity c.ty)

/-- redux (R134); the rounding is the lowest lane's. -/
def State.reduxCalc (s : State) (c : Code) (ts : List Thread) (t : Thread) : Calc :=
  let op := LaneOp.ofCode (subBits c.fields 0 3)
  let r := (s.lane c (lowest ts t)).rnd
  { words := wordsOf (Ty.regs c.ty) (laneReduce (op.apply c.ty r) (s.laneValues c ts op)) }

/-- scan (R134). -/
def State.scanCalc (s : State) (c : Code) (ts : List Thread) (t : Thread) : Calc :=
  let op := LaneOp.ofCode (subBits c.fields 0 3)
  let r := (s.lane c (lowest ts t)).rnd
  let x := laneScan (op.apply c.ty r) (op.identity c.ty) (c.fields.sub.getLsbD 3) (s.laneValues c ts op)
  { words := wordsOf (Ty.regs c.ty) (x.toArray.getD t.ref.lane 0) }

/-- A cross-lane result into thread registers, or once into a gang register (R103). -/
def State.reduceInto (s : State) (c : Code) (fn : List Thread → Thread → Calc) : State :=
  if c.gangDst then s.scalar c fun t ts => fn ts t else s.across c fn

/-! ## Meanings -/

/-- SHFL (R131). -/
def execShfl (o : Ext) (s : State) : Out := .next (s.shuffle (.ext 0x50 o))
/-- VOTE (R132). -/
def execVote (o : Ext) (s : State) : Out :=
  .next (s.across (.ext 0x51 o) fun ts _ => s.voteCalc (.ext 0x51 o) ts)
/-- RDFL (R133). -/
def execRdfl (o : Base) (s : State) : Out := .next (s.reduceInto (.base 0x52 o) (s.rdflCalc (.base 0x52 o)))
/-- RDFL_EXT (R133). -/
def execRdflExt (o : Ext) (s : State) : Out := .next (s.reduceInto (.ext 0x52 o) (s.rdflCalc (.ext 0x52 o)))
/-- REDUX (R134). -/
def execRedux (o : Ext) (s : State) : Out := .next (s.reduceInto (.ext 0x53 o) (s.reduxCalc (.ext 0x53 o)))
/-- SCAN_INSTR (R134). -/
def execScanInstr (o : Ext) (s : State) : Out := .next (s.across (.ext 0x54 o) (s.scanCalc (.ext 0x54 o)))

end Sys2Proof.Machine
end

