-- ==== Sys2Proof/Machine/Digest.lean ====
section
/-! DEFINITION. SHA-256, RSASSA-PSS under RSA-3072, and the check of a firmware image (R428, R429). The spec names the two
standards and no more; their text is FIPS 180-4 and RFC 8017, with MGF1 over SHA-256 and a salt of 32 bytes (PRESUMED, log
entry 132). -/

namespace Sys2Proof.Machine

/-! ## SHA-256 -/

/-- A number from bytes, the most significant first. -/
def natOfBig (bs : List Byte) : Nat := bs.foldl (fun n b => n * 256 + b.toNat) 0
/-- The n low bytes of a number, the most significant first. -/
def bigBytes (n x : Nat) : List Byte := (List.range n).map fun i => BitVec.ofNat 8 (x / 256 ^ (n - 1 - i))

/-- The round constants. -/
def shaRounds : List Nat :=
  [0x428a2f98, 0x71374491, 0xb5c0fbcf, 0xe9b5dba5, 0x3956c25b, 0x59f111f1, 0x923f82a4, 0xab1c5ed5,
   0xd807aa98, 0x12835b01, 0x243185be, 0x550c7dc3, 0x72be5d74, 0x80deb1fe, 0x9bdc06a7, 0xc19bf174]
  ++ [0xe49b69c1, 0xefbe4786, 0x0fc19dc6, 0x240ca1cc, 0x2de92c6f, 0x4a7484aa, 0x5cb0a9dc, 0x76f988da,
   0x983e5152, 0xa831c66d, 0xb00327c8, 0xbf597fc7, 0xc6e00bf3, 0xd5a79147, 0x06ca6351, 0x14292967]
  ++ [0x27b70a85, 0x2e1b2138, 0x4d2c6dfc, 0x53380d13, 0x650a7354, 0x766a0abb, 0x81c2c92e, 0x92722c85,
   0xa2bfe8a1, 0xa81a664b, 0xc24b8b70, 0xc76c51a3, 0xd192e819, 0xd6990624, 0xf40e3585, 0x106aa070]
  ++ [0x19a4c116, 0x1e376c08, 0x2748774c, 0x34b0bcb5, 0x391c0cb3, 0x4ed8aa4a, 0x5b9cca4f, 0x682e6ff3,
   0x748f82ee, 0x78a5636f, 0x84c87814, 0x8cc70208, 0x90befffa, 0xa4506ceb, 0xbef9a3f7, 0xc67178f2]

/-- The eight working words. -/
structure Sha where
  a : Word
  b : Word
  c : Word
  d : Word
  e : Word
  f : Word
  g : Word
  h : Word
deriving DecidableEq, Repr

/-- The words before the first block. -/
def Sha.start : Sha :=
  { a := 0x6a09e667, b := 0xbb67ae85, c := 0x3c6ef372, d := 0xa54ff53a, e := 0x510e527f, f := 0x9b05688c, g := 0x1f83d9ab,
    h := 0x5be0cd19 }

/-- Word by word addition. -/
def Sha.add (x y : Sha) : Sha :=
  { a := x.a + y.a, b := x.b + y.b, c := x.c + y.c, d := x.d + y.d, e := x.e + y.e, f := x.f + y.f, g := x.g + y.g,
    h := x.h + y.h }

/-- One round, with its constant plus its schedule word. -/
def Sha.round (x : Sha) (kw : Word) : Sha :=
  let s1 := x.e.rotateRight 6 ^^^ x.e.rotateRight 11 ^^^ x.e.rotateRight 25
  let ch := (x.e &&& x.f) ^^^ (~~~x.e &&& x.g)
  let t1 := x.h + s1 + ch + kw
  let s0 := x.a.rotateRight 2 ^^^ x.a.rotateRight 13 ^^^ x.a.rotateRight 22
  let maj := (x.a &&& x.b) ^^^ (x.a &&& x.c) ^^^ (x.b &&& x.c)
  { a := t1 + s0 + maj, b := x.a, c := x.b, d := x.c, e := x.d + t1, f := x.e, g := x.f, h := x.g }

/-- The next word of the schedule after those so far. -/
def nextSchedule (w : List Word) : Word :=
  let at_ := fun (i : Nat) => w.getD (w.length - i) 0
  let x := at_ 15
  let y := at_ 2
  at_ 16 + (x.rotateRight 7 ^^^ x.rotateRight 18 ^^^ (x >>> 3)) + at_ 7
    + (y.rotateRight 17 ^^^ y.rotateRight 19 ^^^ (y >>> 10))

/-- The schedule of a block of 64 bytes. -/
def shaSchedule (block : List Byte) : List Word :=
  (List.range 48).foldl (fun w _ => w ++ [nextSchedule w])
    ((List.range 16).map fun i => BitVec.ofNat 32 (natOfBig ((block.drop (4 * i)).take 4)))

/-- A block is taken in. -/
def Sha.block (x : Sha) (block : List Byte) : Sha :=
  x.add (((shaSchedule block).zip shaRounds).foldl (fun x wk => x.round (wk.1 + BitVec.ofNat 32 wk.2)) x)

/-- A message with its padding: whole blocks. -/
def shaPadded (bs : List Byte) : List Byte :=
  bs ++ [0x80] ++ List.replicate ((119 - bs.length % 64) % 64) 0 ++ bigBytes 8 (8 * bs.length)

/-- The SHA-256 of some bytes. -/
def sha256 (bs : List Byte) : List Byte :=
  let p := shaPadded bs
  let x := (List.range (p.length / 64)).foldl (fun x i => x.block ((p.drop (64 * i)).take 64)) Sha.start
  [x.a, x.b, x.c, x.d, x.e, x.f, x.g, x.h].flatMap fun w => bigBytes 4 w.toNat

/-! ## RSASSA-PSS -/

/-- b ^ e mod n, by the bits of e from the lowest; the fuel bounds their number. -/
def powMod (n : Nat) : Nat → Nat → Nat → Nat → Nat
  | 0, _, _, acc => acc
  | fuel + 1, b, e, acc => powMod n fuel (b * b % n) (e / 2) (if e % 2 == 1 then acc * b % n else acc)

/-- The mask of n bytes that MGF1 makes of a seed. -/
def mgfMask (seed : List Byte) (n : Nat) : List Byte :=
  ((List.range ((n + 31) / 32)).flatMap fun i => sha256 (seed ++ bigBytes 4 i)).take n

/-- Byte by byte exclusive or. -/
def xorBytes (x y : List Byte) : List Byte := (x.zip y).map fun p => p.1 ^^^ p.2

/-- Bytes of a modulus, of a data block and of a salt. -/
abbrev rsaBytes : Nat := 384
abbrev dataBytes : Nat := 351
abbrev saltBytes : Nat := 32

/-- A data block without its top bit, which an encoded message leaves zero. -/
def topClear (bs : List Byte) : List Byte := (bs.headD 0 &&& 0x7F) :: bs.drop 1

/-- The hash that binds a digest and a salt. -/
def saltedHash (digest salt : List Byte) : List Byte := sha256 (List.replicate 8 0 ++ digest ++ salt)

/-- The encoded message of a digest under a salt. -/
def pssEncode (digest salt : List Byte) : List Byte :=
  let h := saltedHash digest salt
  let db := List.replicate (dataBytes - saltBytes - 1) 0 ++ [1] ++ salt
  topClear (xorBytes db (mgfMask h dataBytes)) ++ h ++ [0xBC]

/-- An encoded message is one of a digest. -/
def pssHolds (digest em : List Byte) : Bool :=
  let h := (em.drop dataBytes).take 32
  let db := topClear (xorBytes (em.take dataBytes) (mgfMask h dataBytes))
  let salt := db.drop (dataBytes - saltBytes)
  em.getD (rsaBytes - 1) 0 == 0xBC && (em.headD 0).toNat < 128
    && db.take (dataBytes - saltBytes) == List.replicate (dataBytes - saltBytes - 1) 0 ++ [1]
    && h == saltedHash digest salt

/-- A signature of a digest verifies under a public key. -/
def signatureHolds (n e : Nat) (digest signature : List Byte) : Bool :=
  let x := natOfBig signature
  signature.length == rsaBytes && x < n && pssHolds digest (bigBytes rsaBytes (powMod n (8 * rsaBytes) x e 1))

/-- The signature of a digest under a private key and a salt. -/
def pssSigned (n d : Nat) (digest salt : List Byte) : List Byte :=
  bigBytes rsaBytes (powMod n (8 * rsaBytes) (natOfBig (pssEncode digest salt)) d 1)

/-! ## Firmware (R428) -/

/-- The bytes of a public key that its hash covers: the modulus and the exponent (DESIGN CHOICE, log entry 132). -/
def keyBytes (n e : Nat) : List Byte := bigBytes rsaBytes n ++ bigBytes 4 e

/-- The boot ROM loads an image: the key it carries hashes to the vendor's value, its digest is that of its body, and the
signature of the digest verifies under the key (R428). -/
def firmwareGood (f : Config.Firmware) : Bool :=
  sha256 (keyBytes f.keyN f.keyE) == Config.vendorHash && f.digest == sha256 f.body
    && signatureHolds f.keyN f.keyE f.digest f.signature

/-- The first firmware image that its check refuses. -/
def badFirmware : Option Nat := Config.firmware.findIdx? (!firmwareGood ·)

end Sys2Proof.Machine
end

