-- ==== Sys2Proof/Machine/Page.lean ====
section
/-! DEFINITION. Translation: the caches, the merge table, leases and generations, the ATS answers, and region
moves (R369 to R387). -/

namespace Sys2Proof.Machine

/-- The lease of a translation in cycles (R377). -/
abbrev leaseCycles : Nat := 2 ^ 20

/-! ## The translation caches (R371, R372) -/

/-- An entry is usable (R371). -/
def Tlb.usable (e : Tlb) (ctx : Nat) (gen : BitVec 8) (cycle : Nat) : Bool :=
  e.ctx == ctx && e.gen == gen && cycle < e.leaseEnd
/-- The entry covers a virtual address. -/
def Tlb.covers (e : Tlb) (va : Nat) : Bool := va / 2 ^ e.logSize == e.vbase / 2 ^ e.logSize
/-- The translated address. -/
def Tlb.target (e : Tlb) (va : Nat) : Nat := e.pbase + va % 2 ^ e.logSize
/-- The permissions grant a need (R376). -/
def Tlb.grants (e : Tlb) (n : Need) : Bool := (!n.r || e.r) && (!n.w || e.w) && (!n.x || e.x)

/-- The set of the second level (R372). -/
def tlbSet (e : Tlb) : Nat := (e.vbase / 2 ^ e.logSize + 8 * e.ctx) % 512

/-- Places an entry in a list of at most n, in the given set, dropping the least recently used. -/
def placeTlb (n : Nat) (same : Tlb → Bool) (e : Tlb) (l : List Tlb) : List Tlb :=
  let l := l.filter fun x => !(x.ctx == e.ctx && x.vbase == e.vbase && x.logSize == e.logSize)
  if (l.filter same).length < n then l ++ [e]
  else match leastBy (fun (x : Tlb) => [x.use]) (l.filter same) with
    | some v => (l.filter fun x => x != v) ++ [e]
    | none => l ++ [e]

/-- A first-level lookup (R372). -/
def State.lookupCore (s : State) (hub core ctx va : Nat) : Option Tlb :=
  let c := (s.hub hub).cores.toArray.getD core Core.fresh
  c.tlb.find? fun e => e.covers va && e.usable ctx (s.context ctx).gen s.m.cycle

/-- A second-level lookup: 4 KiB, then 64 KiB, then 2 MiB (R372). -/
def State.lookupHub (s : State) (hub ctx va : Nat) : Option Tlb :=
  let l := (s.hub hub).tlb2.filter fun e => e.covers va && e.usable ctx (s.context ctx).gen s.m.cycle
  leastBy (fun (e : Tlb) => [e.logSize]) l

/-- What a lookup of an address leaves of a cache: entries it finds that are not usable are freed (R371). -/
def State.liveTlbs (s : State) (ctx va : Nat) (l : List Tlb) : List Tlb :=
  l.filter fun e => !(e.ctx == ctx && e.covers va && !e.usable ctx (s.context ctx).gen s.m.cycle)

/-- Changes the first level of a core. -/
def State.updTlb (s : State) (hub core : Nat) (f : List Tlb → List Tlb) : State :=
  let h := s.hub hub
  let c := h.cores.toArray.getD core Core.fresh
  s.setHub { h with cores := h.cores.setIfInBounds core { c with tlb := f c.tlb } }

/-- A second-level lookup frees what it finds unusable. -/
def State.freeStale (s : State) (hub ctx va : Nat) : State := s.updHub hub fun h => { h with tlb2 := s.liveTlbs ctx va h.tlb2 }

/-- Installs an entry in a core's first level. -/
def State.fillCore (s : State) (hub core : Nat) (e : Tlb) : State :=
  let (n, s) := s.newId
  s.updTlb hub core fun l => placeTlb 64 (fun _ => true) { e with use := n } l

/-- Installs an entry in a hub's second level. -/
def State.fillHub (s : State) (hub : Nat) (e : Tlb) : State :=
  let (n, s) := s.newId
  s.updHub hub fun h =>
    { h with tlb2 := placeTlb 8 (fun x => tlbSet x == tlbSet e) { e with use := n } h.tlb2 }

/-- Notes a use in the recency order of a first level (R372). -/
def State.useTlb (s : State) (hub core : Nat) (e : Tlb) : State :=
  let (n, s) := s.newId
  s.updTlb hub core fun l => updBy (· == e) (fun e => { e with use := n }) l

/-- Notes a use in the recency order of the second level (R372). -/
def State.useTlb2 (s : State) (hub : Nat) (e : Tlb) : State :=
  let (n, s) := s.newId
  s.updHub hub fun h => { h with tlb2 := updBy (· == e) (fun e => { e with use := n }) h.tlb2 }

/-- A thread's access or fetch has used the first level's translation of an address; the lookup frees what it finds unusable
(R371). -/
def State.noteUse (s : State) (hub core ctx va : Nat) : State :=
  let s := s.updTlb hub core (s.liveTlbs ctx va)
  match s.lookupCore hub core ctx va with
  | some e => s.useTlb hub core e
  | none => s

/-! ## Classes of translated addresses (R370, R391) -/

/-- The class of a translated address (R370). -/
def State.classify (s : State) (a : Nat) (u : Bool) : Place × Nat :=
  if u then (.host, a)
  else match s.busPa? a with
    | some pa => s.classifyPa pa
    | none => (.host, a)

/-! ## Waiting and going on -/

/-- A requester goes on: a packet with its instruction in the next cycle, a copy in its place (R375), and an access that
outlived its translation with another lookup (R377). A fetch that is served leaves its threads READY in the next cycle: the
picker issues them. The denial of such an access, whose thread has gone on, ends its team (DESIGN CHOICE, log entry 115). -/
def State.resumeWaiter (s : State) (w : MergeWaiter) (denied : Option Nat) : State :=
  match w.who with
  | .packet ts pc =>
    let x : Resume := { at_ := s.m.cycle + 1, threads := ts, pc := pc, fetch := w.need.x && denied.isNone, denied := denied }
    s.modify fun m => { m with resumes := m.resumes ++ [x] }
  | .copy hub id =>
    let go : Copy → Copy := fun c => { c with waiting := false, denied := c.denied || denied.isSome }
    s.updHub hub fun h => { h with copies := updBy (fun c => c.id == id && c.waiting) go h.copies }
  | .access a => match denied with
    | some _ => s.lateFatal a.left Cause.addr (BitVec.ofNat 64 a.va)
    | none => s.sendAt (s.m.cycle + 1) (.probe a.hub a.ctx a.va w)

/-- A page of an address. -/
def pageOf (va : Nat) : Nat := va / 4096

/-- The region is MIGRATING (R384). -/
def State.regionMoving (s : State) (ctx va : Nat) : Bool :=
  match s.m.page.move with
  | some v => v.ctx == ctx && v.region == va / 65536
  | none => false

/-- Both needs. -/
def Need.or (a b : Need) : Need := { r := a.r || b.r, w := a.w || b.w, x := a.x || b.x }

/-- A miss of both levels enters the merge table (R374). -/
def State.mergeMiss (s : State) (hub ctx va : Nat) (w : MergeWaiter) : State :=
  let h := s.hub hub
  let page := pageOf va
  match h.merges.find? fun e => e.ctx == ctx && e.page == page with
  | some e =>
    let e := if e.records.length < 32 then { e with records := e.records ++ [w], need := e.need.or w.need }
      else { e with overflow := e.overflow ++ [w] }
    s.setHub { h with merges := putBy (fun x => x.ctx == ctx && x.page == page) e h.merges }
  | none =>
    if h.merges.length < 256 then
      let (req, s) := s.newId
      let e : MergeRec := { req := req, ctx := ctx, page := page, need := w.need, records := [w], overflow := [],
                            paged := false, asking := true, gen := (s.context ctx).gen }
      (s.setHub { h with merges := h.merges ++ [e] }).askHost req
    else s.setHub { h with mergeQueue := h.mergeQueue ++ [w] }

/-- The end of a second-level lookup (R372): a hit fills the first level, with the lease and the generation of its source, and
the requester goes on; a miss enters the merge table. -/
def State.probed (s : State) (hub ctx va : Nat) (w : MergeWaiter) : State :=
  if s.regionMoving ctx va then
    s.modify fun m => { m with page := { m.page with waiting := m.page.waiting ++ [(hub, w)] } }
  else
    let s := s.freeStale hub ctx va
    match s.lookupHub hub ctx va with
    | some e =>
      let s := (s.useTlb2 hub e).fillCore hub w.core e
      match w.who with
      | .packet ts pc =>
        let x : Resume := { at_ := s.m.cycle, threads := ts, pc := pc, fetch := w.need.x, denied := none }
        s.modify fun m => { m with resumes := m.resumes ++ [x] }
      | .copy .. => s.resumeWaiter w none
      | .access a =>
        if e.grants w.need then
          let a := { a with place := e.place, pa := e.target va, lease := e.leaseEnd, io := e.u && e.place == .host }
          s.updHub hub fun h => { h with held := a :: h.held }
        else s.lateFatal a.left Cause.perm (BitVec.ofNat 64 a.va)
    | none => s.mergeMiss hub ctx va w

/-- What a thread's translation finds. -/
inductive Xlat where
  | hit (e : Tlb)
  | denied
  | wait
deriving DecidableEq, Repr

/-- A lookup of a thread's access or fetch (R373): a first-level hit, a denial its packet carries, or a wait
that the region's move or the second level causes. -/
def State.xlat (s : State) (hub core ctx va : Nat) : Xlat :=
  if s.regionMoving ctx va then .wait
  else if s.m.packetDenied == some (pageOf va) then .denied
  else match s.lookupCore hub core ctx va with
    | some e => .hit e
    | none => .wait

/-- Threads of one gang in one packet wait for a translation: park reason 4, and a second-level lookup of 6
cycles, which threads of the same gang, packet and page share (R306, R372, R374). -/
def State.awaitXlat (s : State) (hub core ctx va : Nat) (t : ThreadRef) (pc : Dword) (n : Need) : State :=
  let s := ((s.updThread t fun x => x.park 4 .translation).count hub 13 1).updTlb hub core (s.liveTlbs ctx va)
  let due := s.m.cycle + 6
  let joins := fun (f : Flight) => f.due == due && (match f.msg with
    | .probe h c a w => h == hub && c == ctx && pageOf a == pageOf va && w.core == core && (match w.who with
      | .packet (r :: _) p => r.gangRef == t.gangRef && p == pc
      | _ => false)
    | _ => false)
  if s.m.flight.any joins then
    let add : Flight → Flight := fun f => match f.msg with
      | .probe h c a w => match w.who with
        | .packet ts p => { f with msg := .probe h c a { w with who := .packet (ts ++ [t]) p, need := w.need.or n } }
        | _ => f
      | _ => f
    s.modify fun m => { m with flight := updBy joins add m.flight }
  else s.sendAt due (.probe hub ctx va { core := core, who := .packet [t] pc, need := n })

/-! ## Answers of the IOMMU (R375) -/

/-- Threads parked on the overflow and in the full-table queue issue their access again (R375). -/
def State.freeMerge (s : State) (hub : Nat) (e : MergeRec) : State :=
  let h := s.hub hub
  let s := (s.setHub { h with merges := h.merges.filter (·.req != e.req), mergeQueue := [] }).hostDone e.req
  (e.overflow ++ h.mergeQueue).foldl (fun s w => s.resumeWaiter w none) s

/-- DENIED: every record receives ADDR (R375, R376). -/
def State.denyMerge (s : State) (hub : Nat) (e : MergeRec) : State :=
  e.records.foldl (fun s w => s.resumeWaiter w (some e.page)) (s.freeMerge hub e)

/-- The cached size of a completion (R371). -/
def cachedLog (log : Nat) : Nat := if 21 ≤ log then 21 else if 16 ≤ log then 16 else 12

/-- The class of a region: the owner and whether it is FORWARDED (R370, R386). -/
def classOf (place : Place) (pa : Nat) : Place × Bool := (place, forwarded place pa)

/-- A completion covers something of a region and classes it otherwise than when it left RESIDENT or FORWARDED (R386; log
entry 109). -/
def Tlb.reclasses (e : Tlb) (ctx region : Nat) (cls : Option (Place × Bool)) : Bool :=
  ctx == e.ctx && (e.covers (region * 65536) || e.vbase / 65536 == region) && cls != some (classOf e.place e.pbase)

/-- A completion brings its regions out of SETTLED and of MIGRATING when it classes them otherwise (R386): those who waited
for the move look their pages up again. -/
def State.reclass (s : State) (e : Tlb) : State :=
  let s := s.modify fun m => { m with page := { m.page with
    settled := m.page.settled.filter fun x => !e.reclasses x.1 x.2.1 x.2.2.2 } }
  match s.m.page.move with
  | some v =>
    if e.reclasses v.ctx v.region v.cls then
      let ws := s.m.page.waiting
      let s := s.modify fun m => { m with page := { m.page with move := none, waiting := [] } }
      (ws.foldl (fun s w => s.resumeWaiter w.2 none) s).resumeHeld fun h => h.why == .migrating
    else s
  | none => s

/-- A served completion: installed in the second level and in the first level of each core with a record,
and each record goes on (R375, R377). -/
def State.serveMerge (s : State) (hub : Nat) (e : MergeRec) (base log : Nat) (r w x u : Bool) : State :=
  let k := cachedLog log
  let va := e.page * 4096
  let vb := va / 2 ^ k * 2 ^ k
  let ta := base + (vb - va / 2 ^ log * 2 ^ log)
  let (place, pb) := s.classify ta u
  let t : Tlb := { ctx := e.ctx, vbase := vb, logSize := k, place := place, pbase := pb, r := r, w := w, x := x,
                   u := u, gen := (s.context e.ctx).gen, leaseEnd := s.m.cycle + leaseCycles, use := 0 }
  let s := ((s.updContext e.ctx fun c => { c with lastLease := t.leaseEnd }).reclass t).fillHub hub t
  let s := e.records.foldl (fun s w => s.fillCore hub w.core t) s
  let s := s.freeMerge hub e
  e.records.foldl (fun s w => s.resumeWaiter w none) s

/-- Replaces an entry of a hub's merge table. -/
def State.setMerge (s : State) (hub : Nat) (e : MergeRec) : State :=
  s.updHub hub fun h => { h with merges := putBy (·.req == e.req) e h.merges }

/-- The entry sends another translation request, under a number of its own. -/
def State.askAgain (s : State) (hub : Nat) (e : MergeRec) (gen : BitVec 8) : State :=
  let (req, s) := (s.hostDone e.req).newId
  (s.updHub hub fun h => { h with merges := putBy (·.req == e.req) { e with req := req, gen := gen, asking := true } h.merges }).askHost
    req

/-- The Invalidate Queue Depth that the ATS capability advertises (R369). -/
abbrev invalidateDepth : Nat := 32

/-- The entry waits for the answer to a Page Request. -/
def State.paging (s : State) (e : MergeRec) : Bool := e.paged && !e.asking && !s.m.page.priQueue.contains e.req

/-- Page Requests leave, the oldest first, each a group of one with Last set (bit 3 of the flags), while fewer than 512 and
than the host's allocation are outstanding (R369). -/
def State.sendPages (s : State) : State :=
  s.m.page.priQueue.foldl (fun s req =>
    let out := (s.m.hubs.flatMap fun h => h.merges.filter s.paging).length
    let drop := s.modify fun m => { m with page := { m.page with priQueue := m.page.priQueue.filter (· != req) } }
    match s.findMerge req with
    | none => drop
    | some (_, e) =>
      if Nat.min 512 s.m.page.priAlloc ≤ out then s
      else drop.emit 0 (packet Packet.page req (e.page * 4096) (bytesOfNat 4 (s.context e.ctx).pasid
        ++ bytesOfNat 1 ((if e.need.r then 1 else 0) + (if e.need.w then 2 else 0) + (if e.need.x then 4 else 0) + 8))) req) s

/-- The entry asks for a Page Request. -/
def State.askPage (s : State) (hub : Nat) (e : MergeRec) : State :=
  let s := (s.setMerge hub { e with paged := true, asking := false }).hostDone e.req
  (s.modify fun m => { m with page := { m.page with priQueue := m.page.priQueue ++ [e.req] } }).sendPages

/-- A Translation Completion (R375). An answer to a request of a generation that is no longer current is discarded and the
request sent again, an Unsupported Request or Completer Abort too (DESIGN CHOICE, log entry 118: the table's first row names a
completion and its row of denials no generation). -/
def State.translationDone (s : State) (req : Nat) (a : AtsReply) : State :=
  match s.findMerge req with
  | none => s
  | some (hub, e) =>
    let gen := (s.context e.ctx).gen
    if !e.asking then s
    else if e.gen != gen then s.askAgain hub e gen
    else match a with
      | .unsupported | .abort => s.denyMerge hub e
      | .done base log r w x u =>
        if r || w then s.serveMerge hub e base log r w x u
        else if e.paged then s.denyMerge hub e
        else s.askPage hub e

/-- A PRG Response (R375). -/
def State.pageResponse (s : State) (req : Nat) (ok : Bool) : State :=
  match s.findMerge req with
  | none => s
  | some (hub, e) =>
    if !s.paging e then s else ((if ok then s.askAgain hub e e.gen else s.denyMerge hub e)).sendPages

/-- TRANSLATION_COMPLETION (R374, R375): the answer `ev.ats` of request `ev.id`. -/
def execTranslationCompletion (s : State) : Host.Outcome State Fault Refusal :=
  .next (s.translationDone s.m.ev.id s.m.ev.ats)

/-- PRG_RESPONSE (R375): the page of request `ev.id` is there, or it fails. -/
def execPrgResponse (s : State) : Host.Outcome State Fault Refusal :=
  .next (s.pageResponse s.m.ev.id s.m.ev.flag)

/-! ## Generations and invalidations (R378, R379) -/

/-- The wait of a bump is over (R378). -/
def Context.bumpReady (c : Context) (cycle : Nat) : Bool :=
  match c.last.find? (·.1 == (c.gen + 1).toNat) with
  | some (_, last) => last + leaseCycles ≤ cycle
  | none => true

/-- The translation requests of a context that are outstanding (R379). -/
def State.asked (s : State) (n : Nat) : List Nat :=
  s.m.hubs.flatMap fun h => (h.merges.filter fun e => e.ctx == n && e.asking).map (·.req)

/-- The bump of a context's generation (R378). -/
def State.bumpContext (s : State) (n : Nat) : State :=
  let c := s.context n
  if !c.bumpWaits || !c.bumpReady s.m.cycle then s
  else s.updContext n fun c =>
    { c with last := putBy (·.1 == c.gen.toNat) (c.gen.toNat, s.m.cycle) c.last, gen := c.gen + 1, bumpWaits := false,
             invalidates := c.invalidates.map fun i =>
               if i.since == 0 then { i with gen := c.gen, since := s.m.cycle + 1, ends := c.lastLease, reqs := s.asked n }
               else i }

/-- CONTEXT_GENERATION_BUMP (R378) of context `ev.ctx`. -/
def execContextGenerationBump (s : State) : Host.Outcome State Fault Refusal :=
  .next (s.bumpContext s.m.ev.ctx)

/-- The Invalidate Completion of an ITag leaves through port 0 (R379). -/
def State.invalidateDone (s : State) (n itag : Nat) : State :=
  (s.updContext n fun c => { c with invalidates := c.invalidates.filter (·.itag != itag) }).emit 0
    (packet Packet.invalidated itag 0 (bytesOfNat 4 (s.context n).pasid))

/-- The same for an invalidation of a PASID that no context has. -/
def State.orphanDone (s : State) (itag pasid : Nat) : State :=
  (s.modify fun m => { m with page := { m.page with orphans := m.page.orphans.erase (itag, pasid) } }).emit 0
    (packet Packet.invalidated itag 0 (bytesOfNat 4 pasid))

/-- An Invalidate Request (R378, R379). `ev.id` is the ITag and `ev.size` the PASID. One that names no context in use
completes in this cycle, with the others of the cycle. -/
def execInvalidateRequest (s : State) : Host.Outcome State Fault Refusal :=
  let e := s.m.ev
  .next (match s.m.contexts.toList.find? fun c => c.pasid == e.size && c.st != .free with
  | none => s.modify fun m => { m with page := { m.page with orphans := m.page.orphans ++ [(e.id, e.size)] } }
  | some c => s.updContext c.num fun c =>
      { c with bumpWaits := true,
               invalidates := c.invalidates ++ [{ itag := e.id, gen := c.gen, since := 0, ends := 0, reqs := [] }] })

/-- An invalidation may complete: the bump has happened, the lease of every translation installed before it has ended, and
every request outstanding at it is resolved (R379). -/
def State.invalidateReady (s : State) (c : Context) (i : Invalidate) : Bool :=
  i.since != 0 && i.since - 1 ≤ s.m.cycle && i.ends ≤ s.m.cycle && !((s.asked c.num).any i.reqs.contains)

/-- INVALIDATE_COMPLETION (R379): ITag `ev.id` of context `ev.ctx`; context 64 stands for none, with the PASID `ev.size`. -/
def execInvalidateCompletion (s : State) : Host.Outcome State Fault Refusal :=
  let e := s.m.ev
  .next (if e.ctx == 64 then s.orphanDone e.id e.size else s.invalidateDone e.ctx e.id)

/-- The lease of a translation ends: it is unusable from the cycle on (R377). -/
def execLeaseEnd (s : State) : Host.Outcome State Fault Refusal :=
  let drop := fun (l : List Tlb) => l.filter fun e => s.m.cycle < e.leaseEnd
  .next (s.modify fun m => { m with hubs := m.hubs.map fun h =>
    { h with tlb2 := drop h.tlb2, cores := h.cores.map fun c => { c with tlb := drop c.tlb } } })

/-- REGION_COUNTER_ZEROING (R381): every region counter is free again. -/
def execRegionCounterZeroing (s : State) : Host.Outcome State Fault Refusal :=
  .next (s.modify fun m => { m with page := { m.page with counters := [] } })

/-! ## Moves (R383 to R385) -/

/-- The bound on moves, in cycles (R385). -/
abbrev moveWindow : Nat := 2 ^ 24

/-- An access whose translation was looked up before a move began lies in the region. -/
def Access.within (a : Access) (ctx region : Nat) : Bool := !a.scratch && a.ctx == ctx && a.va / 65536 == region

/-- The accesses that wait in a hub. -/
def Hub.accesses (h : Hub) : List Access :=
  h.ports.flatMap (·.2) ++ h.held ++ h.fills.flatMap (fun f => f.waiters.map (·.2))
    ++ h.releases.filterMap fun r => match r.cont with
      | .access a => some a
      | _ => none

/-- The access of a thread that a request performs. -/
def HomeReq.access (r : HomeReq) : Option Access :=
  match r.back with
  | .access a => some a
  | _ => none

/-- The answer of the host's map for a page of a context: the place and the page's address there, or a denial. -/
def State.unitPage (s : State) (ctx page : Nat) : Option (Place × Nat) × State :=
  let (n, s) := s.drawFree
  match Config.unitMap ctx page n with
  | none => (none, s)
  | some (0, a) => (some (.here, a % hbmSize / 4096 * 4096), s)
  | some (1, a) => (some (.host, a / 4096 * 4096), s)
  | some (k + 2, a) => (some (.module k, a % hbmSize / 4096 * 4096), s)

/-- The ranges of a region that the module's units hold: those of the translations in the caches, of the L1 lines filled for
it, of the tack entries taken in it and of the accesses under way to it. -/
def State.heldRanges (s : State) (ctx region : Nat) : List (Place × Nat × Nat) :=
  let ofTlb := fun (e : Tlb) =>
    if e.ctx != ctx then none
    else if 16 ≤ e.logSize then
      if e.vbase / 2 ^ e.logSize == region * 65536 / 2 ^ e.logSize
      then some (e.place, e.pbase + region * 65536 % 2 ^ e.logSize, 65536) else none
    else if e.vbase / 65536 == region then some (e.place, e.pbase, 4096) else none
  s.m.hubs.flatMap fun h =>
    (h.tlb2 ++ h.cores.toList.flatMap (·.tlb)).filterMap ofTlb
      ++ (h.l1.filter fun l => l.ctx == ctx && l.va / 65536 == region).map (fun l => (l.place, l.pa, 128))
      ++ ((h.cores.toList.flatMap (·.tacks)).filter fun e => e.ctx == ctx && e.va / 65536 == region).map
        (fun e => (e.place, e.pa, 32))
      ++ ((h.accesses ++ s.requests.filterMap (·.access)).filter (·.within ctx region)).map
        fun a => (a.place, lineOf a.pa, 128)

/-- The page that a class of translated address names, with its place. -/
def pageRange (x : Option (Place × Nat)) : List (Place × Nat × Nat) :=
  match x with
  | some (place, a) => [(place, a, 4096)]
  | none => []

/-- The ranges of a region: those of the host's map for its 16 pages, and those that the module's units hold (R384; log
entry 99). -/
def State.regionRanges (s : State) (ctx region : Nat) : List (Place × Nat × Nat) × State :=
  let held := s.heldRanges ctx region
  let (mapped, s) := (List.range 16).foldl (fun (p : List (Place × Nat × Nat) × State) i =>
    let (x, s) := p.2.unitPage ctx (16 * region + i)
    (p.1 ++ pageRange x, s)) ([], s)
  ((mapped ++ held).eraseDups, s)

/-- An address lies in one of the ranges. -/
def inRanges (rs : List (Place × Nat × Nat)) (place : Place) (pa : Nat) : Bool :=
  rs.any fun r => r.1 == place && r.2.1 ≤ pa && pa < r.2.1 + r.2.2

/-- Sets the refusal code of the move unit: ERR holds the last refusal, which a command that is done leaves (R383). -/
def State.pageErr (s : State) (e : Nat) : State := s.modify fun m => { m with page := { m.page with err := e } }

/-- The class under which the module reaches a region, when it is mapped (R370). -/
def rangeClass (rs : List (Place × Nat × Nat)) : Option (Place × Bool) := rs.head?.map fun r => classOf r.1 r.2.1

/-- Steps 2 to 4 of R384. -/
def State.startMove (s : State) (ctx region : Nat) : State :=
  let (rs, s) := s.regionRanges ctx region
  let s := s.modify fun m => { m with page := { m.page with
    move := some { ctx := ctx, region := region, phys := rs, cls := rangeClass rs, drained := false } } }
  -- tack entries in the region are struck (R210)
  let s := s.m.hubs.foldl (fun s h => h.cores.toList.zipIdx.foldl (fun s c =>
    (c.1.tacks.filter fun e => inRanges rs e.place e.pa).foldl (fun s e => s.settleTack h.hub c.2 e.tok false) s) s) s
  s.m.hubs.foldl (fun s h =>
    (h.l1.filter fun l => inRanges rs l.place l.pa).foldl (fun s l =>
      (s.writeBackLine h.hub l).updHub h.hub (·.dropLine l.place l.pa)) s) s

/-- A begin (R384, R385): the bound is checked, tack entries of the region are struck, and every hub writes
back and drops its lines. -/
def State.moveBegin (s : State) (ctx : Nat) : State :=
  let p := s.m.page
  let region := p.pgmvaddr.toNat / 65536
  let s := s.modify fun m => { m with page := { m.page with ctx := ctx } }
  if p.move.isSome then s.pageErr 2
  else if p.pgmvaddr &&& 0xFE0000000000FFFF != 0 || (s.context ctx).st == .free then s.pageErr 1
  else
    let e := p.history.find? fun e => e.ctx == ctx && e.region == region
    let recent := fun (c : Nat) => s.m.cycle < c + moveWindow
    match e with
    | some { newer := n, older := some o, .. } =>
      if recent n && recent o then
        let (rs, s) := s.regionRanges ctx region
        (s.pageErr 4).modify fun m => { m with page :=
          { m.page with settled := (ctx, region, o + moveWindow, rangeClass rs) :: m.page.settled } }
      else s.startMove ctx region
    | some _ => s.startMove ctx region
    | none => if p.history.length < 1024 then s.startMove ctx region else s.pageErr 3

/-- Lines of the region that fills still in flight bring are written back and dropped like the others (R384; log entry 110). -/
def State.moveSweep (s : State) : State :=
  match s.m.page.move with
  | some v =>
    if v.drained then s
    else s.m.hubs.foldl (fun s h =>
      (h.l1.filter fun l => inRanges v.phys l.place l.pa).foldl (fun s l =>
        (s.writeBackLine h.hub l).updHub h.hub (·.dropLine l.place l.pa)) s) s
  | none => s

/-- A transfer of the copy in the region is under way. -/
def Copy.within (x : Copy) (ctx region : Nat) : Bool :=
  let inside := fun (p : Option Tlb) => p.any (·.vbase / 65536 == region)
  x.ctx == ctx && ((x.asked && inside x.srcPage) || (x.writing != 0 && inside x.dstPage))

/-- Every hub's lines of the region are written back and invalidated, and nothing under way to it is left (R384). -/
def State.moveDrainReady (s : State) : Bool :=
  match s.m.page.move with
  | some v =>
    let own := fun (r : HomeReq) => r.hub < 256 && ((r.access.any (·.within v.ctx v.region)) || inRanges v.phys .here r.pa)
    let held := fun (h : HeldReq) => h.why != .migrating && inRanges v.phys .here h.req.pa
    !v.drained && !(s.requests.any own) && !(s.m.l2held.any held) && s.m.hubs.all fun h =>
      h.writeBacks.all (fun w => !inRanges v.phys w.place w.line) && h.fills.all (fun f => !inRanges v.phys f.place f.line)
        && h.l1.all (fun l => !inRanges v.phys l.place l.pa) && h.accesses.all (fun a => !a.within v.ctx v.region)
        && h.copies.all fun x => !x.within v.ctx v.region
  | none => false

/-- The drain completes: the homes write back and drop their lines of the region, and replicas on their way go with them
(R384). -/
def State.moveDrained (s : State) : State :=
  match s.m.page.move with
  | none => s
  | some v =>
    let mine := s.m.l2.filter fun l => inRanges v.phys .here l.pa
    let s := (mine.filter (·.home)).foldl (fun s l => s.flushL2 l) s
    let coming := fun (f : Flight) => match f.msg with
      | .replicaFill _ l _ _ => inRanges v.phys .here l
      | _ => false
    s.modify fun m => { m with
      l2 := m.l2.filter fun l => !inRanges v.phys .here l.pa
      flight := m.flight.filter (!coming ·)
      evictions := m.evictions.filter fun e => !(e.placed.isSome && inRanges v.phys .here e.line)
      page := { m.page with move := some { v with drained := true } } }

/-- An end (R384): the move is recorded, and every waiting access looks its page up again. -/
def State.moveEnd (s : State) : State :=
  match s.m.page.move with
  | some v =>
    if !v.drained then s.pageErr 2
    else
      let p := s.m.page
      let old := p.history.find? fun e => e.ctx == v.ctx && e.region == v.region
      let new : MoveEntry := { ctx := v.ctx, region := v.region, newer := s.m.cycle, older := old.map (·.newer) }
      let ws := p.waiting
      let s := s.modify fun m => { m with page := { m.page with
        move := none, waiting := [],
        history := putBy (fun e => e.ctx == v.ctx && e.region == v.region) new m.page.history } }
      let s := ws.foldl (fun s w => s.resumeWaiter w.2 none) s
      s.resumeHeld fun h => h.why == .migrating
  | none => s.pageErr 2

/-- MOVE_BEGIN (R384) of the region that the move registers name. -/
def execMoveBegin (s : State) : Host.Outcome State Fault Refusal := .next (s.moveBegin s.m.page.ctx)
/-- MOVE_DRAINED (R384). -/
def execMoveDrained (s : State) : Host.Outcome State Fault Refusal := .next s.moveDrained
/-- MOVE_END (R384). -/
def execMoveEnd (s : State) : Host.Outcome State Fault Refusal := .next s.moveEnd
/-- MOVE_HISTORY_FREE (R385): the entries whose window has passed are free. -/
def execMoveHistoryFree (s : State) : Host.Outcome State Fault Refusal :=
  .next (s.modify fun m => { m with page := { m.page with
    history := m.page.history.filter fun e => m.cycle < e.newer + moveWindow } })
/-- SETTLED_END (R385): the entries whose time has passed are free. -/
def execSettledEnd (s : State) : Host.Outcome State Fault Refusal :=
  .next (s.modify fun m => { m with page := { m.page with
    settled := m.page.settled.filter fun x => m.cycle < x.2.2.1 } })

end Sys2Proof.Machine
end

