-- ==== Sys2Proof/Machine/Access.lean ====
section
/-! DEFINITION. Thread accesses: effective addresses, translation, range locks, readiness and issue (R136 to
R145, R156, R159 to R171, R177, R178, R206), which `ld`, `st`, `atom`, `red`, `tack.ld` and the call stack
share. -/

namespace Sys2Proof.Machine

/-! ## Classes of R172 -/

abbrev classRead : Nat := 1
abbrev classWrite : Nat := 2
abbrev classCopy : Nat := 12
abbrev classMatrix : Nat := 48
abbrev classIo : Nat := 64
/-- The model's mark of an `hs` write, which `sfence` awaits (R176). -/
abbrev classHs : Nat := 128

/-- A fence that is not complete holds the class (R173). -/
def Thread.fenced (t : Thread) (classes : Nat) : Bool := t.fences.any fun f => f.successors &&& classes != 0

/-- A memory access of the thread is not yet performed (R162). -/
def Thread.outstanding (t : Thread) : Bool := t.out.any fun o => o.classes &&& (classRead + classWrite + classIo) != 0

/-- An `hs` write of the thread is not yet performed. -/
def Thread.storing (t : Thread) : Bool := t.out.any fun o => o.classes &&& classHs != 0

/-- The ordering has a release part. -/
def releases (ord : Nat) : Bool := ord == 2 || ord == 3
/-- The ordering has an acquire part. -/
def acquires (ord : Nat) : Bool := ord == 1 || ord == 3

/-! ## Effective addresses (R137) -/

/-- Where the group block stands in the constant bank, and the extent of `kc` (R295). -/
def LaunchRec.kcBlock (l : LaunchRec) : Nat := (l.kcSize + 63) / 64 * 64
def LaunchRec.kcExtent (l : LaunchRec) : Nat := l.kcBlock + 64

/-- The extent of a space for a thread (R136). -/
def State.limit (s : State) (t : Thread) (space : Nat) : Nat :=
  match space with
  | 1 => match s.teamOf t with
    | some x => x.hsSize
    | none => 0
  | 2 => 2048
  | 3 => match s.launch? t.ref.kid with
    | some l => l.pvSize
    | none => 0
  | _ => match s.launch? t.ref.kid with
    | some l => l.kcExtent
    | none => 0

/-- ea of R137: the address, or what it raises. -/
def effAddr (space limit : Nat) (base : Nat) (off : Int) (n : Nat) : Except Raise Nat :=
  let at57 := fun (a : Int) => (BitVec.ofInt 64 (a % (2 ^ 57 : Nat)) : Dword)
  let aligned := fun (a : Nat) =>
    if a % n == 0 then Except.ok a else .error { cause := Cause.align, addr := at57 a }
  if space == 0 then
    let a := ((base : Int) + off) % (2 ^ 64 : Nat)
    if a ≥ (2 ^ 57 : Nat) then .error { cause := Cause.addr, addr := at57 a } else aligned a.toNat
  else
    let a := (base : Int) + off
    if a < 0 || a + n > limit then .error { cause := Cause.addr, addr := at57 a } else aligned a.toNat

/-- The base and offset of a memory operand, and its effective address (R75, R137). -/
def State.memAddr (s : State) (c : Code) (t : Thread) (space n : Nat) : Except Raise Nat :=
  let l := s.lane c t
  let f := c.fields
  let base := if space == 0 then (l.dword f.a).toNat else (l.word f.a).toNat
  let off := if f.ext then f.imm.toInt else (l.word f.b).toInt
  effAddr space (s.limit t space) base off n

/-! ## Where an access goes -/

/-- A private frame's first byte (R140). -/
def LaunchRec.pvFrame (l : LaunchRec) (rank : Dword) : Nat :=
  l.pvBase.toNat + rank.toNat * ((l.pvSize + 127) / 128 * 128)

/-- The virtual address behind an address of a translated space, or ADDR for a private frame that the region
does not hold (R140, R141, R290). -/
def State.backing (s : State) (t : Thread) (space ea : Nat) : Except Raise Nat :=
  match space, s.launch? t.ref.kid with
  | 3, some l =>
    let va := l.pvFrame t.grank + ea
    if t.grank.toNat < l.frames then .ok va
    else .error { cause := Cause.addr, addr := addr57 (BitVec.ofNat 64 va) }
  | 4, some l => .ok (l.kcCopy.toNat + ea)
  | _, _ => .ok ea

/-- What stands in the way of an access, or where it goes. -/
inductive Located where
  | trap (e : Raise)
  | wait (va : Nat)
  /-- place, address there, virtual address, whether the page is mapped as I/O, and the lease end (R377) -/
  | found (place : Place) (pa va : Nat) (io : Bool) (lease : Nat)
deriving DecidableEq, Repr

/-- Translates a virtual address for a need (R373, R376). -/
def State.translate (s : State) (g : Gang) (ctx va : Nat) (n : Need) : Located :=
  match s.xlat g.hub g.core ctx va with
  | .denied => .trap { cause := Cause.addr, addr := BitVec.ofNat 64 va }
  | .wait => .wait va
  | .hit e =>
    if e.grants n then .found e.place (e.target va) va (e.u && e.place == .host) e.leaseEnd
    else .trap { cause := Cause.perm, addr := BitVec.ofNat 64 va }

/-- Locates an access of a thread (R136, R138, R139). -/
def State.locate (s : State) (t : Thread) (g : Gang) (space ea : Nat) (n : Need) : Located :=
  match space with
  | 1 => match s.teamOf t with
    | some x => .found .here (hsAddr x ea) ea false 0
    | none => .trap { cause := Cause.addr }
  | 2 => .found .here (ksAddr g ea) ea false 0
  | _ => match s.backing t space ea with
    | .error e => .trap e
    | .ok va => s.translate g (s.ctxOf t.ref.kid) va n

/-! ## Range locks (R177, R178) -/

/-- The registered ranges that an access of the hub overlaps. -/
def State.locksOver (s : State) (hub ctx : Nat) (hs : Bool) (lo n : Nat) : List RangeLock :=
  (s.hub hub).locks.filter fun r => r.hs == hs && (hs || r.ctx == ctx) && r.lo < lo + n && lo < r.hi

/-- The ranges over a thread's access: physical scratchpad bytes, or the virtual bytes of `gl` and `pv`. -/
def State.locksOf (s : State) (t : Thread) (g : Gang) (space ea va n : Nat) : List RangeLock :=
  match space with
  | 1 => match s.teamOf t with
    | some x => s.locksOver g.hub 0 true (x.hsBase + ea) n
    | none => []
  | 0 | 3 => s.locksOver g.hub (s.ctxOf t.ref.kid) false va n
  | _ => []

/-- An access meets RANGE_LOCK (R156, R178). write: `st`, `atom` or `red`. -/
def State.rangeLocked (s : State) (t : Thread) (g : Gang) (space ea va n : Nat) (write : Bool) : Bool :=
  let ls := s.locksOf t g space ea va n
  let absent := space == 1 && (match s.teamOf t with
    | some x => !x.present ea n
    | none => false)
  if write then !ls.isEmpty || absent else space != 1 && ls.any (·.dest)

/-! ## The port of a core (R146, R167) -/

/-- The gang of the packet. -/
def State.packetGang (s : State) : Option Gang := (s.m.packet.head?.bind s.thread?).bind s.gangOf

/-- A new packet enters the port of its core. -/
def State.openPort (s : State) : State :=
  match s.packetGang with
  | some g => s.updHub g.hub fun h => { h with ports := h.ports ++ [(g.core, [])] }
  | none => s

/-- Packets of a gang without accesses leave the ports. -/
def State.closePort (s : State) : Option Gang → State
  | some g => s.updHub g.hub fun h => { h with ports := h.ports.filter fun p => !p.2.isEmpty }
  | none => s

/-- An access joins the newest packet of its core's port. -/
def pushPort (core : Nat) (a : Access) (ps : List (Nat × List Access)) : List (Nat × List Access) :=
  match ps.getLast? with
  | some (c, l) => if c == core then ps.dropLast ++ [(c, l ++ [a])] else ps ++ [(core, [a])]
  | none => [(core, [a])]

/-- An instruction whose accesses enter the port as one packet. -/
def State.runAccess (s : State) (c : Code) (defers : Bool) (body : State → Thread → State) : State :=
  (s.openPort.run c body defers).closePort s.packetGang

/-! ## Issue of one access -/

/-- An access that an instruction asks for. -/
structure Want where
  space : Nat
  ea : Nat
  size : Nat
  op : AccOp
  result : Option Nat := none
  ord : Nat := 0
  scope : Nat := 0
  rmt : Bool := false
  rep : Bool := false
  tack : Bool := false
  classes : Nat
deriving DecidableEq, Repr

/-- The access writes. -/
def Want.writes (w : Want) : Bool :=
  match w.op with
  | .store _ | .atomic .. | .trans .. => true
  | _ => false

/-- What the access needs of its page (R376). -/
def Want.need (w : Want) : Need :=
  match w.op with
  | .load | .prefetch _ => { r := true, w := false, x := false }
  | .store _ => { r := false, w := true, x := false }
  | .trans .. => { r := true, w := true, x := false }
  | .atomic .. => { r := w.result.isSome || w.classes &&& classRead != 0, w := true, x := false }

/-- The host performs the atomic as an AtomicOp (R171). -/
def Want.hostAtomic (w : Want) : Bool :=
  match w.op with
  | .atomic op .. => op == 0 || op == 7 || op == 8
  | _ => true

/-- A store that needs a forwarding entry while all 16 are taken (R143). -/
def State.forwardFull (s : State) (g : Gang) (w : Want) : Bool :=
  (match w.op with
    | .store _ => w.space == 2 || w.space == 3
    | _ => false) && 16 ≤ (s.quarter { hub := g.hub, core := g.core, quarter := g.quarter }).forwards.length

/-- A fence holds the class of I/O, and the address lies on a page mapped as I/O (R172, R173, R226). -/
def State.ioFenced (s : State) (t : Thread) (g : Gang) (w : Want) : Bool :=
  t.fenced classIo && (match s.locate t g w.space w.ea { r := false, w := false, x := false } with
    | .found _ _ _ io _ => io
    | _ => false)

/-- The access is not ready whatever its address: a fence holds its class, its release awaits the thread's earlier accesses,
or the forwarding table is full (R143, R162, R173, R306). -/
def State.notReady (s : State) (t : Thread) (g : Gang) (w : Want) : Bool :=
  t.fenced w.classes || (releases w.ord && t.outstanding) || s.forwardFull g w

/-- The access is not ready. -/
def State.accessBlocked (s : State) (t : Thread) (g : Gang) (w : Want) : Bool := s.notReady t g w || s.ioFenced t g w

/-- Where an access ends before it issues. -/
inductive Checked where
  | trap (e : Raise)
  | wait (va : Nat)
  | ok (a : Access)
deriving DecidableEq, Repr

/-- Translation, permission and range locks of an access, in that order; tok names it (R137, R376, R178). -/
def State.checkAccess (s : State) (c : Code) (t : Thread) (g : Gang) (w : Want) (tok : Nat) : Checked :=
  match s.locate t g w.space w.ea w.need with
  | .trap e => .trap e
  | .wait va => .wait va
  | .found place pa va io lease =>
    if place == .host && !w.hostAtomic then Checked.trap { cause := Cause.perm, addr := BitVec.ofNat 64 va }
    else if s.rangeLocked t g w.space w.ea va w.size w.writes then
      .trap { cause := Cause.rangeLock, addr := BitVec.ofNat 64 (if w.space == 1 then w.ea else va) }
    else .ok { tok := tok, thread := t.ref, hub := g.hub, core := g.core, quarter := g.quarter, space := w.space,
               ea := w.ea, pa := pa, place := place, size := w.size, va := va, ctx := s.ctxOf t.ref.kid, op := w.op,
               result := w.result, ord := w.ord, scope := w.scope, rmt := w.rmt, rep := w.rep, tack := w.tack,
               degraded := false, io := io, lineage := t.lineage, pc := t.pc, word0 := c.words.getD 0 0,
               issued := s.m.cycle, lease := lease }

/-- Sends an access on its way: its outstanding operation, its forwarding entry, and the port or the write-back
of its release (R143, R162). -/
def State.launchAccess (s : State) (a : Access) (classes : Nat) : State :=
  let q : QRef := { hub := a.hub, core := a.core, quarter := a.quarter }
  let hsMark := if a.space == 1 && !a.isLoad then classHs else 0
  let io := if a.io then classIo else 0
  let s := s.updThread a.thread fun t =>
    { t with out := t.out ++ [{ tok := a.tok, classes := classes ||| hsMark ||| io }] }
  let s := s.activity a.thread.kid (if a.scratch then 3 else 2) 1
  let s := match a.op with
    | .store _ => if a.space == 2 || a.space == 3 then
        let e : Forward := { tok := a.tok, thread := a.thread }
        s.updQuarter q fun x => { x with forwards := x.forwards ++ [e] }
      else s
    | _ => s
  if releases a.ord && a.scope ≥ 2 then s.startRelease a.hub (.access a)
  else s.updHub a.hub fun h => { h with ports := pushPort a.core a h.ports }

/-- The thread after its access has issued: the pending entry, and the park of an acquire or of an absent
scratch line, or the marker (R59, R156, R161). -/
def Thread.afterAccess (t : Thread) (c : Code) (a : Access) (absent : Bool) : Thread :=
  let t := match a.result with
    | some ty =>
      let e : Pending := { reg := c.dstReg, count := Ty.regs ty, tok := a.tok, value := none }
      { t with pend := t.pend ++ [e] }
    | none => t
  let parked := fun (reason : Nat) (w : WaitFor) =>
    ({ t with pc := nextPc c t.pc } : Thread).park reason w
  if acquires a.ord then parked (if absent then 2 else 1) (.acquire [a.tok])
  else if absent then parked 2 .present
  else t.finish c

/-- The lines of an `hs` load are not all present (R156). -/
def State.absentLoad (s : State) (t : Thread) (a : Access) : Bool :=
  a.space == 1 && a.isLoad && (match s.teamOf t with
    | some x => !x.present a.ea a.size
    | none => false)

/-- A trap of an access; RANGE_LOCK is counted (R412). -/
def State.accessTrap (s : State) (t : Thread) (g : Gang) (c : Code) (e : Raise) : State :=
  (if e.cause == Cause.rangeLock then s.count g.hub 12 1 else s).raiseAt t c e

/-- An access uses the first level's translation (R372). -/
def State.noteAccess (s : State) (a : Access) : State := if a.scratch then s else s.noteUse a.hub a.core a.ctx a.va

/-- One access of a thread, all checks made, with what the thread becomes when it issues (R137, R162, R178,
R376). -/
def State.accessThen (s : State) (c : Code) (t : Thread) (w : Want) (after : Access → Thread) : State :=
  match s.gangOf t with
  | none => s
  | some g =>
    if s.accessBlocked t g w then s
    else
      let (tok, s) := s.newId
      match s.checkAccess c t g w tok with
      | .trap e => s.accessTrap t g c e
      | .wait va => s.awaitXlat g.hub g.core (s.ctxOf t.ref.kid) va t.ref t.pc w.need
      | .ok a => ((s.setThread (after a)).noteAccess a).launchAccess a w.classes

/-- One access of a thread that goes on with the next instruction. -/
def State.access (s : State) (c : Code) (t : Thread) (w : Want) : State :=
  s.accessThen c t w fun a => t.afterAccess c a (s.absentLoad t a)

end Sys2Proof.Machine
end

