-- ==== Sys2Proof/Machine/Barrier.lean ====
section
/-! DEFINITION. Team barriers, gang sync, transaction barriers and the grid barrier (R349 to R368). -/

namespace Sys2Proof.Machine

/-! ## Release parts and misuse -/

/-- A release at hub scope: a thread with accesses not yet performed is not ready (R162, R218). -/
def State.releasing (s : State) (t : Thread) (body : State) : State := if t.outstanding then s else body

/-- An instruction whose misuse in any thread is raised in every thread of the packet, with no effect (R366).
window: a release, which TACK_RELEASE comes before. -/
def State.runMisuse (s : State) (c : Code) (window : Bool) (bad : State → Thread → Bool)
    (body : State → Thread → State) : State :=
  let go := fun (p : State × Bool) (r : ThreadRef) => match p.1.thread? r with
    | none => p
    | some t => (p.1.runThread c false body t,
        p.2 || (guardTrue c.fields t && !p.1.outOfRange c t && !(window && (tackOpenBit t.tackst || t.outstanding))
          && bad p.1 t))
  let p := s.m.packet.foldl go (s, false)
  if p.2 then s.run c fun s t => s.raiseAt t c { cause := Cause.barrierMisuse }
  else p.1

/-! ## Named team barriers -/

/-- A barrier at dispatch (R350). -/
def TeamBarrier.idle : TeamBarrier :=
  { arrived := 0, expect := 0, mode := .idle, phase := 0, last := none, finish := [] }
def Team.bar (x : Team) (n : Nat) : TeamBarrier := x.bars.toArray.getD n .idle
def State.updBar (s : State) (r : TeamRef) (n : Nat) (f : TeamBarrier → TeamBarrier) : State :=
  s.updTeam r fun x => { x with bars := x.bars.setIfInBounds n (f (x.bar n)) }

/-- The thread has arrived in a phase of barrier n (R351). -/
def Thread.arrivedAt (t : Thread) (n phase : Nat) : Bool := t.arr.getLsbD n && t.ph.toArray.getD n 0 == phase

/-- The kernel has DET set. -/
def State.det (s : State) (kid : Nat) : Bool :=
  match s.launch? kid with
  | some l => l.det
  | none => false

/-- The highest team rank of some threads. -/
def highestRank (ts : List Thread) : Option ThreadRef :=
  (leastBy (fun (t : Thread) => [10000 - t.rank]) ts).map (·.ref)

/-- A step of cadence from the early to the late core of a team (R367). -/
def State.lend (s : State) (r : TeamRef) (hub late early : Nat) : State :=
  (List.range 4).foldl (fun s q =>
    let src : QRef := { hub := hub, core := early, quarter := q }
    let dst : QRef := { hub := hub, core := late, quarter := q }
    if s.cadenceTarget src > 1 && s.cadenceTarget dst < Nat.min s.m.tcap (s.quarter dst).request then
      ((s.updTeam r fun x => { x with loans := x.loans ++ [(src, dst)] }).retarget src).retarget dst
    else s) s

/-- The cores that hold threads of a team. -/
def State.teamCores (s : State) (r : TeamRef) : List Nat :=
  (s.teamThreads r).filterMap fun t => (s.gangOf t).map (·.core)

/-- The balance step of an ALL-mode completion (R367). A count that has passed 2 while one core alone held the team moves
cadence as soon as the late and the early core differ (DESIGN CHOICE, log entry 119). -/
def State.balance (s : State) (x : Team) (b : TeamBarrier) : State :=
  let finish := b.finish.filter fun f => (s.teamCores x.ref).contains f.1
  match leastBy (fun (f : Nat × Nat) => [2 ^ 64 - f.2, 4 - f.1]) finish, leastBy (fun (f : Nat × Nat) => [f.2, f.1]) finish with
  | some late, some early =>
    let n := match x.streak with
      | some (l, n) => if l == late.1 then n + 1 else 1
      | none => 1
    if n ≥ 2 && late.1 != early.1 then
      (s.updTeam x.ref fun x => { x with streak := some (late.1, 0) }).lend x.ref x.hub late.1 early.1
    else s.updTeam x.ref fun x => { x with streak := some (late.1, n) }
  | _, _ => s

/-- A phase completes: the role is given, the barrier is IDLE and its phase advances (R354, R356, R357). -/
def State.completeBar (s : State) (x : Team) (n : Nat) : State :=
  let b := x.bar n
  let role := if b.mode == .all && s.det x.ref.kid then
      highestRank ((s.teamThreads x.ref).filter (·.arrivedAt n b.phase))
    else b.last
  let tell : Thread → Thread := fun t => match t.wait with
    | .bar m ph (some p) =>
      if m == n && ph == b.phase then { t.setPred p (role == some t.ref) with wait := .bar m ph none } else t
    | _ => t
  let s := s.modify fun m => { m with threads := updBy (·.ref.teamRef == x.ref) tell m.threads }
  let lends := b.mode == .all && (match s.launch? x.ref.kid with
    | some l => l.balance
    | none => false)
  let s := if lends then s.balance x b else s
  let s := s.noteBefore [1, x.ref.kid, x.ref.team, n] b.phase
  s.updBar x.ref n fun _ => { TeamBarrier.idle with phase := (b.phase + 1) % 65536 }

/-- Tests the completion of a barrier (R354). -/
def State.testBar (s : State) (r : TeamRef) (n : Nat) : State :=
  match s.team? r with
  | none => s
  | some x =>
    let b := x.bar n
    let done := match b.mode with
      | .idle => false
      | .counted => b.arrived == b.expect
      | .all => (s.teamThreads r).all (·.arrivedAt n b.phase)
    if done then s.completeBar x n else s

/-- Tests every ALL-mode barrier of a team, after an exit or a gang formation (R354, R368). -/
def State.testBars (s : State) (r : TeamRef) : State := (List.range 16).foldl (fun s n => s.testBar r n) s

/-- N and the count of `bar` (R352). -/
def barNum (c : Code) : Nat := c.fields.imm.toNat % 16
def State.barCount (s : State) (c : Code) (t : Thread) : Nat := ((s.lane c t).word c.fields.a).toNat

/-- The arrival breaks R353. -/
def State.badArrival (s : State) (c : Code) (t : Thread) : Bool :=
  match s.teamOf t with
  | none => false
  | some x =>
    let b := x.bar (barNum c)
    let n := s.barCount c t
    n > 8192 || (b.mode != .idle && n != b.expect) || (b.mode == .all && t.arrivedAt (barNum c) b.phase)

/-- An arrival (R353), before the completion test. -/
def State.arrive (s : State) (c : Code) (t : Thread) : State :=
  let n := barNum c
  match s.teamOf t, s.gangOf t with
  | some x, some g =>
    let cnt := s.barCount c t
    let b := x.bar n
    let s := s.updThread t.ref fun t =>
      { t with arr := t.arr ||| (1#16 <<< n), ph := t.ph.setIfInBounds n b.phase }
    let cycle := s.m.cycle
    let later : Option ThreadRef → Option ThreadRef := fun old =>
      if !s.det t.ref.kid then some t.ref
      else match old with
        | some o => if o.gang * 32 + o.lane < t.rank then some t.ref else some o
        | none => some t.ref
    s.updBar x.ref n fun b => { b with
      mode := if b.mode == .idle then (if cnt == 0 then .all else .counted) else b.mode
      expect := cnt
      arrived := b.arrived + 1
      last := later b.last
      finish := putBy (·.1 == g.core) (g.core, cycle) b.finish }
  | _, _ => s

/-- bar.arr (R353). -/
def State.barArrives (s : State) (c : Code) (t : Thread) : State :=
  s.releasing t (((s.arrive c t).updThread t.ref (·.finish c)).testBar t.ref.teamRef (barNum c))

/-- bar.wait (R355): the target phase, and park 3. -/
def State.barWaits (s : State) (c : Code) (t : Thread) : State :=
  let n := barNum c
  match s.teamOf t with
  | none => s
  | some x =>
    let target := if t.arr.getLsbD n then t.ph.toArray.getD n 0
      else s.phaseBefore [1, x.ref.kid, x.ref.team, n] (x.bar n).phase
    s.setThread (({ t with pc := nextPc c t.pc } : Thread).park 3 (.bar n target none))

/-- bar.sync (R356). -/
def State.barSyncs (s : State) (c : Code) (t : Thread) : State :=
  let n := barNum c
  match s.teamOf t with
  | none => s
  | some x =>
    let wait : Thread → Thread := fun t =>
      ({ t with pc := nextPc c t.pc } : Thread).park 3 (.bar n (x.bar n).phase (some (predOf c.fields.d)))
    s.releasing t (((s.arrive c t).updThread t.ref wait).testBar x.ref n)

/-! ## Gang sync (R358) -/

/-- gsync: the release part, then park 3 until the gang's threads have all come. -/
def State.gangSyncs (s : State) (c : Code) (t : Thread) : State :=
  s.releasing t (s.setThread (({ t with pc := nextPc c t.pc } : Thread).park 3 .gsync))

/-! ## Transaction barriers (R359 to R363) -/

/-- The barrier at a scratch offset of a team. -/
def State.transBarrier (s : State) (x : Team) (off : Nat) : TransBarrier :=
  .ofNat (natOfBytes (s.winRead (hsAddr x off) 16))
/-- Stores a barrier, noting the phase before the cycle's updates. -/
def State.setTransBarrier (s : State) (x : Team) (off : Nat) (b : TransBarrier) : State :=
  (s.noteBefore [0, hsAddr x off] (s.transBarrier x off).phase).winWrite (hsAddr x off) (bytesOfNat 16 b.toNat)

/-- The checks that every `tb` operation makes first (R361). -/
def State.tbAddress (s : State) (c : Code) (t : Thread) : Except Raise Nat :=
  match s.memAddr c t 1 16, s.gangOf t, s.teamOf t with
  | .error e, _, _ => .error e
  | .ok a, some g, some x =>
    if s.rangeLocked t g 1 a a 16 true then .error { cause := Cause.rangeLock, addr := BitVec.ofNat 64 a }
    else match s.winPoisoned (hsAddr x a) 16 with
      | some u => .error { cause := Cause.memError, addr := BitVec.ofNat 64 u }
      | none => .ok a
  | .ok a, _, _ => .ok a

/-- The operand B of `tb`. -/
def State.tbOperand (s : State) (c : Code) (t : Thread) : Nat := ((s.lane c t).word c.fields.b).toNat

/-- `tb.wait` or `tb.test` is not ready: a fence holds its read, or a write of the thread to the scratchpad is on its way
(R142, R173). -/
def Thread.tbHeld (t : Thread) : Bool := t.fenced classRead || t.storing

/-- `tb.wait` or `tb.test` finds a reserved bit set (R361, R366). -/
def State.badTrans (s : State) (c : Code) (op : Nat) (t : Thread) : Bool :=
  match s.tbAddress c t, s.teamOf t with
  | .ok a, some x => !t.tbHeld && ((s.transBarrier x a).apply op 0).isNone
  | _, _ => false

/-- tb.init, tb.arr and tb.exp (R361): a read and a write that a fence may hold (R173, R458), which enters the core's port
and is performed, or found to be misuse, in the merge order. -/
def State.tbUpdates (s : State) (c : Code) (op : Nat) (t : Thread) : State :=
  if t.fenced 3 then s
  else match s.tbAddress c t, s.gangOf t with
  | .error e, some g => s.accessTrap t g c e
  | .ok a, some _ =>
    s.accessThen c t { space := 1, ea := a, size := 16, op := .trans op (s.tbOperand c t), classes := classRead + classWrite }
      fun _ => t.finish c
  | _, none => s

/-- tb.arr: the release part first. -/
def State.tbArrives (s : State) (c : Code) (t : Thread) : State := s.releasing t (s.tbUpdates c 1 t)

/-- tb.wait (R363). -/
def State.tbWaits (s : State) (c : Code) (t : Thread) : State :=
  if t.tbHeld then s
  else match s.tbAddress c t, s.gangOf t with
  | .error e, some g => s.accessTrap t g c e
  | .ok a, _ =>
    (s.setThread (({ t with pc := nextPc c t.pc } : Thread).park 3 (.tb a (s.tbOperand c t % 16)))).activity t.ref.kid 3 1
  | _, none => s

/-- tb.test (R363). -/
def State.tbTests (s : State) (c : Code) (t : Thread) : State :=
  if t.tbHeld then s
  else match s.tbAddress c t, s.gangOf t, s.teamOf t with
  | .error e, some g, _ => s.accessTrap t g c e
  | .ok a, _, some x =>
    let phase := s.phaseBefore [0, hsAddr x a] (s.transBarrier x a).phase
    (s.setThread ((t.setPred (predOf c.fields.d) (phase != s.tbOperand c t % 16)).finish c)).activity t.ref.kid 3 1
  | _, _, _ => s

/-! ## The grid barrier (R364, R365) -/

/-- The process group names other modules. -/
def Kernel.spans (k : Kernel) : Bool := k.group.length > 1

/-- gridsync: misuse without DET; else the release part at device scope, or at domain scope on several modules,
and park 3 (R364). -/
def State.gridSyncs (s : State) (c : Code) (t : Thread) : State :=
  match s.gangOf t with
  | none => s
  | some g => s.releasing t (
      let wait : Thread → Thread := fun t =>
        ({ t with pc := nextPc c t.pc, rel := true } : Thread).park 3 (.gridsync (predOf c.fields.d))
      (s.setThread (wait t)).startRelease g.hub (.thread t.ref))

/-- A thread stands at `gridsync` with its release done. -/
def Thread.atGrid (t : Thread) : Bool :=
  !t.rel && t.allReturned && (match t.wait with
    | .gridsync _ => true
    | _ => false)

/-- The teams of a module's share of a kernel. -/
def Kernel.count (k : Kernel) : Nat :=
  match k.group[k.share]? with
  | some r => r.teams
  | none => match k.launch with
    | some l => l.teams
    | none => 0

/-- The module's share of a kernel has ended. -/
def Kernel.gone (k : Kernel) : Bool := k.st == .draining || k.final

/-- The module's share of a kernel has arrived at the open grid barrier (R364): one that has ended arrives at once, and one
without teams with the first arrival of another module (R365). -/
def State.shareArrived (s : State) (k : Kernel) : Bool :=
  let ts := s.m.threads.filter fun t => t.ref.kid == k.kid
  if k.count == 0 then !k.shares.isEmpty
  else k.gone && !k.closed || (k.dispatched == k.count && !ts.isEmpty && ts.all (·.atGrid)
    && !((s.context k.ctx).saved.any fun x => x.team.ref.kid == k.kid))

/-- The modules of a kernel's group. -/
def State.groupModules (s : State) (k : Kernel) : List Nat :=
  if k.group.isEmpty then [s.modnum] else k.group.map (·.module)

/-- The kernel that a grid arrival is for: the oldest with the CORR, whose group holds the module, and that has not
ended, else the oldest that has (log entry 13). -/
def State.gridKernel (s : State) (corr m : Nat) : Option Kernel :=
  let ks := s.m.kernels.filter fun k => k.corr.toNat % 2 ^ 32 == corr && k.group.any (·.module == m)
  match ks.find? fun k => !(k.st == .done || k.st == .faulted || k.st == .killed) with
  | some k => some k
  | none => ks.head?

/-- GRIDSYNC_ARRIVAL_PACKET (R365): the share of module `ev.index` has arrived at the kernel of CORR `ev.id`, with its
highest grid rank `ev.x`; with `ev.flag` the share has ended. One that comes before its kernel is kept. -/
def execGridsyncArrivalPacket (s : State) : Out :=
  let e := s.m.ev
  .next (match s.gridKernel e.id e.index with
    | some k => s.updKernel k.kid fun k =>
        { k with shares := k.shares ++ [{ module := e.index, high := e.x, ended := e.flag }] }
    | none => s.modify fun m =>
        { m with early := m.early ++ [(e.id, { module := e.index, high := e.x, ended := e.flag })] })

/-- The kept arrivals of a kernel are its own. -/
def State.claimEarly (s : State) (k : Kernel) : State :=
  let mine := fun (x : Nat × GridShare) => x.1 == k.corr.toNat % 2 ^ 32 && k.group.any (·.module == x.2.module)
  let got := (s.m.early.filter mine).map (·.2)
  if got.isEmpty then s
  else (s.modify fun m => { m with early := m.early.filter fun x => !mine x }).updKernel k.kid fun k =>
    { k with shares := k.shares ++ got }

/-- The share arrives: it is recorded, and every other module is told (R365). The packet says whether the share has ended, so
that shares that have all ended open no further barrier (log entry 13). -/
def State.arriveShare (s : State) (k : Kernel) : State :=
  let high := (s.m.threads.filter fun t => t.ref.kid == k.kid).foldl
    (fun (x : Dword) t => if x < t.grank then t.grank else x) 0
  let s := s.updKernel k.kid fun k =>
    { k with shares := k.shares ++ [{ module := s.modnum, high := high, ended := k.gone }] }
  ((s.groupModules k).filter (· != s.modnum)).foldl (fun s m =>
    if s.route m == 0 then s else s.emit (s.route m) (packet Packet.gridArrival k.corr.toNat 0 (bytesOfDword high ++ [flagByte k.gone]))) s

/-- The first arrival of each module is taken. -/
def takeShares (ms : List Nat) (l : List GridShare) : List GridShare :=
  ms.foldl (fun l m => match l.findIdx? (·.module == m) with
    | some i => l.eraseIdx i
    | none => l) l

/-- Every share has arrived: each parked thread performs its acquire part and its predicate is written (R364). -/
def State.completeGrid (s : State) (k : Kernel) : State :=
  let ms := s.groupModules k
  let firsts := ms.filterMap fun m => k.shares.find? (·.module == m)
  let high := firsts.foldl (fun (x : Dword) f => if x < f.high then f.high else x) 0
  let s := s.updKernel k.kid fun k =>
    { k with shares := takeShares ms k.shares, gridsyncs := k.gridsyncs + 1, closed := firsts.all (·.ended) }
  (s.m.threads.filter fun t => t.ref.kid == k.kid).foldl (fun s t => match t.wait, s.gangOf t with
    | .gridsync p, some g =>
      let (tok, s) := s.newId
      let b : BumpReq := { thread := some t.ref, tok := tok, classD := true, classM := k.spans }
      (s.setThread { t.setPred p (t.grank == high) with wait := .acquire [tok] }).updHub g.hub fun h =>
        { h with bumps := h.bumps ++ [b] }
    | _, _ => s) s

/-- The grid barriers at the end of a cycle's thread operations. -/
def State.gridStep (s : State) : State :=
  s.m.kernels.foldl (fun s k =>
    if !s.det k.kid then s
    else
      let s := s.claimEarly k
      let s := if !(k.shares.any (·.module == s.modnum)) && s.shareArrived k then s.arriveShare k else s
      match s.kernel? k.kid with
      | some k => if (s.groupModules k).all fun m => k.shares.any (·.module == m) then s.completeGrid k else s
      | none => s) s

/-! ## Meanings -/

/-- GSYNC (R358). -/
def execGsync (o : Base) (s : State) : Out :=
  .next (s.run (.base 0x68 o) fun s t => s.gangSyncs (.base 0x68 o) t)
/-- GSYNC_EXT (R358). -/
def execGsyncExt (o : Ext) (s : State) : Out :=
  .next (s.run (.ext 0x68 o) fun s t => s.gangSyncs (.ext 0x68 o) t)
/-- BAR_ARR (R353). -/
def execBarArr (o : Ext) (s : State) : Out :=
  .next (s.runMisuse (.ext 0x69 o) true (fun s t => s.badArrival (.ext 0x69 o) t) fun s t => s.barArrives (.ext 0x69 o) t)
/-- BAR_WAIT (R355). -/
def execBarWait (o : Ext) (s : State) : Out :=
  .next (s.run (.ext 0x69 o) fun s t => s.barWaits (.ext 0x69 o) t)
/-- BAR_SYNC (R356). -/
def execBarSync (o : Ext) (s : State) : Out :=
  .next (s.runMisuse (.ext 0x69 o) true (fun s t => s.badArrival (.ext 0x69 o) t) fun s t => s.barSyncs (.ext 0x69 o) t)
/-- TB_INIT (R361). -/
def execTbInit (o : Ext) (s : State) : Out :=
  .next (s.runAccess (.ext 0x6A o) false fun s t => s.tbUpdates (.ext 0x6A o) 0 t)
/-- TB_ARR (R361). -/
def execTbArr (o : Ext) (s : State) : Out :=
  .next (s.runAccess (.ext 0x6A o) false fun s t => s.tbArrives (.ext 0x6A o) t)
/-- TB_EXP (R361). -/
def execTbExp (o : Ext) (s : State) : Out :=
  .next (s.runAccess (.ext 0x6A o) false fun s t => s.tbUpdates (.ext 0x6A o) 2 t)
/-- TB_WAIT (R363). -/
def execTbWait (o : Ext) (s : State) : Out :=
  .next (s.runMisuse (.ext 0x6A o) false (fun s t => s.badTrans (.ext 0x6A o) 3 t) fun s t => s.tbWaits (.ext 0x6A o) t)
/-- TB_TEST (R363). -/
def execTbTest (o : Ext) (s : State) : Out :=
  .next (s.runMisuse (.ext 0x6A o) false (fun s t => s.badTrans (.ext 0x6A o) 4 t) fun s t => s.tbTests (.ext 0x6A o) t)
/-- GRIDSYNC (R364). -/
def execGridsync (o : Base) (s : State) : Out :=
  .next (s.runMisuse (.base 0x6C o) true (fun s t => !s.det t.ref.kid) fun s t => s.gridSyncs (.base 0x6C o) t)
/-- GRIDSYNC_EXT (R364). -/
def execGridsyncExt (o : Ext) (s : State) : Out :=
  .next (s.runMisuse (.ext 0x6C o) true (fun s t => !s.det t.ref.kid) fun s t => s.gridSyncs (.ext 0x6C o) t)

end Sys2Proof.Machine
end

