-- ==== Sys2Proof/Machine/Control.lean ====
section
/-! DEFINITION. Branches, breaks, predicate moves, `nop` and `yield` (R120, R126 to R129). -/

namespace Sys2Proof.Machine

/-- A code address named by IMM32, from the address of word 0 (R65); it wraps at the width of an address (DESIGN CHOICE, log
entry 96). -/
def relTarget (f : Fields) (pc : Dword) : Dword := addr57 (pc + (f.imm.signExtend 64 <<< 2))

/-- The check of an absolute target (R120): what it raises. -/
def badTarget (x : Dword) : Option Raise :=
  if x &&& 0xFE00000000000000 != 0 then some { cause := Cause.addr, addr := addr57 x }
  else if x.toNat % 4 != 0 then some { cause := Cause.align, addr := x }
  else none

/-- bra (R120). -/
def State.branch (s : State) (c : Code) (t : Thread) : State :=
  s.setThread (t.goTo c (relTarget c.fields t.pc))

/-- brx (R120). -/
def State.branchTo (s : State) (c : Code) (t : Thread) : State :=
  let x := (s.lane c t).dword c.fields.a
  match badTarget x with
  | some e => s.raiseAt t c e
  | none => s.setThread (t.goTo c x)

/-- yield (R126): not eligible on the next issue tick; its gang's stamp is that of one that has just led. -/
def State.yields (s : State) (c : Code) (t : Thread) : State :=
  let now := s.m.cycle
  (s.setThread (({ t with skip := 1 } : Thread).finish c)).updGang t.ref.gangRef fun g => { g with led := now }

/-- brk (R127, R276). -/
def State.breaks (s : State) (c : Code) (t : Thread) : State :=
  let ctx := s.context (s.ctxOf t.ref.kid)
  if ctx.session && ctx.takebrk then s.setThread { t with halt := some .brk }
  else s.raiseAt t c { cause := Cause.brk }

/-- plog (R128). -/
def plogCalc (l : Lane) : Calc :=
  { preds := [(predOf l.f.d, plogOp (subBits l.f 0 2) (l.t.pred (predOf l.f.a)) (l.t.pred (predOf l.f.b)))] }

/-- The direction of pmov: true writes the predicates (R67, R129). -/
def pmovIn (f : Fields) : Bool := if f.ext then f.imm.getLsbD 0 else f.m

/-- pmov (R129). -/
def State.movesPreds (s : State) (c : Code) (t : Thread) : State :=
  if pmovIn c.fields then
    let x := (s.lane c t).word c.fields.a
    s.setThread ((t.setPreds x).finish c)
  else s.setThread ((t.setRegs c.dstReg [t.predByte.zeroExtend 32]).finish c)

/-! ## Meanings -/

/-- BRA (R120). -/
def execBra (o : Ext) (s : State) : Out := .next (s.run (.ext 0x40 o) fun s t => s.branch (.ext 0x40 o) t)
/-- BRX (R120). -/
def execBrx (o : Base) (s : State) : Out :=
  .next (s.run (.base 0x41 o) fun s t => s.branchTo (.base 0x41 o) t)
/-- BRX_EXT (R120). -/
def execBrxExt (o : Ext) (s : State) : Out :=
  .next (s.run (.ext 0x41 o) fun s t => s.branchTo (.ext 0x41 o) t)
/-- NOP (R126). -/
def execNop (o : Base) (s : State) : Out :=
  .next (s.run (.base 0x46 o) fun s t => s.setThread (t.finish (.base 0x46 o)))
/-- NOP_EXT (R126). -/
def execNopExt (o : Ext) (s : State) : Out :=
  .next (s.run (.ext 0x46 o) fun s t => s.setThread (t.finish (.ext 0x46 o)))
/-- YIELD (R126). -/
def execYield (o : Base) (s : State) : Out :=
  .next (s.run (.base 0x47 o) fun s t => s.yields (.base 0x47 o) t)
/-- YIELD_EXT (R126). -/
def execYieldExt (o : Ext) (s : State) : Out :=
  .next (s.run (.ext 0x47 o) fun s t => s.yields (.ext 0x47 o) t)
/-- BRK (R127). -/
def execBrk (o : Base) (s : State) : Out := .next (s.run (.base 0x48 o) fun s t => s.breaks (.base 0x48 o) t)
/-- BRK_EXT (R127). -/
def execBrkExt (o : Ext) (s : State) : Out := .next (s.run (.ext 0x48 o) fun s t => s.breaks (.ext 0x48 o) t)
/-- PLOG (R128). -/
def execPlog (o : Ext) (s : State) : Out := .next (s.compute (.ext 0x49 o) plogCalc)
/-- PMOV (R129). -/
def execPmov (o : Base) (s : State) : Out :=
  .next (s.run (.base 0x4A o) fun s t => s.movesPreds (.base 0x4A o) t)
/-- PMOV_EXT (R129). -/
def execPmovExt (o : Ext) (s : State) : Out :=
  .next (s.run (.ext 0x4A o) fun s t => s.movesPreds (.ext 0x4A o) t)

end Sys2Proof.Machine
end

