-- ==== Sys2Proof/Machine/Memory.lean ====
section
/-! DEFINITION. `ld`, `st`, `atom`, `red`, `fence`, `pf`, `pres` and `sfence` (R159 to R176). -/

namespace Sys2Proof.Machine

/-- The space of `ld` and `st`: SUB [5:3], or M in the base form (R67, R68). -/
def Fields.space (f : Fields) : Nat := if f.ext then subBits f 3 3 else if f.m then 1 else 0
/-- ORD and SCOPE as numbers. -/
def ordOf (f : Fields) : Nat := f.ord.toNat
def scopeOf (f : Fields) : Nat := f.scope.toNat

/-- An access whose address is still to be checked: a thread that is not ready stays (R306). -/
def State.accessAt (s : State) (c : Code) (t : Thread) (ea : Except Raise Nat) (w : Nat → Want) : State :=
  match s.gangOf t with
  | none => s
  | some g =>
    if s.notReady t g (w 0) then s
    else match ea with
      | .error e => s.raiseAt t c e
      | .ok a => s.access c t (w a)

/-- ld (R164). -/
def State.loads (s : State) (c : Code) (t : Thread) : State :=
  let f := c.fields
  let ty := c.ty
  let sp := Fields.space f
  s.accessAt c t (s.memAddr c t sp (Ty.bytes ty)) fun a =>
    { space := sp, ea := a, size := Ty.bytes ty, op := .load, result := some ty, ord := ordOf f,
      scope := scopeOf f, rmt := f.ext && f.sub.getLsbD 2, rep := f.ext && f.sub.getLsbD 1, classes := classRead }

/-- The bytes of registers, lowest register first (R160). -/
def bytesOfWords (ws : List Word) : List Byte := ws.flatMap bytesOfWord

/-- st (R166): D is the stored data. -/
def State.stores (s : State) (c : Code) (t : Thread) : State :=
  let f := c.fields
  let ty := c.ty
  let sp := Fields.space f
  let n := Ty.bytes ty
  let data := (bytesOfWords ((s.lane c t).opnd (Ty.regs ty) f.d)).take n
  s.accessAt c t (s.memAddr c t sp n) fun a =>
    { space := sp, ea := a, size := n, op := .store data, ord := ordOf f, scope := scopeOf f, classes := classWrite }

/-- The space of `atom` and `red`: code 3 is `gl` with RMT (R68). -/
def atomSpace (f : Fields) : Nat := if subBits f 4 2 == 3 then 0 else subBits f 4 2

/-- The old value goes to a register (R52, R63). -/
def Code.keepsOld (c : Code) : Bool := c.fields.op == 0x5A && (Opnd.of c.fields.ext c.fields.d != .zero)

/-- atom and red (R170). -/
def State.atomics (s : State) (c : Code) (t : Thread) : State :=
  let f := c.fields
  let ty := c.ty
  let l := s.lane c t
  let sp := atomSpace f
  let n := 4 * Ty.regs ty
  s.accessAt c t (s.memAddr c t sp n) fun a =>
    { space := sp, ea := a, size := n,
      op := .atomic (subBits f 0 4) ty (l.val f.b) (l.val f.c) l.rnd.noStochastic,
      result := if Code.keepsOld c then some ty else none, ord := ordOf f, scope := scopeOf f,
      rmt := subBits f 4 2 == 3, classes := if f.op == 0x5A then classRead + classWrite else classWrite }

/-! ## Fences (R172, R173) -/

/-- A fence issues: its release part awaits the predecessor-set operations, and an acquire part parks the
thread. -/
def State.fence (s : State) (c : Code) (t : Thread) : State :=
  let f := c.fields
  let ord := ordOf f
  let (tok, s) := s.newId
  let pred := f.imm.toNat % 128
  let waits := if releases ord then (t.out.filter fun o => o.classes &&& pred != 0).map (·.tok) else []
  let x : OpenFence := { tok := tok, waits := waits, successors := f.imm.toNat / 256 % 128, ord := ord,
                         scope := scopeOf f, rmt := f.sub.getLsbD 0, stage := .waiting, promotions := [] }
  let t := { t with fences := t.fences ++ [x] }
  if acquires ord then s.setThread (({ t with pc := nextPc c t.pc } : Thread).park 1 (.acquire [tok]))
  else s.setThread (t.finish c)

/-- Changes an open fence of a thread. -/
def State.updFence (s : State) (r : ThreadRef) (tok : Nat) (fn : OpenFence → OpenFence) : State :=
  s.updThread r fun t => { t with fences := updBy (·.tok == tok) fn t.fences }

/-- A fence is complete. -/
def State.fenceDone (s : State) (r : ThreadRef) (tok : Nat) : State :=
  s.updThread r fun t => { t with fences := t.fences.filter (·.tok != tok), wait := t.wait.acquired tok }

/-- The bump of a fence's acquire part (R150), or its end. -/
def State.fenceBump (s : State) (hub : Nat) (r : ThreadRef) (f : OpenFence) : State :=
  if acquires f.ord && f.scope ≥ 2 then
    let b : BumpReq := { thread := some r, tok := f.tok, classD := true, classM := f.scope ≥ 3 }
    (s.updFence r f.tok fun x => { x with stage := .bumping }).updHub hub fun h => { h with bumps := h.bumps ++ [b] }
  else s.fenceDone r f.tok

/-- The acquire part: with RMT every hub of the kernel's partition is asked to write back first (R161, R221).
Home numbers from 128 on name the asking hub. -/
def State.fenceAcquire (s : State) (hub : Nat) (r : ThreadRef) (f : OpenFence) : State :=
  if !f.rmt then s.fenceBump hub r f
  else
    let part := match s.launch? r.kid with
      | some l => l.part
      | none => 0
    let hubs := s.partitionHubs part
    let s := s.updFence r f.tok fun x => { x with stage := .promoting, promotions := hubs }
    hubs.foldl (fun s h => s.send .toHub (.promoteReq (128 + hub) f.tok h)) s

/-- A fence whose predecessor-set operations are performed goes on (R173). An acquire part awaits the thread's
results, since it ends the segment (R161). -/
def State.fenceStep (s : State) (t : Thread) (f : OpenFence) : State :=
  match f.stage, s.gangOf t with
  | .waiting, some g =>
    if !f.waits.isEmpty || (acquires f.ord && !t.allReturned) then s
    else if releases f.ord && f.scope ≥ 2 then
      (s.updFence t.ref f.tok fun x => { x with stage := .releasing }).startRelease g.hub (.fence t.ref f.tok)
    else s.fenceAcquire g.hub t.ref f
  | _, _ => s

/-- Every open fence of the module that can go on. -/
def State.fenceSteps (s : State) : State :=
  s.m.threads.foldl (fun s t => t.fences.foldl (fun s f => s.fenceStep t f) s) s

/-! ## pf, pres, sfence (R174 to R176) -/

/-- An access that `pf` makes. -/
def State.prefetchOf (s : State) (c : Code) (t : Thread) (g : Gang) (a va tok : Nat) (place : Place) (pa : Nat) :
    Access :=
  { tok := tok, thread := t.ref, hub := g.hub, core := g.core, quarter := g.quarter, space := 0, ea := a, pa := pa,
    place := place, size := 1, va := va, ctx := s.ctxOf t.ref.kid, op := .prefetch (c.fields.sub.getLsbD 0),
    result := none, ord := 0, scope := 0, rmt := false, rep := c.fields.sub.getLsbD 1, tack := false,
    degraded := false, io := false, lineage := t.lineage, pc := t.pc, word0 := c.words.getD 0 0, issued := s.m.cycle, lease := 0 }

/-- The fetch of a prefetch whose page is known; a host page is never cached (R370). -/
def State.prefetchAt (s : State) (a : Access) (e : Tlb) : State :=
  if !e.r || e.place == .host then s
  else (s.activity a.thread.kid 2 1).updHub a.hub fun h =>
    { h with ports := pushPort a.core { a with place := e.place, pa := e.target a.va, lease := e.leaseEnd } h.ports }

/-- pf (R174): it never traps and never waits; a first-level miss looks in the second level. -/
def State.prefetches (s : State) (c : Code) (t : Thread) : State :=
  let s' := s.setThread (t.finish c)
  match s.memAddr c t 0 1, s.gangOf t with
  | .ok a, some g =>
    let ctx := s.ctxOf t.ref.kid
    if (s.locksOver g.hub ctx false a 1).any (·.dest) || s.regionMoving ctx a then s'
    else
      let (tok, s') := s'.newId
      let p := s.prefetchOf c t g a a tok .here 0
      let s' := s'.updTlb g.hub g.core (s.liveTlbs ctx a)
      match s.lookupCore g.hub g.core ctx a with
      | some e => (s'.useTlb g.hub g.core e).prefetchAt p e
      | none => (s'.count g.hub 13 1).sendAt (s.m.cycle + 6) (.pfProbe p)
  | _, _ => s'

/-- The second-level lookup of a prefetch: a miss has no effect (R374). -/
def State.prefetchProbed (s : State) (a : Access) : State :=
  let s := s.freeStale a.hub a.ctx a.va
  match s.lookupHub a.hub a.ctx a.va with
  | some e => ((s.useTlb2 a.hub e).fillCore a.hub a.core e).prefetchAt a e
  | none => s

/-- pres (R175). -/
def State.testsPresence (s : State) (c : Code) (t : Thread) : State :=
  match s.memAddr c t 1 1, s.teamOf t with
  | .error e, _ => s.raiseAt t c e
  | .ok a, some x => s.setThread ((t.setPred (predOf c.fields.d) (x.present a 1)).finish c)
  | .ok _, none => s

/-- sfence (R176): the thread's earlier `hs` writes are awaited before the bump. The thread is not ready for a second one
until the bump of the first is made (DEDUCED, log entry 97). -/
def State.sfences (s : State) (c : Code) (t : Thread) : State :=
  if t.sfenceWait.isSome then s
  else
    let ws := (t.out.filter fun o => o.classes &&& classHs != 0).map (·.tok)
    s.setThread (({ t with sfenceWait := some ws } : Thread).finish c)

/-! ## Meanings -/

/-- LD (R164). -/
def execLd (o : Base) (s : State) : Out :=
  .next (s.runAccess (.base 0x58 o) true fun s t => s.loads (.base 0x58 o) t)
/-- LD_EXT (R164). -/
def execLdExt (o : Ext) (s : State) : Out :=
  .next (s.runAccess (.ext 0x58 o) true fun s t => s.loads (.ext 0x58 o) t)
/-- ST (R166). -/
def execSt (o : Base) (s : State) : Out :=
  .next (s.runAccess (.base 0x59 o) false fun s t => s.stores (.base 0x59 o) t)
/-- ST_EXT (R166). -/
def execStExt (o : Ext) (s : State) : Out :=
  .next (s.runAccess (.ext 0x59 o) false fun s t => s.stores (.ext 0x59 o) t)
/-- ATOM (R170). -/
def execAtom (o : Ext) (s : State) : Out :=
  .next (s.runAccess (.ext 0x5A o) (Code.keepsOld (.ext 0x5A o)) fun s t => s.atomics (.ext 0x5A o) t)
/-- RED (R170). -/
def execRed (o : Ext) (s : State) : Out :=
  .next (s.runAccess (.ext 0x5B o) false fun s t => s.atomics (.ext 0x5B o) t)
/-- FENCE (R173). -/
def execFence (o : Ext) (s : State) : Out := .next (s.run (.ext 0x5C o) fun s t => s.fence (.ext 0x5C o) t)
/-- PF (R174). -/
def execPf (o : Ext) (s : State) : Out :=
  .next (s.runAccess (.ext 0x5D o) false fun s t => s.prefetches (.ext 0x5D o) t)
/-- PRES (R175). -/
def execPres (o : Base) (s : State) : Out :=
  .next (s.run (.base 0x5E o) fun s t => s.testsPresence (.base 0x5E o) t)
/-- PRES_EXT (R175). -/
def execPresExt (o : Ext) (s : State) : Out :=
  .next (s.run (.ext 0x5E o) fun s t => s.testsPresence (.ext 0x5E o) t)
/-- SFENCE (R176). -/
def execSfence (o : Base) (s : State) : Out :=
  .next (s.run (.base 0x5F o) fun s t => s.sfences (.base 0x5F o) t)
/-- SFENCE_EXT (R176). -/
def execSfenceExt (o : Ext) (s : State) : Out :=
  .next (s.run (.ext 0x5F o) fun s t => s.sfences (.ext 0x5F o) t)

end Sys2Proof.Machine
end

