-- ==== Sys2Proof/Machine/Tack.lean ====
section
/-! DEFINITION. Tack loads and their windows (R191 to R210). -/

namespace Sys2Proof.Machine

/-- A thread can take an entry: a window is open, it holds fewer than 8, and its core's table fewer than 512
(R193, R197). -/
def State.tackRoom (s : State) (t : Thread) (g : Gang) : Bool :=
  tackOpenBit t.tackst && tackOut t.tackst < 8
    && ((s.hub g.hub).cores.toArray.getD g.core Core.fresh).tacks.length < 512

/-- Takes an entry for an access (R193, R198); the tag and version follow when the slice is read. -/
def State.takeTack (s : State) (a : Access) : State :=
  let e : TackEntry := { thread := a.thread, tok := a.tok, place := a.place, pa := a.pa / 32 * 32, va := a.va, ctx := a.ctx,
                         tag := 0, version := 0, issued := s.m.cycle, byFill := false }
  let h := s.hub a.hub
  let c := h.cores.toArray.getD a.core Core.fresh
  (s.setHub { h with cores := h.cores.setIfInBounds a.core { c with tacks := c.tacks ++ [e] } }).updThread a.thread
    fun t => { t with tackst := setBits t.tackst 4 4 (tackOut t.tackst + 1) }

/-- A degraded tack load sets DEG and counts (R197, R198). -/
def tackDegraded (x : Word) : Word := bumpCount (x ||| 2) 8

/-- tack.ld (R202). -/
def State.tackLoads (s : State) (c : Code) (t : Thread) : State :=
  let ty := c.ty
  let n := Ty.bytes ty
  match s.gangOf t with
  | none => s
  | some g =>
    if t.fenced classRead then s
    else match s.memAddr c t 0 n with
    | .error e => s.raiseAt t c e
    | .ok ea =>
      let (tok, s) := s.newId
      let w : Want := { space := 0, ea := ea, size := n, op := .load, result := some ty, tack := true,
                        classes := classRead }
      if s.ioFenced t g w then s
      else match s.checkAccess c t g w tok with
      | .trap e => s.accessTrap t g c e
      | .wait va => s.awaitXlat g.hub g.core (s.ctxOf t.ref.kid) va t.ref t.pc w.need
      | .ok a =>
        let s := (s.setThread (t.afterAccess c a false)).noteAccess a
        if s.tackRoom t g then (s.takeTack a).launchAccess a classRead
        else
          let s := (s.updThread t.ref fun t => { t with tackst := tackDegraded t.tackst }).count g.hub 9 1
          s.launchAccess { a with degraded := true, scope := 2 } classRead

/-- Frees every PENDING entry of a thread (R205, R209). -/
def State.freeTacks (s : State) (r : ThreadRef) : State :=
  match (s.thread? r).bind s.gangOf with
  | some g => s.updHub g.hub fun h =>
      { h with cores := h.cores.map fun c => { c with tacks := c.tacks.filter (·.thread != r) } }
  | none => s

/-- tackst with OUT 0 and OPEN 0 (R198). -/
def tackClosed (x : Word) : Word := setBits (setBits x 4 4 0) 0 1 0

/-- tack.drop on a thread (R205): no window open, no effect. -/
def State.dropWindow (s : State) (r : ThreadRef) : State :=
  match s.thread? r with
  | some t => if tackOpenBit t.tackst then
      (s.freeTacks r).updThread r fun t => { t with tackst := tackClosed t.tackst }
    else s
  | none => s

/-- tack.open (R203): an open window is dropped first; OPEN is set and STRUCK cleared. -/
def State.openWindow (s : State) (c : Code) (t : Thread) : State :=
  (s.dropWindow t.ref).updThread t.ref fun t =>
    ({ t with tackst := setBits (setBits t.tackst 0 1 1) 2 1 0 } : Thread).finish c

/-- The end of tack.chk (R204): the commit, the window closed, and the branch on STRUCK. -/
def Thread.tackChecked (t : Thread) (target next : Dword) : Thread :=
  let t := t.commitAll
  { t with tackst := if tackOpenBit t.tackst then tackClosed t.tackst else t.tackst
           pc := if tackStruck t.tackst then target else next }

/-- tack.chk (R204): it completes at once when no entry is pending and every result has returned, and else
parks with reason 6. -/
def State.checksWindow (s : State) (c : Code) (t : Thread) : State :=
  let target := addr57 (t.pc + (c.fields.imm.signExtend 64 <<< 2))
  let next := nextPc c t.pc
  if tackOut t.tackst == 0 && t.allReturned then s.setThread (t.tackChecked target next)
  else s.setThread (t.park 6 (.tackChk target next))

/-! ## Entry expiry (R196) -/

/-- The lifetime of an entry in cycles (R196). -/
abbrev tackLife : Nat := 16384

/-- Some entry of a core is at the end of its life. -/
def Core.tackExpired (c : Core) (cycle : Nat) : Option TackEntry := c.tacks.find? fun e => e.issued + tackLife ≤ cycle

/-- TACK_ENTRY_EXPIRY (R196): the entry of the token is struck. -/
def execTackEntryExpiry (s : State) : Out :=
  let e := s.m.ev
  let h := s.hub e.hub
  let c := h.cores.toArray.getD e.core Core.fresh
  match c.tacks.find? (·.tok == e.id) with
  | none => .next s
  | some x =>
    let c := { c with tacks := c.tacks.filter (·.tok != e.id) }
    .next ((s.setHub { h with cores := h.cores.setIfInBounds e.core c }).resolveTack e.hub x.thread false)

/-! ## Meanings -/

/-- TACK_LD (R202). -/
def execTackLd (o : Base) (s : State) : Out :=
  .next (s.runAccess (.base 0x63 o) true fun s t => s.tackLoads (.base 0x63 o) t)
/-- TACK_LD_EXT (R202). -/
def execTackLdExt (o : Ext) (s : State) : Out :=
  .next (s.runAccess (.ext 0x63 o) true fun s t => s.tackLoads (.ext 0x63 o) t)
/-- TACK_OPEN (R203). -/
def execTackOpen (o : Base) (s : State) : Out :=
  .next (s.run (.base 0x64 o) fun s t => s.openWindow (.base 0x64 o) t)
/-- TACK_OPEN_EXT (R203). -/
def execTackOpenExt (o : Ext) (s : State) : Out :=
  .next (s.run (.ext 0x64 o) fun s t => s.openWindow (.ext 0x64 o) t)
/-- TACK_CHK (R204). -/
def execTackChk (o : Ext) (s : State) : Out :=
  .next (s.run (.ext 0x65 o) fun s t => s.checksWindow (.ext 0x65 o) t)
/-- TACK_DROP (R205). -/
def execTackDrop (o : Base) (s : State) : Out :=
  .next (s.run (.base 0x66 o) fun s t => (s.dropWindow t.ref).updThread t.ref fun t => t.finish (.base 0x66 o))
/-- TACK_DROP_EXT (R205). -/
def execTackDropExt (o : Ext) (s : State) : Out :=
  .next (s.run (.ext 0x66 o) fun s t => (s.dropWindow t.ref).updThread t.ref fun t => t.finish (.ext 0x66 o))

end Sys2Proof.Machine
end

