-- ==== Sys2Proof/Machine/Group.lean ====
section
/-! DEFINITION. Calls, the end of a thread, the `sys` instructions, extended blocks, spawn and bins, join, and
the wake of a parked thread (R122 to R125, R267, R268, R305 to R308, R314 to R327, R425). -/

namespace Sys2Proof.Machine

/-! ## Creation (R24, R27, R42) -/

/-- A thread as it is created. -/
def Thread.fresh (ref : ThreadRef) (pc : Dword) (grank lineage : Dword) (pvSize : Nat) : Thread where
  ref := ref
  v := Vector.replicate 96 0
  poison := []
  p := 1
  pc := pc
  fmode := 0
  sptr := BitVec.ofNat 32 pvSize
  lineage := lineage
  rngctr := 0
  tackst := 0
  popst := 0
  spawns := 0
  grank := grank
  x := { cause := 0, pc := 0, addr := 0, word0 := 0, word1 := 0, word2 := 0, word3 := 0, fld := 0 }
  pend := []
  st := .ready
  wait := .none
  inHandler := false
  halt := none
  stopped := false
  nest := 0
  pass := 0
  skip := 0
  arr := 0
  ph := Vector.replicate 16 0
  out := []
  fences := []
  retWait := none
  pstepWait := none
  sfenceWait := none
  rel := false
  joins := none
  xacqIssued := false
  xrelIssued := false
  rsmp := none
  stepOver := false

/-- The logical place of position p on virtual hub v (R296): vcore and vslot. -/
def logicalPlace (v p : Nat) : Nat × Nat :=
  let k := p / 4
  (4 * v + p % 4, k % 4 * 32 + k / 4 % 32)

/-- A slot of the module is taken by a gang or reserved for a population (R297, R332). -/
def State.slotTaken (s : State) (hub core quarter slot : Nat) : Bool :=
  s.m.gangs.any (fun g => g.hub == hub && g.core == core && g.quarter == quarter && g.slot == slot)
    || s.m.kernels.any fun k => k.places.any fun p => p.hub == hub && p.core == core && p.quarter == quarter && p.slot == slot

/-- Some slots that are free on a core, in canonical order (R9). -/
def State.freeSlots (s : State) (hub core : Nat) : List (Nat × Nat) :=
  ((List.range 4).flatMap fun q => (List.range 32).map fun x => (q, x)).filter fun p => !s.slotTaken hub core p.1 p.2

/-- The initial gang registers of a role (R27, R291). -/
def LaunchRec.gangRegs (l : LaunchRec) (role : Nat) : Vector Word 128 :=
  match l.roles[role]? with
  | some r => r.ginit.foldl (fun v p => v.setIfInBounds p.1 p.2) (Vector.replicate 128 0)
  | none => Vector.replicate 128 0

/-- A gang at a physical slot with its logical place. -/
def State.newGang (s : State) (ref : GangRef) (role hub core quarter slot : Nat) (place : Nat × Nat) : Gang :=
  { ref := ref, role := role, hub := hub, core := core, quarter := quarter, slot := slot, vcore := place.1,
    vslot := place.2, led := s.m.cycle, waitCount := 0, blocks := [], xacq := none, binned := false, poison := [],
    g := match s.launch? ref.kid with
      | some l => l.gangRegs role
      | none => Vector.replicate 128 0 }

/-! ## Calls (R122 to R124) -/

/-- The private access of a call or return at an offset. -/
def stackWant (op : AccOp) (result : Option Nat) (off : Nat) (classes : Nat) : Want :=
  { space := 3, ea := off, size := 8, op := op, result := result, classes := classes }

/-- call and callx (R122) to a checked target; a fence may hold the stack write (R173, R458). -/
def State.calls (s : State) (c : Code) (t : Thread) (target : Dword) : State :=
  let sp := t.sptr.toNat
  if t.fenced classWrite then s
  else if sp % 8 != 0 then s.raiseAt t c { cause := Cause.align, addr := BitVec.ofNat 64 sp }
  else if sp < 8 then s.raiseAt t c { cause := Cause.addr }
  else match effAddr 3 (s.limit t 3) (sp - 8) 0 8 with
    | .error e => s.raiseAt t c e
    | .ok a =>
      s.accessThen c t (stackWant (.store (bytesOfDword (nextPc c t.pc))) none a classWrite) fun _ =>
        ({ t with sptr := t.sptr - 8 } : Thread).goTo c target

/-- callx (R120, R122). -/
def State.callsTo (s : State) (c : Code) (t : Thread) : State :=
  let x := (s.lane c t).dword c.fields.a
  match badTarget x with
  | some e => if t.fenced classWrite then s else s.raiseAt t c e
  | none => s.calls c t x

/-- ret (R123): the stack read is issued with its effect on `sptr`, and the thread is not ready until it returns (R124). -/
def State.returns (s : State) (c : Code) (t : Thread) : State :=
  let sp := t.sptr.toNat
  if t.fenced classRead then s
  else if sp % 8 != 0 then s.raiseAt t c { cause := Cause.align, addr := BitVec.ofNat 64 sp }
  else if sp + 8 > s.limit t 3 then s.raiseAt t c { cause := Cause.addr }
  else s.accessThen c t (stackWant .load (some Ty.n64) sp classRead) fun a => { t with sptr := t.sptr + 8, retWait := some (a.tok, c) }

/-- The stack read of `ret` has returned (R123): the address is checked, then taken. When it traps, `sptr` is as it was. -/
def State.returned (s : State) (t : Thread) (c : Code) (x : Dword) : State :=
  let t := { t with retWait := none }
  match badTarget x with
  | some e =>
    let t := { t with sptr := t.sptr - 8 }
    (s.setThread t).raiseAt t c e
  | none => s.setThread (t.goTo c x)

/-- A result returns to its thread, or its poison ends the team (R59, R157). -/
def State.resultReturned (s : State) (r : ThreadRef) (tok : Nat) (value : List Word)
    (poisoned : Option (Nat × Dword × Word)) : State :=
  match s.thread? r with
  | none => s
  | some t => match poisoned with
    | some (u, pc, w) => s.fatal t Cause.memError pc (BitVec.ofNat 64 u) false 0 w
    | none => match t.retWait with
      | some (k, c) =>
        if k == tok then s.returned t c (pair (value.getD 0 0) (value.getD 1 0)) else s.setThread (t.returned tok value)
      | none => s.setThread (t.returned tok value)

/-- DEFERRED_RESULT_RETURN (R59): the message `ev.id`. -/
def execDeferredResultReturn (s : State) : Out :=
  .next (match s.takeFlight s.m.ev.id with
    | (some f, s') => (match f.msg with
      | .result t tok v p => s'.resultReturned t tok v p
      | _ => s)
    | (none, _) => s)

/-! ## The end of a thread (R326, R327) -/

/-- The window address of a register word of a lane: of a slot's own block, or of a pool block (R144). -/
def regAddr (g : Gang) (pool : Bool) (n reg lane : Nat) : Nat :=
  windowAddr g.hub 2 (g.core * 2 ^ 20 + g.quarter * 2 ^ 18 + (if pool then 2 ^ 17 else 0) + n * 2 ^ 12 + reg * 128 + lane * 4)

/-- A block of a thread's registers, from register base on, stays where it stands when the thread or its gang gives the block
up: the window shows it until another gang takes the place (R144, R438, R442; log entry 100). -/
def State.leaveBlock (s : State) (g : Gang) (t : Thread) (pool : Bool) (n base : Nat) : State :=
  (List.range 32).foldl (fun s i =>
    s.winWrite (regAddr g pool n i t.ref.lane) (bytesOfWord (t.v.toArray.getD (base + i) 0))) s

/-- The pool blocks of a thread. -/
def State.leavePool (s : State) (g : Gang) (t : Thread) : State :=
  g.blocks.zipIdx.foldl (fun s b => s.leaveBlock g t true b.1 (32 * (b.2 + 1))) s

/-- The registers of a thread that ends. -/
def State.leaveRegs (s : State) (g : Gang) (t : Thread) : State := (s.leaveBlock g t false g.slot 0).leavePool g t

/-- The gang registers of a gang that leaves its slot. -/
def State.leaveGang (s : State) (g : Gang) : State :=
  s.winWrite (windowAddr g.hub 3 (g.core * 2 ^ 20 + (g.quarter * 32 + g.slot) * 512)) (g.g.toList.flatMap bytesOfWord)

/-- Frees the gang's extended blocks when every thread left has issued `xrel` (R317). -/
def State.testRelease (s : State) (g : GangRef) : State :=
  let ts := s.gangThreads g
  match s.gang? g with
  | some x =>
    if ts.all (·.xrelIssued) && !x.blocks.isEmpty then
      ((ts.foldl (fun s t => s.leavePool x t) s).updGang g fun x => { x with blocks := [] }).modify fun m =>
        { m with threads := updBy (·.ref.gangRef == g) (fun t => { t with xrelIssued := false }) m.threads }
    else s
  | none => s

/-- An open `xacq` request that every live thread has issued enters its quarter's queue (R316, R318). -/
def State.testRequest (s : State) (g : GangRef) : State :=
  match s.gang? g with
  | some x => match x.xacq with
    | some r =>
      if !r.complete && (s.gangThreads g).all (·.xacqIssued) then
        s.updGang g fun y => { y with xacq := some { r with complete := true, since := s.m.cycle, order := x.slot } }
      else s
    | none => s
  | none => s

/-- The team has no thread left and none in a bin (R308). -/
def State.teamEmpty (s : State) (r : TeamRef) : Bool :=
  !(s.m.threads.any fun t => t.ref.teamRef == r) && s.m.hubs.all fun h => h.bins.all (·.team != r)

/-- Join counter of a child that ends (R326); none: BARRIER_MISUSE. -/
def joinEnd (x : Nat) (abnormal : Bool) : Option Nat :=
  let pend := x % 2 ^ 32
  let abn := x / 2 ^ 32
  if pend == 0 then none
  else some ((if abnormal then Nat.min (abn + 1) 0xFFFFFFFF else abn) * 2 ^ 32 + (pend - 1))

/-- The last thread of a gang has left: the gang goes (R307, R327). -/
def State.dropGang (s : State) (x : Gang) : State :=
  ((s.leaveGang x).modify fun m => { m with gangs := m.gangs.filter (·.ref != x.ref) }).leaveQuarter x.ref.kid
    { hub := x.hub, core := x.core, quarter := x.quarter }

/-- A thread leaves: gang and team follow when it was their last (R307, R308, R327). -/
def State.leave (s : State) (t : Thread) : State :=
  let g := t.ref.gangRef
  let r := t.ref.teamRef
  let q := s.gangOf t
  let s := q.elim s fun x => s.leaveRegs x t
  let s := s.modify fun m => { m with threads := m.threads.filter (·.ref != t.ref) }
  let s := if (s.gangThreads g).isEmpty then q.elim s fun x => s.dropGang x
    else (s.testRelease g).testRequest g
  if s.teamEmpty r then s.endTeam r else s.testBars r

/-- A thread ends by `exit` or `sys tkill` (R327): its tack entries are freed and its join counter updated. -/
def State.endThread (s : State) (t : Thread) (abnormal : Bool) : State :=
  let s := s.freeTacks t.ref
  match t.joins, s.teamOf t with
  | some off, some x => match joinEnd (natOfBytes (s.winRead (hsAddr x off) 8)) abnormal with
    | some n => (s.winWrite (hsAddr x off) (bytesOfNat 8 n)).leave t
    | none => s.fatal t Cause.barrierMisuse t.pc 0 false 0 0
  | _, _ => s.leave t

/-- The thread would end now, and its join counter has PEND 0 (R326, R366). -/
def State.badEnd (s : State) (t : Thread) : Bool :=
  match t.joins, s.teamOf t with
  | some off, some x => (joinEnd (natOfBytes (s.winRead (hsAddr x off) 8)) false).isNone
  | _, _ => false

/-- exit (R60, R125, R218): a window is dropped, earlier accesses are performed, pending results committed, and
the thread ends. -/
def State.exits (s : State) (t : Thread) : State :=
  let s := s.dropWindow t.ref
  match s.thread? t.ref with
  | none => s
  | some t =>
    if t.outstanding then s
    else if t.allReturned then (s.setThread t.commitAll).endThread t.commitAll false
    else s.setThread (t.park 1 .exit)

/-! ## sys (R267, R268, R425) -/

/-- sys trap: it completes, and SOFT is raised at the next instruction's address. -/
def State.sysTraps (s : State) (c : Code) (t : Thread) : State :=
  let code := ((s.lane c t).word c.fields.b).zeroExtend 64
  s.raise t.ref (nextPc c t.pc) c { cause := Cause.soft, addr := code }

/-- sys tret. -/
def State.sysReturns (s : State) (c : Code) (t : Thread) : State :=
  if t.nest == 0 then s.raiseAt t c { cause := Cause.illegalField, badf := 4 }
  else if t.x.pc.toNat % 4 != 0 then s.raiseAt t c { cause := Cause.align, addr := addr57 t.x.pc }
  else if t.allReturned then s.setThread t.commitAll.tret
  else s.setThread (t.park 1 .tret)

/-- A marker after an instruction, whatever its S. -/
def Thread.finishMarked (t : Thread) (c : Code) : Thread := ({ t with pc := nextPc c t.pc } : Thread).marker

/-- sys halt: HALTED at the next instruction under a session, which is told, else as `nop !`. -/
def State.sysHalts (s : State) (c : Code) (t : Thread) : State :=
  let x := s.context (s.ctxOf t.ref.kid)
  if x.session && x.dbg then
    (s.setThread { t.finish c with halt := some .sysHalt }).emit 0 (packet Packet.halted 0 (nextPc c t.pc).toNat
      (bytesOfNat 4 t.ref.kid ++ bytesOfNat 4 t.ref.team ++ bytesOfNat 2 t.ref.gang ++ bytesOfNat 1 t.ref.lane))
  else s.setThread (t.finishMarked c)

/-- sys idle. -/
def State.sysIdles (s : State) (c : Code) (t : Thread) : State :=
  let n := Nat.min (Nat.max ((s.lane c t).word c.fields.b).toNat 1) 65536
  s.setThread (({ t with skip := n } : Thread).finish c)

/-- sys cad (R425): once per packet, from its lowest lane. A register that the gang does not hold, or a poisoned one, raises
its cause with nothing changed (R23, R157). -/
def State.sysCadence (s : State) (c : Code) : State :=
  match s.participants c with
  | [] => s.run c fun s t => s.setThread (t.finish c)
  | t :: ts =>
    if (t :: ts).any fun t => (s.poisonRead c t).isSome then s.run c fun s t => s.setThread (t.finish c)
    else if !(s.context (s.ctxOf t.ref.kid)).priv then s.run c fun s t => s.raiseAt t c { cause := Cause.priv }
    else match s.gangOf t with
      | none => s
      | some g =>
        let k := Nat.min (Nat.max ((s.lane c t).word c.fields.b).toNat 1) 16
        let q : QRef := { hub := g.hub, core := g.core, quarter := g.quarter }
        let s := (s.updQuarter q fun x => { x with request := k, requestBy := some t.ref.kid }).regrant q
        s.run c fun s t => s.setThread (t.finish c)

/-! ## Extended blocks (R314 to R318) -/

/-- The role's budget of the gang's team in its quarter (R310). -/
def State.budget (s : State) (g : Gang) : Nat :=
  match s.team? g.ref.teamRef with
  | some t => ((t.budgets.find? fun b => b.core == g.core && b.quarter == g.quarter && b.role == g.role).map
      (·.blocks)).getD 0
  | none => 0

/-- xacq (R316): EXT_BLOCK in the whole packet, or every thread parks with reason 5. -/
def State.acquiresBlocks (s : State) (c : Code) : State :=
  match s.participants c with
  | [] => s.run c fun s _ => s
  | t :: _ => match s.gangOf t with
    | none => s
    | some g =>
      let n := ((s.lane c t).word c.fields.a).toNat
      let other := match g.xacq with
        | some r => r.n != n
        | none => false
      if !g.blocks.isEmpty || n == 0 || n > 2 || n > s.budget g || other then
        s.run c fun s t => s.raiseAt t c { cause := Cause.extBlock }
      else
        let s := s.updGang g.ref fun g =>
          if g.xacq.isSome then g else { g with xacq := some { n := n, complete := false, since := 0, order := 0 } }
        let s := s.run c fun s t =>
          s.setThread (({ t with pc := nextPc c t.pc, xacqIssued := true } : Thread).park 5 .xacq)
        s.testRequest g.ref

/-- The blocks of a quarter's pool that no gang holds, lowest first. -/
def State.freeBlocks (s : State) (q : QRef) : List Nat :=
  let held := (s.m.gangs.filter fun g => g.hub == q.hub && g.core == q.core && g.quarter == q.quarter).flatMap (·.blocks)
  (List.range 32).filter (!held.contains ·)

/-- A grant (R315, R316): the lowest free blocks, cleared. -/
def State.grantBlocks (s : State) (g : Gang) (n : Nat) : State :=
  let bs := (s.freeBlocks { hub := g.hub, core := g.core, quarter := g.quarter }).take n
  let clear : Thread → Thread := fun t =>
    { t.setRegs 32 (List.replicate (32 * n) 0) with wait := .none, xacqIssued := false, xrelIssued := false }
  (s.updGang g.ref fun g => { g with blocks := bs, xacq := none }).modify fun m =>
    { m with threads := updBy (·.ref.gangRef == g.ref) clear m.threads }

/-- The queue of a quarter (R318): each complete request in order; one that cannot be granted blocks the younger
ones of its team and role. -/
def State.grantQuarter (s : State) (q : QRef) : State :=
  let waiting := (s.m.gangs.filter fun g => g.hub == q.hub && g.core == q.core && g.quarter == q.quarter
    && (match g.xacq with
      | some r => r.complete
      | none => false))
  let order := sortKey (fun (g : Gang) => (g.xacq.elim [] fun r => [r.since, r.order])) waiting
  (order.foldl (fun (p : State × List (TeamRef × Nat)) g =>
    let n := (g.xacq.map (·.n)).getD 0
    let key := (g.ref.teamRef, g.role)
    let used := ((p.1.m.gangs.filter fun x => x.ref.teamRef == g.ref.teamRef && x.role == g.role && x.core == g.core
      && x.quarter == g.quarter).map (·.blocks.length)).sum
    if p.2.contains key then p
    else if used + n ≤ p.1.budget g && n ≤ (p.1.freeBlocks q).length then (p.1.grantBlocks g n, p.2)
    else (p.1, key :: p.2)) (s, [])).1

/-- XACQ_GRANT (R318) in the quarter of the operands. -/
def execXacqGrant (s : State) : Out :=
  .next (s.grantQuarter { hub := s.m.ev.hub, core := s.m.ev.core, quarter := s.m.ev.quarter })

/-- xrel (R317). -/
def State.releasesBlocks (s : State) (c : Code) (t : Thread) : State :=
  match s.gangOf t with
  | none => s
  | some g =>
    if g.blocks.isEmpty then s.setThread (t.finish c)
    else (s.setThread ({ t.finish c with xrelIssued := true })).testRelease g.ref

/-! ## Spawn and bins (R319 to R323) -/

/-- The bin a spawned thread enters: the lowest with its key and room, else the lowest empty one (R321). -/
def Hub.binFor (h : Hub) (team : TeamRef) (role : Nat) (entry : Dword) : Option Nat :=
  let mine := fun (n : Nat) => match h.bins.find? (·.num == n) with
    | some b => b.team == team && b.role == role && b.entry == entry && b.threads.length < 32
    | none => false
  match (List.range 16).find? mine with
  | some n => some n
  | none => (List.range 16).find? fun n => !h.bins.any (·.num == n)

/-- Adds a thread to a bin, which takes the key with its first thread. -/
def Hub.enterBin (h : Hub) (n cycle : Nat) (team : TeamRef) (role : Nat) (entry : Dword) (t : BinThread) : Hub :=
  match h.bins.find? (·.num == n) with
  | some b => { h with bins := putBy (·.num == n) { b with threads := b.threads ++ [t] } h.bins }
  | none => { h with bins := h.bins ++
      [{ num := n, team := team, role := role, entry := entry, threads := [t], since := cycle, expired := false }] }

/-- The counter operand of `spawn`; none: no counter (R319). -/
def State.spawnCounter (s : State) (c : Code) (t : Thread) : Option Nat :=
  let j := (s.lane c t).word c.fields.b
  if j == 0xFFFFFFFF then none else some j.toNat

/-- The counter's address, checked as for `atom` (R320). -/
def State.counterAddress (s : State) (t : Thread) (g : Gang) (j : Nat) : Except Raise Nat :=
  match effAddr 1 (s.limit t 1) j 0 8 with
  | .error e => .error e
  | .ok a => if s.rangeLocked t g 1 a a 8 true then .error { cause := Cause.rangeLock, addr := BitVec.ofNat 64 a } else .ok a

/-- The kernel has POP set. -/
def State.pop (s : State) (kid : Nat) : Bool :=
  match s.launch? kid with
  | some l => l.pop
  | none => false

/-- A fence holds the counter's update, or a write of the thread to the scratchpad is on its way (R142, R173, R458). -/
def State.spawnHeld (s : State) (c : Code) (t : Thread) : Bool := (s.spawnCounter c t).isSome && (t.fenced 3 || t.storing)

/-- The spawn finds a full counter (R320, R366). -/
def State.badSpawn (s : State) (c : Code) (t : Thread) : Bool :=
  match s.spawnCounter c t, s.gangOf t, s.teamOf t with
  | some j, some g, some x => !s.pop t.ref.kid && !s.spawnHeld c t && (match s.counterAddress t g j with
    | .ok a => natOfBytes (s.winRead (hsAddr x a) 4) == 0xFFFFFFFF
    | .error _ => false)
  | _, _, _ => false

/-- lineage of a spawned thread (R33). -/
def spawnLineage (t : Thread) : Dword :=
  BitVec.ofNat 64 (0xFFFF * 2 ^ 48 + t.grank.toNat % 2 ^ 24 * 2 ^ 24 + t.spawns % 2 ^ 24)

/-- spawn (R320). -/
def State.spawns (s : State) (c : Code) (t : Thread) : State :=
  if s.spawnHeld c t then s
  else if s.pop t.ref.kid then s.raiseAt t c { cause := Cause.popMisuse }
  else match s.gangOf t, s.teamOf t with
    | some g, some x =>
      let entry := relTarget c.fields t.pc
      let count : Except Raise (Option Nat) := match s.spawnCounter c t with
        | none => .ok none
        | some j => (s.counterAddress t g j).map some
      match count with
      | .error e => s.accessTrap t g c e
      | .ok j =>
        if t.outstanding then s
        else match (s.hub g.hub).binFor t.ref.teamRef g.role entry with
          | none => s
          | some n =>
            let s := match j with
              | some a =>
                (s.winWrite (hsAddr x a) (bytesOfNat 4 (natOfBytes (s.winRead (hsAddr x a) 4) + 1))).activity t.ref.kid 3 1
              | none => s
            let child : BinThread := { args := (s.lane c t).quad c.fields.a, counter := j, lineage := spawnLineage t,
                                       halt := none }
            let s := s.setHub ((s.hub g.hub).enterBin n s.m.cycle t.ref.teamRef g.role entry child)
            s.updThread t.ref fun t => ({ t with spawns := t.spawns + 1 } : Thread).finish c
    | _, _ => s

/-- The bin timer in cycles (R290, R321). -/
def LaunchRec.timer (l : LaunchRec) : Nat := if l.bintimer == 0 then 4096 else l.bintimer

/-- BIN_TIMER_EXPIRY (R321): bin `ev.index` of hub `ev.hub`. -/
def execBinTimerExpiry (s : State) : Out :=
  let e := s.m.ev
  .next (s.updHub e.hub fun h => { h with bins := updBy (·.num == e.index) (fun b => { b with expired := true }) h.bins })

/-- A bin is due (R321). -/
def Bin.due (b : Bin) : Bool := b.threads.length == 32 || b.expired
/-- Some thread of the bin is HALTED (R305). -/
def Bin.halted (b : Bin) : Bool := b.threads.any (·.halt.isSome)

/-- Where a bin's gang can be placed (R322): gangid, core, quarter, slot. -/
def State.binPlace (s : State) (h : Hub) (b : Bin) : Option (Nat × Nat × Nat × Nat) :=
  match s.launch? b.team.kid with
  | none => none
  | some l =>
    let live := fun (n : Nat) => (s.gang? { kid := b.team.kid, team := b.team.team, gang := n }).isSome
    match (List.range 256).find? fun n => l.gangs ≤ n && !live n with
    | none => none
    | some n => match s.freeSlots h.hub (n % 4) with
      | (q, x) :: _ => some (n, n % 4, q, x)
      | [] => none

/-- The team's first index on this module (R301). -/
def Kernel.first (k : Kernel) : Nat :=
  match k.group[k.share]? with
  | some r => r.firstTeam
  | none => 0

/-- The threads of a formed gang (R323). -/
def formThread (l : LaunchRec) (b : Bin) (gang lane : Nat) (x : BinThread) : Thread :=
  let grank := l.teams * l.gangs * 32 + b.team.team * (256 - l.gangs) * 32 + (gang - l.gangs) * 32 + lane
  let t := Thread.fresh { kid := b.team.kid, team := b.team.team, gang := gang, lane := lane } b.entry
    (BitVec.ofNat 64 grank) x.lineage l.pvSize
  { t.setRegs 0 (x.args.take 4) with joins := x.counter }

/-- A bin's gang is formed at a place (R322, R323). -/
def State.formGang (s : State) (h : Hub) (b : Bin) (l : LaunchRec) (n core quarter slot : Nat) : State :=
  let first := match s.kernel? b.team.kid with
    | some k => k.first
    | none => 0
  let ref : GangRef := { kid := b.team.kid, team := b.team.team, gang := n }
  let g := { s.newGang ref b.role h.hub core quarter slot (logicalPlace ((b.team.team - first) % 256) n) with
    binned := true }
  let born : Thread → Thread := fun t =>
    if s.bornHalted t.ref { hub := h.hub, core := core, quarter := quarter } then { t with halt := some .debug } else t
  let ts := (List.range b.threads.length).filterMap fun i => (b.threads[i]?).map fun x => born (formThread l b n i x)
  let s := s.updHub h.hub fun h => { h with bins := h.bins.filter (·.num != b.num) }
  ((s.winClear (ksAddr g 0) 2048).modify fun m =>
    { m with gangs := m.gangs ++ [g], threads := m.threads ++ ts }).testBars b.team

/-- GANG_FORMATION (R322): the lowest due bin of hub `ev.hub` that can be placed. -/
def State.formOne (s : State) (hub : Nat) : State :=
  let h := s.hub hub
  let able := fun (n : Nat) => match h.bins.find? (·.num == n) with
    | some b => b.due && !b.halted && (s.context (s.ctxOf b.team.kid)).st == .active && (s.binPlace h b).isSome
    | none => false
  match (List.range 16).find? able with
  | none => s
  | some n => match h.bins.find? (·.num == n) with
    | none => s
    | some b => match s.launch? b.team.kid, s.binPlace h b with
      | some l, some (gang, core, quarter, slot) => s.formGang h b l gang core quarter slot
      | _, _ => s

/-- GANG_FORMATION (R322) in hub `ev.hub`. -/
def execGangFormation (s : State) : Out := .next (s.formOne s.m.ev.hub)

/-! ## Join (R325) -/

/-- join: a pending result that returns when PEND reads 0. With a line of the counter absent the thread parks as it would for
a load (R156, R178). -/
def State.joinsCounter (s : State) (c : Code) (t : Thread) : State :=
  if t.fenced classRead || t.storing then s
  else match s.memAddr c t 1 8, s.gangOf t, s.teamOf t with
  | .error e, _, _ => s.raiseAt t c e
  | .ok a, some g, some x =>
    let (tok, s) := s.newId
    let e : Pending := { reg := c.dstReg, count := 1, tok := tok, value := none }
    let s := s.updHub g.hub fun h => { h with joins := h.joins ++ [(t.ref, tok, hsAddr x a)] }
    let op : OutOp := { tok := tok, classes := classRead }
    let t := { t with pend := t.pend ++ [e], out := t.out ++ [op] }
    let t := if x.present a 8 then t.finish c else ({ t with pc := nextPc c t.pc } : Thread).park 2 .present
    (s.setThread t).activity t.ref.kid 3 1
  | .ok _, _, _ => s

/-- The lines of a join's counter are present. -/
def State.joinPresent (s : State) (j : ThreadRef × Nat × Nat) : Bool :=
  match s.team? j.1.teamRef with
  | some x => x.present (j.2.2 - hsAddr x 0) 8
  | none => true

/-- JOIN_RETURN (R325) in hub `ev.hub`: every join whose counter reads PEND 0 returns ABN. -/
def State.joinReturns (s : State) (hub : Nat) : State :=
  let s := ((s.hub hub).joins.filter s.joinPresent).foldl (fun s j => s.updThread j.1 (·.linesCame j.2.1)) s
  let done := fun (j : ThreadRef × Nat × Nat) => s.joinPresent j && natOfBytes (s.winRead j.2.2 4) == 0
  let h := s.hub hub
  let s := s.setHub { h with joins := h.joins.filter (!done ·) }
  (h.joins.filter done).foldl (fun s j =>
    match s.winPoisoned j.2.2 8, s.thread? j.1 with
    | some u, some t => s.fatal t Cause.memError t.pc (BitVec.ofNat 64 u) false 0 0
    | _, _ => (s.performed j.1 j.2.1).updThread j.1 (·.returned j.2.1 [BitVec.ofNat 32 (natOfBytes (s.winRead (j.2.2 + 4) 4))])) s

/-- JOIN_RETURN (R325) in hub `ev.hub`. -/
def execJoinReturn (s : State) : Out := .next (s.joinReturns s.m.ev.hub)

/-! ## Meanings -/

/-- CALL (R122). -/
def execCall (o : Ext) (s : State) : Out :=
  .next (s.runAccess (.ext 0x42 o) false fun s t => s.calls (.ext 0x42 o) t (relTarget (Code.fields (.ext 0x42 o)) t.pc))
/-- CALLX (R122). -/
def execCallx (o : Base) (s : State) : Out :=
  .next (s.runAccess (.base 0x43 o) false fun s t => s.callsTo (.base 0x43 o) t)
/-- CALLX_EXT (R122). -/
def execCallxExt (o : Ext) (s : State) : Out :=
  .next (s.runAccess (.ext 0x43 o) false fun s t => s.callsTo (.ext 0x43 o) t)
/-- RET (R123). -/
def execRet (o : Base) (s : State) : Out := .next (s.runAccess (.base 0x44 o) false fun s t => s.returns (.base 0x44 o) t)
/-- RET_EXT (R123). -/
def execRetExt (o : Ext) (s : State) : Out := .next (s.runAccess (.ext 0x44 o) false fun s t => s.returns (.ext 0x44 o) t)
/-- EXIT (R327). -/
def execExit (o : Base) (s : State) : Out :=
  .next (s.runMisuse (.base 0x45 o) false (fun s t => !t.outstanding && t.allReturned && s.badEnd t) fun s t => s.exits t)
/-- EXIT_EXT (R327). -/
def execExitExt (o : Ext) (s : State) : Out :=
  .next (s.runMisuse (.ext 0x45 o) false (fun s t => !t.outstanding && t.allReturned && s.badEnd t) fun s t => s.exits t)
/-- SYS_TRAP (R268). -/
def execSysTrap (o : Base) (s : State) : Out :=
  .next (s.run (.base 0x7E o) fun s t => s.sysTraps (.base 0x7E o) t)
/-- SYS_TRAP_EXT (R268). -/
def execSysTrapExt (o : Ext) (s : State) : Out :=
  .next (s.run (.ext 0x7E o) fun s t => s.sysTraps (.ext 0x7E o) t)
/-- SYS_TRET (R268). -/
def execSysTret (o : Base) (s : State) : Out :=
  .next (s.run (.base 0x7E o) fun s t => s.sysReturns (.base 0x7E o) t)
/-- SYS_TRET_EXT (R268). -/
def execSysTretExt (o : Ext) (s : State) : Out :=
  .next (s.run (.ext 0x7E o) fun s t => s.sysReturns (.ext 0x7E o) t)
/-- SYS_TKILL (R268). -/
def execSysTkill (o : Base) (s : State) : Out :=
  .next (s.runMisuse (.base 0x7E o) false (fun s t => s.badEnd t) fun s t => s.endThread t true)
/-- SYS_TKILL_EXT (R268). -/
def execSysTkillExt (o : Ext) (s : State) : Out :=
  .next (s.runMisuse (.ext 0x7E o) false (fun s t => s.badEnd t) fun s t => s.endThread t true)
/-- SYS_HALT (R268). -/
def execSysHalt (o : Base) (s : State) : Out :=
  .next (s.run (.base 0x7E o) fun s t => s.sysHalts (.base 0x7E o) t)
/-- SYS_HALT_EXT (R268). -/
def execSysHaltExt (o : Ext) (s : State) : Out :=
  .next (s.run (.ext 0x7E o) fun s t => s.sysHalts (.ext 0x7E o) t)
/-- SYS_CAD (R425). -/
def execSysCad (o : Base) (s : State) : Out := .next (s.sysCadence (.base 0x7E o))
/-- SYS_CAD_EXT (R425). -/
def execSysCadExt (o : Ext) (s : State) : Out := .next (s.sysCadence (.ext 0x7E o))
/-- SYS_IDLE (R268). -/
def execSysIdle (o : Base) (s : State) : Out :=
  .next (s.run (.base 0x7E o) fun s t => s.sysIdles (.base 0x7E o) t)
/-- SYS_IDLE_EXT (R268). -/
def execSysIdleExt (o : Ext) (s : State) : Out :=
  .next (s.run (.ext 0x7E o) fun s t => s.sysIdles (.ext 0x7E o) t)
/-- XACQ (R316). -/
def execXacq (o : Base) (s : State) : Out := .next (s.acquiresBlocks (.base 0x6E o))
/-- XACQ_EXT (R316). -/
def execXacqExt (o : Ext) (s : State) : Out := .next (s.acquiresBlocks (.ext 0x6E o))
/-- XREL (R317). -/
def execXrel (o : Base) (s : State) : Out :=
  .next (s.run (.base 0x6F o) fun s t => s.releasesBlocks (.base 0x6F o) t)
/-- XREL_EXT (R317). -/
def execXrelExt (o : Ext) (s : State) : Out :=
  .next (s.run (.ext 0x6F o) fun s t => s.releasesBlocks (.ext 0x6F o) t)
/-- SPAWN (R320). -/
def execSpawn (o : Ext) (s : State) : Out :=
  .next (s.runMisuse (.ext 0x6D o) true (fun s t => s.badSpawn (.ext 0x6D o) t) fun s t => s.spawns (.ext 0x6D o) t)
/-- JOIN (R325). -/
def execJoin (o : Base) (s : State) : Out :=
  .next (s.run (.base 0x6B o) (fun s t => s.joinsCounter (.base 0x6B o) t) true)
/-- JOIN_EXT (R325). -/
def execJoinExt (o : Ext) (s : State) : Out :=
  .next (s.run (.ext 0x6B o) (fun s t => s.joinsCounter (.ext 0x6B o) t) true)

end Sys2Proof.Machine
end

