-- ==== Sys2Proof/Machine/Copy.lean ====
section
/-! DEFINITION. Copies: pieces, registration, the copy engine, `dcopy`, `pstep` and `lkwait` (R144, R145, R155,
R177 to R190, R223, R362). -/

namespace Sys2Proof.Machine

/-! ## Pieces (R181, R182) -/

/-- Reads the 64 bytes of a piece. -/
def pieceOf (bs : List Byte) : Piece :=
  let kind := fieldAt bs 0x3D 1
  { src := dwordField bs 0, dst := dwordField bs 8, tstride := dwordField bs 0x10, ext0 := fieldAt bs 0x18 4,
    ext1 := fieldAt bs 0x1C 4, ext2 := fieldAt bs 0x20 4, spitch1 := fieldAt bs 0x24 4, spitch2 := fieldAt bs 0x28 4,
    dpitch1 := fieldAt bs 0x2C 4, dpitch2 := fieldAt bs 0x30 4, tb := wordField bs 0x34, bytes := fieldAt bs 0x38 4,
    stage := fieldAt bs 0x3C 1, dims := kind / 16, toKind := kind / 4 % 4, fromKind := kind % 4,
    reservedClean := fieldAt bs 0x3E 2 == 0 }

/-- One past the last byte of a range from a start with pitches. -/
def Piece.span (p : Piece) (start pitch1 pitch2 : Nat) : Nat :=
  start + (p.ext2 - 1) * pitch2 + (p.ext1 - 1) * pitch1 + p.ext0
def Piece.srcEnd (p : Piece) : Nat := p.span p.src.toNat p.spitch1 p.spitch2
def Piece.dstEnd (p : Piece) : Nat := p.span p.dst.toNat p.dpitch1 p.dpitch2

/-- The piece as team t replays it: a `gl` source moves by TSTRIDE (R181). -/
def Piece.forTeam (p : Piece) (t : Nat) : Piece :=
  if p.fromKind == 0 then { p with src := p.src + BitVec.ofNat 64 t * p.tstride } else p

/-- A `gl` address of the piece has bits [63:57] set (R188). -/
def Piece.wideAddress (p : Piece) : Option Dword :=
  if p.fromKind == 0 && p.src.toNat ≥ 2 ^ 57 then some p.src
  else if p.toKind == 0 && p.dst.toNat ≥ 2 ^ 57 then some p.dst
  else none

/-- The address of a kind fits its form, and its range its space (R137, R144, R182). -/
def kindFits (kind start stop hsSize : Nat) : Bool :=
  match kind with
  | 0 => start < 2 ^ 57 && stop ≤ 2 ^ 57
  | 1 => stop ≤ hsSize
  | 2 => stop ≤ 2 ^ 39
  | _ => false

/-- Where a `gl` source of a pattern piece begins for team t, without wrapping (R181). -/
def Piece.teamStart (p : Piece) (t : Nat) : Int := p.src.toNat + t * p.tstride.toInt

/-- The ranges of a piece for the teams of a launch lie in their spaces: a `gl` source moves by TSTRIDE from team to team, so
the first and the last team tell (R182; log entry 103). -/
def Piece.sourceFits (p : Piece) (hsSize teams : Nat) : Bool :=
  kindFits p.fromKind p.src.toNat p.srcEnd hsSize
    && (p.fromKind != 0 || (let a := p.teamStart (teams - 1)
        0 ≤ a && a + (p.srcEnd - p.src.toNat : Nat) ≤ 2 ^ 57))

/-- The first field, by offset, that fails R181 or R182, but for the window's privilege (log entry 103). -/
def Piece.badField (p : Piece) (hsSize : Nat) (dynamic : Bool) (teams : Nat := 1) : Option Nat :=
  let out := fun (x lo hi : Nat) => x < lo || hi < x
  let both := p.fromKind == 1 && p.toKind == 1
  firstBad [
    (p.src.toNat % 4 != 0 || (p.fromKind < 3 && !p.sourceFits hsSize teams), 0x00),
    (p.dst.toNat % 32 != 0 || (p.toKind < 3 && !kindFits p.toKind p.dst.toNat p.dstEnd hsSize)
      || (both && p.src.toNat / 128 < (p.dstEnd + 127) / 128 && p.dst.toNat / 128 < (p.srcEnd + 127) / 128), 0x08),
    (dynamic && p.tstride != 0, 0x10),
    (p.ext0 % 32 != 0 || out p.ext0 32 65536, 0x18), (out p.ext1 1 65536, 0x1C),
    (out p.ext2 1 65536 || (p.dims == 0 && p.ext2 != 1), 0x20),
    (p.spitch1 % 4 != 0, 0x24), (p.spitch2 % 4 != 0, 0x28), (p.dpitch1 % 32 != 0, 0x2C), (p.dpitch2 % 32 != 0, 0x30),
    (p.tb != 0xFFFFFFFF && (p.tb.toNat % 16 != 0 || hsSize < p.tb.toNat + 16), 0x34),
    (p.bytes != p.ext0 * p.ext1 * p.ext2, 0x38), (16 ≤ p.stage || (dynamic && p.stage != 0), 0x3C),
    (2 ≤ p.dims || p.fromKind == 3 || p.toKind == 3 || (!dynamic && p.toKind == 0), 0x3D),
    (!p.reservedClean, 0x3E)]

/-- The constraints of R181 and R182, but for the window's privilege. -/
def Piece.valid (p : Piece) (hsSize : Nat) (dynamic : Bool) (teams : Nat := 1) : Bool :=
  (p.badField hsSize dynamic teams).isNone

/-- Names the window space (R145). -/
def Piece.window (p : Piece) : Bool := p.fromKind == 2 || p.toKind == 2

/-- The destination sectors of the piece. -/
def Piece.sectors (p : Piece) : Nat := p.bytes / 32
/-- Source address of byte i in row-major order (R184). -/
def Piece.srcAt (p : Piece) (i : Nat) : Nat :=
  p.src.toNat + i / (p.ext0 * p.ext1) * p.spitch2 + i / p.ext0 % p.ext1 * p.spitch1 + i % p.ext0
/-- Destination address of byte i. -/
def Piece.dstAt (p : Piece) (i : Nat) : Nat :=
  p.dst.toNat + i / (p.ext0 * p.ext1) * p.dpitch2 + i / p.ext0 % p.ext1 * p.dpitch1 + i % p.ext0
/-- The destination lines in the order they are first written. -/
def Piece.dstLines (p : Piece) : List Nat := ((List.range p.sectors).map fun k => p.dstAt (32 * k) / 128).eraseDups

/-! ## The window space (R144) -/

/-- The gang whose registers stand at a pool block or gang slot, with the first register of the block. -/
def State.blockOwner (s : State) (hub core quarter : Nat) (pool : Bool) (n : Nat) : Option (Gang × Nat) :=
  (s.m.gangs.filter fun g => g.hub == hub && g.core == core && g.quarter == quarter).findSome? fun g =>
    if pool then (g.blocks.findIdx? (· == n)).map fun i => (g, 32 * (i + 1))
    else if g.slot == n then some (g, 0) else none

/-- The register a window word holds, when a live thread or gang has it. Where none does, the word is a plain one of the
window's own bytes (DESIGN CHOICE, log entry 100). -/
inductive WindowReg where
  | thread (t : ThreadRef) (n : Nat)
  | gang (g : GangRef) (n : Nat)
  | plain
deriving DecidableEq, Repr

/-- What stands at a window address. -/
def State.windowReg (s : State) (a : Nat) : WindowReg :=
  let hub := a / 2 ^ 31
  let unit := a / 2 ^ 28 % 8
  let core := a / 2 ^ 20 % 4
  if unit == 2 then
    match s.blockOwner hub core (a / 2 ^ 18 % 4) (a / 2 ^ 17 % 2 == 1) (a / 2 ^ 12 % 32) with
    | some (g, base) =>
      let r : ThreadRef := { kid := g.ref.kid, team := g.ref.team, gang := g.ref.gang, lane := a / 4 % 32 }
      if (s.thread? r).isSome then .thread r (base + a / 128 % 32) else .plain
    | none => .plain
  else if unit == 3 then
    let slot := a / 2 ^ 9 % 128
    match s.blockOwner hub core (slot / 32) false (slot % 32) with
    | some (g, _) => .gang g.ref (a / 4 % 128)
    | none => .plain
  else .plain

/-- A byte of the window space. -/
def State.windowByte (s : State) (a : Nat) : Byte :=
  let part := fun (x : Word) => x.extractLsb' (8 * (a % 4)) 8
  match s.windowReg a with
  | .thread t n => match s.thread? t with
    | some t => part (t.v.toArray.getD n 0)
    | none => 0
  | .gang g n => match s.gang? g with
    | some g => part (g.g.toArray.getD n 0)
    | none => 0
  | .plain => Memory.read s.m.win a

def State.windowRead (s : State) (a n : Nat) : List Byte := (List.range n).map fun i => s.windowByte (a + i)

/-- The first poisoned unit among some words of the window: a register, or 64 bits of the other stores (R157). -/
def State.windowPoisoned (s : State) (a n : Nat) : Option Nat :=
  (List.range ((a + n + 3) / 4 - a / 4)).findSome? fun i =>
    let w := 4 * (a / 4 + i)
    let reg := fun (poison : List Nat) (r : Nat) => if poison.contains r then some w else none
    match s.windowReg w with
    | .thread t r => (s.thread? t).bind fun t => reg t.poison r
    | .gang g r => (s.gang? g).bind fun g => reg g.poison r
    | .plain => s.winPoisoned w 4

/-- Writes a word of the window space. -/
def State.setWindowWord (s : State) (a : Nat) (bs : List Byte) : State :=
  match s.windowReg a with
  | .thread t n => s.updThread t (·.setRegs n [wordField bs 0])
  | .gang g n => s.updGang g (·.setRegs n [wordField bs 0])
  | .plain => s.winWrite a bs

/-- Writes whole 64-bit units of the window space, which lose their poison (R157). -/
def State.windowWrite (s : State) (a : Nat) (bs : List Byte) : State :=
  (List.range (bs.length / 8)).foldl (fun s i =>
    let w := a + 8 * i
    let b := (bs.drop (8 * i)).take 8
    if s.windowReg w == .plain && s.windowReg (w + 4) == .plain then s.winWrite w b
    else (s.setWindowWord w (b.take 4)).setWindowWord (w + 4) (b.drop 4)) s

/-- A window address has no zero field set, no reserved unit, and a hub of the partition (R144, R145). The partition is the
one that the kernel's launch record names in PART, also where PMASK gives the context several (DESIGN CHOICE, log entry 120). -/
def State.windowGood (s : State) (kid a : Nat) : Bool :=
  let ofs := a % 2 ^ 28
  let unit := a / 2 ^ 28 % 8
  let fits := match unit with
    | 0 => ofs < 2 ^ 22
    | 1 => ofs < 2 ^ 20
    | 2 => ofs < 2 ^ 22
    | 3 => ofs < 2 ^ 22 && ofs / 2 ^ 16 % 16 == 0
    | 4 => ofs < 2 ^ 22 && ofs / 2 ^ 18 % 4 == 0
    | _ => false
  fits && a < 2 ^ 39 && (match s.launch? kid with
    | some l => (s.partitionHubs l.part).contains (a / 2 ^ 31)
    | none => false)

/-! ## Registration (R155, R177, R183) -/

/-- Lines of a range, rounded out to whole lines. -/
def lockRange (lo hi : Nat) : Nat × Nat := (lo / 128 * 128, (hi + 127) / 128 * 128)

/-- The ranges a copy enters (R177). -/
def Copy.locks (x : Copy) (t : Team) : List RangeLock :=
  let p := x.piece
  let one := fun (kind lo hi : Nat) (dest : Bool) =>
    let r := lockRange lo hi
    match kind with
    | 0 => [{ id := x.id, owner := x.id, team := x.team, ctx := x.ctx, hs := false, lo := r.1, hi := r.2,
              dest := dest : RangeLock }]
    | 1 => [{ id := x.id, owner := x.id, team := x.team, ctx := x.ctx, hs := true, lo := t.hsBase + r.1,
              hi := t.hsBase + r.2, dest := dest : RangeLock }]
    | _ => []
  one p.fromKind p.src.toNat p.srcEnd false ++ one p.toKind p.dst.toNat p.dstEnd true

/-- The outstanding-copy count of a line (R155). -/
def Team.count (t : Team) (line : Nat) : Nat := ((t.counts.find? (·.1 == line)).map (·.2)).getD 0
/-- Sets a line's count; 0 is not listed. -/
def Team.setCount (t : Team) (line n : Nat) : Team :=
  let rest := t.counts.filter (·.1 != line)
  { t with counts := if n == 0 then rest else (line, n) :: rest }

/-- The range-lock entries of a hub (R177). -/
abbrev lockEntries : Nat := 64

/-- A copy can register now: entries are free and no line's count is at 7 (R155, R183). -/
def State.canRegister (s : State) (hub : Nat) (x : Copy) : Bool :=
  match s.team? x.team with
  | none => false
  | some t => (s.hub hub).locks.length + (x.locks t).length ≤ lockEntries
      && (x.piece.toKind != 1 || x.piece.dstLines.all fun l => t.count l < 7)

/-- A copy registers: its ranges, its lines' counts, and its place at the tail of the queue (R183). -/
def State.register (s : State) (hub : Nat) (x : Copy) : State :=
  match s.team? x.team with
  | none => s
  | some t =>
    let s := s.updHub hub fun h =>
      { h with locks := h.locks ++ x.locks t
               copies := h.copies.filter (·.id != x.id) ++ [{ x with registered := true }] }
    if x.piece.toKind == 1 then
      s.updTeam x.team fun t => x.piece.dstLines.foldl (fun t l => t.setCount l (t.count l + 1)) t
    else s

/-- A copy of a piece, not yet registered. -/
def State.newCopy (s : State) (r : TeamRef) (p : Piece) (by_ : Option ThreadRef) (lineage pc : Dword)
    (tokRead tokWrite : Nat) (dynamic : Bool) : Copy × State :=
  let (id, s) := s.newId
  let (core, quarter) := match by_.bind fun t => s.gang? t.gangRef with
    | some g => (g.core, g.quarter)
    | none => (4, 4)
  ({ id := id, team := r, ctx := s.ctxOf r.kid, kernel := r.kid, piece := p, by_ := by_, core := core, quarter := quarter,
     lineage := lineage, pc := pc,
     tokRead := tokRead, tokWrite := tokWrite, registered := false, dynamic := dynamic, readPos := 0, landPos := 0,
     asked := false, writing := 0, buffer := [], waiting := false, denied := false, srcPage := none, dstPage := none, startAt := none }, s)

/-- The thread's copy-read and copy-write operations are outstanding (R172). -/
def State.copyOps (s : State) (r : ThreadRef) : Nat × Nat × State :=
  let (a, s) := s.newId
  let (b, s) := s.newId
  (a, b, s.updThread r fun t => { t with out := t.out ++ [{ tok := a, classes := 4 }, { tok := b, classes := 8 }] })

/-- Stage of a piece of the kernel's pattern. -/
def Kernel.stageOf (k : Kernel) (i : Nat) : Nat := ((k.pieces[i]?).map (·.stage)).getD 16

/-- The copies that the resident teams of a hub hold without registering (R183). -/
def State.heldCopies (s : State) (hub : Nat) : List Copy :=
  (s.hub hub).copies.filter fun x => !x.registered && (match s.team? x.team with
    | some t => t.st == .resident
    | none => false)

/-- Place of a team's piece among the registrations of a cycle (R183, R186): stage 0 of new teams, then by the releasing
thread, and within one release by stage and pattern order. -/
def State.pieceKey (s : State) (k : Kernel) (t : Team) (p : Nat × Option ThreadRef × Dword) : List Nat :=
  (match p.2.1 with
    | none => [0, t.ref.kid, t.ref.team]
    | some r => match (s.thread? r).bind s.gangOf with
      | some g => [1, g.core, g.quarter, r.lane]
      | none => [1, 4]) ++ [k.stageOf p.1, p.1]

/-- The pieces of a team that its level lets register (R186), with their places. -/
def State.releasedPieces (s : State) (t : Team) : List (List Nat × TeamRef × (Nat × Option ThreadRef × Dword)) :=
  match s.kernel? t.ref.kid with
  | none => []
  | some k => (t.pieces.filter fun p => k.stageOf p.1 ≤ t.level).map fun p => (s.pieceKey k t p, t.ref, p)

/-- A released piece becomes a copy that waits to register. -/
def State.releasePiece (s : State) (hub : Nat) (r : TeamRef) (p : Nat × Option ThreadRef × Dword) : State :=
  let s := s.updTeam r fun t => { t with pieces := t.pieces.filter (·.1 != p.1) }
  match (s.kernel? r.kid).bind fun k => k.pieces[p.1]? with
  | none => s
  | some piece =>
    let (a, b, s) := match p.2.1 with
      | some r => s.copyOps r
      | none => (0, 0, s)
    let lineage := if p.2.1.isSome then p.2.2 else BitVec.allOnes 64
    let (x, s) := s.newCopy r (piece.forTeam r.team) p.2.1 lineage 0 a b false
    s.updHub hub fun h => { h with copies := h.copies ++ [x] }

/-- The copy has begun to move. -/
def Copy.started (x : Copy) : Bool := x.startAt.isSome || x.asked || x.writing != 0 || x.waiting || x.readPos != 0 || x.landPos != 0

/-- The copy that a hub's engine works on: the oldest registered one; a copy of a team that is being saved does not start
(R184, R330). -/
def State.runningCopy (s : State) (hub : Nat) : Option Copy :=
  (s.hub hub).copies.find? fun x => x.registered && (x.started || (match s.team? x.team with
    | some t => t.st == .resident
    | none => false))

/-! ## Failure (R189) -/

/-- COPY_FAULT (R189): the running copy of hub `ev.hub` at the address `ev.addr`. -/
def execCopyFault (s : State) : Out :=
  .next (match s.runningCopy s.m.ev.hub with
    | some x => s.failCopy x Cause.copyFault s.m.ev.addr.toNat
    | none => s)

/-- The running copy of a hub meets a denial or poison at an address: its COPY_FAULT is the next row. -/
def State.copyFaults (s : State) (hub addr : Nat) : State :=
  s.modify fun m => { m with agenda := (.copyFault, { hub := hub, addr := BitVec.ofNat 64 addr }) :: m.agenda }

/-! ## The engine (R184, R185) -/

/-- Changes a copy of a hub. -/
def State.updCopy (s : State) (hub id : Nat) (f : Copy → Copy) : State :=
  s.updHub hub fun h => { h with copies := updBy (·.id == id) f h.copies }

/-- The performed token of a copy's thread. -/
def State.copyDone (s : State) (x : Copy) (tok : Nat) : State :=
  match x.by_ with
  | some r => s.performed r tok
  | none => s

/-- Releases a copy's ranges of a kind: they apply to the end of the cycle (R177, R178), and accesses that waited behind
them go on. -/
def State.unlock (s : State) (hub id : Nat) (dest : Bool) : State :=
  let now := s.m.cycle
  let mine := fun (r : RangeLock) => r.owner == id && r.dest == dest && r.ended.isNone
  (s.updHub hub fun h => { h with locks := updBy mine (fun r => { r with ended := some now }) h.locks }).retryHeld hub

/-- The address of a poisoned unit as the copy names its source: a virtual address, an offset of the team's scratch, or a
window address (R157, R189). -/
def State.copyUnit (s : State) (x : Copy) (unit : Nat) : Nat :=
  match x.piece.fromKind, s.team? x.team with
  | 1, some t => unit - hsAddr t 0
  | 2, _ => unit
  | _, _ => lineOf (x.piece.srcAt x.readPos) + unit % 128

/-- Source bytes arrive: poison fails the copy, and with the last byte the source range is released. -/
def State.copyReceived (s : State) (hub id : Nat) (bs : List Byte) (poisoned : Option Nat) : State :=
  match (s.hub hub).copies.find? (·.id == id) with
  | none => s
  | some x => match poisoned with
    | some u => s.copyFaults hub (s.copyUnit x u)
    | none =>
      let n := x.readPos + bs.length
      let s := s.updCopy hub x.id fun x => { x with readPos := n, buffer := x.buffer ++ bs, asked := false }
      if n == x.piece.bytes then (s.unlock hub x.id false).copyDone x x.tokRead else s

/-- The translation that the copy holds for the page of an address and has not outlived (R377). -/
def Copy.held (x : Copy) (dest : Bool) (va now : Nat) : Option Tlb :=
  (if dest then x.dstPage else x.srcPage).filter fun e => e.covers va && now < e.leaseEnd

/-- A translation of the engine: the one it holds for the page it works through, else a second-level lookup, whose miss
makes it wait (R184, R373, R374, R377). -/
def State.copyTranslate (s : State) (x : Copy) (hub va : Nat) (dest : Bool) : Except State Tlb :=
  let n : Need := { r := !dest, w := dest, x := false }
  let w : MergeWaiter := { core := 4, who := .copy hub x.id, need := n }
  let waits := s.updCopy hub x.id fun x => { x with waiting := true, srcPage := none, dstPage := none }
  if s.regionMoving x.ctx va then
    .error (waits.modify fun m => { m with page := { m.page with waiting := m.page.waiting ++ [(hub, w)] } })
  else match x.held dest va s.m.cycle with
    | some e => .ok e
    | none => match s.lookupHub hub x.ctx va with
      | some e => if e.grants n then .ok e else .error (s.copyFaults hub va)
      | none => if x.denied then .error (s.copyFaults hub va)
        else .error ((waits.freeStale hub x.ctx va).mergeMiss hub x.ctx va w)

/-- The copy goes on through a page (R373). -/
def Copy.working (x : Copy) (dest : Bool) (va : Nat) (e : Tlb) : Copy :=
  let page : Tlb := { e with vbase := pageOf va * 4096, logSize := 12, pbase := e.target (pageOf va * 4096) }
  if dest then { x with dstPage := some page } else { x with srcPage := some page }

/-- The grain of a copy's requests: a line at another module, else a sector (R184). -/
def copyGrain : Place → Nat
  | .module _ => 128
  | _ => 32

/-- The request at an address is the first one that the copy makes of its line, as a region's counter counts lines (R381). -/
def Copy.opensLine (x : Copy) (dest : Bool) (a : Nat) : Bool :=
  let i := if dest then 32 * x.landPos else x.readPos
  let at_ := fun (i : Nat) => if dest then x.piece.dstAt i else x.piece.srcAt i
  i == 0 || lineOf (at_ (i - 1)) != lineOf a

/-- Bytes of a request at byte i of a copy, at an address: to the end of the unit and of the row. -/
def Piece.part (p : Piece) (i a grain : Nat) : Nat := Nat.min (grain - a % grain) (p.ext0 - i % p.ext0)

/-- The next source read of the running copy: a whole source sector, or a line of another module (R184, R215). -/
def State.copyRead (s : State) (hub : Nat) : State :=
  match s.runningCopy hub with
  | none => s
  | some x =>
    let p := x.piece
    let ready := x.startAt.getD (s.m.cycle + Config.latency .copyStart hub)
    let s := if x.startAt.isNone then s.updCopy hub x.id fun x => { x with startAt := some ready } else s
    if s.m.cycle < ready || x.asked || x.writing != 0 || x.waiting || p.bytes ≤ x.readPos || x.buffer.length ≥ 128 then s
    else
      let a := p.srcAt x.readPos
      let n := p.part x.readPos a 32
      match p.fromKind, s.team? x.team with
      | 1, some t => s.copyReceived hub x.id (s.winRead (hsAddr t a) n) (s.winPoisoned (hsAddr t a) n)
      | 2, _ =>
        if s.windowGood x.kernel a then s.copyReceived hub x.id (s.windowRead a n) (s.windowPoisoned a n)
        else s.copyFaults hub a
      | _, _ => match s.copyTranslate x hub a false with
        | .error s => s
        | .ok e =>
          let pa := e.target a
          let s := ((s.freeStale hub x.ctx a).useTlb2 hub e).updCopy hub x.id fun x =>
            { x.working false a e with asked := true, denied := false }
          let s := match (s.hub hub).line? e.place pa with
            | some l => s.writeBackLine hub l
            | none => s
          let s := if x.opensLine false a then s.countRegion x.ctx a e.place pa false else s
          s.requestHome hub e.place pa (p.part x.readPos a (copyGrain e.place)) .read (.copyRead hub x.id)

/-- COPY_SOURCE_READ (R184) in hub `ev.hub`: the bytes of message `ev.id` arrive, or the next read is made. -/
def execCopySourceRead (s : State) : Out :=
  .next (match s.takeFlight s.m.ev.id with
    | (some f, s') => (match f.msg with
      | .copyData hub id bs p => s'.copyReceived hub id bs p
      | _ => s.copyRead s.m.ev.hub)
    | (none, _) => s.copyRead s.m.ev.hub)

/-- Operand-cache entries whose rows overlap written scratch bytes become invalid (R248). -/
def Hub.dropOperands (h : Hub) (lo n : Nat) : Hub :=
  { h with operands := h.operands.filter fun e =>
      !((List.range e.rows.length).any fun i => e.base + i * e.rpitch < lo + n && lo < e.base + i * e.rpitch + e.rowBytes) }

/-- A sector has landed (R185): the barrier's pending sectors, the line's count, and with the last sector the
destination range and the copy itself. -/
def State.sectorLanded (s : State) (hub : Nat) (x : Copy) : State :=
  let p := x.piece
  let k := x.landPos
  let x := { x with landPos := k + 1, writing := x.writing - 1, buffer := x.buffer.drop 32 }
  let s := ((s.updCopy hub x.id fun _ => x).activity x.kernel 5 1).count hub 11 1
  let line := p.dstAt (32 * k) / 128
  let lastOfLine := !((List.range (p.sectors - k - 1)).any fun j => p.dstAt (32 * (k + 1 + j)) / 128 == line)
  let s := if p.toKind == 1 && lastOfLine then s.updTeam x.team fun t => t.setCount line (t.count line - 1) else s
  let s := if x.landPos == p.sectors then
      ((s.unlock hub x.id true).updHub hub fun h => { h with copies := h.copies.filter (·.id != x.id) }).copyDone x x.tokWrite
    else s
  if p.tb == 0xFFFFFFFF then s
  else match s.team? x.team with
    | none => s
    | some t => match (s.transBarrier t p.tb.toNat).land with
      | some b => s.setTransBarrier t p.tb.toNat b
      | none => s.failCopy x Cause.barrierMisuse p.tb.toNat

/-- The sectors of an acknowledged write land, one after another. -/
def State.sectorsLanded (s : State) (hub id : Nat) : Nat → State
  | 0 => s
  | n + 1 => match (s.hub hub).copies.find? (·.id == id) with
    | some x => (s.sectorLanded hub x).sectorsLanded hub id n
    | none => s

/-- The acknowledgement of a copy's write arrives. -/
def State.writeLanded (s : State) (hub id : Nat) : State :=
  match (s.hub hub).copies.find? (·.id == id) with
  | some x => s.sectorsLanded hub id x.writing
  | none => s

/-- A destination write at a home: behind the hub's own bytes of the line, and ahead of a fill of it that is in flight, which
is sent again (R184, R223). -/
def State.copyWriteHome (s : State) (hub : Nat) (x : Copy) (a : Nat) : State :=
  match s.copyTranslate x hub a true with
  | .error s => s
  | .ok e =>
    let pa := e.target a
    let n := x.piece.part (32 * x.landPos) a (copyGrain e.place)
    if x.buffer.length < n then s
    else
      let bs := x.buffer.take n
      let s := ((s.freeStale hub x.ctx a).useTlb2 hub e).updCopy hub x.id fun x =>
        { x.working true a e with writing := n / 32, denied := false }
      let s := (s.purgeLine hub e.place pa).updHub hub (·.refill fun f => f.place == e.place && f.line == lineOf pa)
      let s := if x.opensLine true a then s.countRegion x.ctx a e.place pa true else s
      s.requestHome hub e.place pa n (.write ((List.range n).map fun i => (pa + i, bs.getD i 0)) none false)
        (.copyWrite hub x.id)

/-- The next destination sector of the running copy is written; scratch and window sectors land at once. -/
def State.copyWrite (s : State) (hub : Nat) : State :=
  match s.runningCopy hub with
  | none => s
  | some x =>
    let p := x.piece
    let a := p.dstAt (32 * x.landPos)
    let bs := x.buffer.take 32
    if x.writing != 0 || x.waiting || bs.length < 32 then s
    else match p.toKind, s.team? x.team with
      | 1, some t =>
        ((s.winWrite (hsAddr t a) bs).updHub hub (·.dropOperands (t.hsBase + a) 32)).sectorLanded hub x
      | 2, _ =>
        if s.windowGood x.kernel a then
          let s := s.windowWrite a bs
          (if a / 2 ^ 28 % 8 == 0 then s.updHub (a / 2 ^ 31) (·.dropOperands (a % 2 ^ 28) 32) else s).sectorLanded hub x
        else s.copyFaults hub a
      | _, _ => s.copyWriteHome hub x a

/-- COPY_SECTOR_LAND (R185) in hub `ev.hub`: the acknowledgement `ev.id` arrives, or the next sector is written. -/
def execCopySectorLand (s : State) : Out :=
  .next (match s.takeFlight s.m.ev.id with
    | (some f, s') => (match f.msg with
      | .copyLanded hub id => s'.writeLanded hub id
      | _ => s.copyWrite s.m.ev.hub)
    | (none, _) => s.copyWrite s.m.ev.hub)

/-! ## dcopy, pstep, lkwait -/

/-- dcopy (R188). It waits for the thread's own writes to the scratchpad, since it reads the piece at its issue (R142). -/
def State.copies (s : State) (c : Code) (t : Thread) : State :=
  if t.fenced classCopy || t.storing then s
  else match s.memAddr c t 1 64, s.gangOf t, s.teamOf t with
  | .error e, _, _ => s.raiseAt t c e
  | .ok a, some g, some x =>
    let priv := (s.context (s.ctxOf t.ref.kid)).priv
    let s0 := s
    let s := s.activity t.ref.kid 3 1
    let p := pieceOf (s.winRead (hsAddr x a) 64)
    match s.winPoisoned (hsAddr x a) 64 with
    | some u => s.raiseAt t c { cause := Cause.memError, addr := BitVec.ofNat 64 u }
    | none =>
      if p.window && !priv then s.raiseAt t c { cause := Cause.priv }
      else match p.wideAddress with
        | some w => s.raiseAt t c { cause := Cause.addr, addr := addr57 w }
        | none =>
          if !p.valid x.hsSize true then s.raiseAt t c { cause := Cause.addr, addr := BitVec.ofNat 64 a }
          else
            let h := s.hub g.hub
            let (y, s1) := s.newCopy t.ref.teamRef p (some t.ref) t.lineage t.pc 0 0 true
            if !(s.heldCopies g.hub).isEmpty || 64 ≤ h.copies.length || !s1.canRegister g.hub y then s0
            else
              let (ra, wa, s1) := s1.copyOps t.ref
              (s1.register g.hub { y with tokRead := ra, tokWrite := wa }).updThread t.ref (·.finish c)
  | .ok _, _, _ => s

/-- pstep (R187). -/
def State.psteps (s : State) (c : Code) (t : Thread) : State :=
  if t.fenced classCopy then s
  else match s.teamOf t, s.kernel? t.ref.kid with
    | some x, some k =>
      let n := Nat.min ((s.lane c t).word c.fields.a).toNat 15
      if k.pieces.isEmpty || n ≤ x.level then s.setThread (t.finish c)
      else
        let mark : Nat × Option ThreadRef × Dword → Nat × Option ThreadRef × Dword := fun p =>
          if x.level < k.stageOf p.1 && k.stageOf p.1 ≤ n && p.2.1.isNone then (p.1, some t.ref, t.lineage) else p
        let s := s.updTeam x.ref fun x => { x with level := n, pieces := x.pieces.map mark }
        s.updThread t.ref fun t => { t.finish c with pstepWait := some n }
    | _, _ => s

/-- A piece that the thread waits for has not registered: one that its own `pstep` released, or, before its first
instruction, one of stage 0 (R186, R187). -/
def State.piecesWait (s : State) (t : Thread) : Bool :=
  match t.pstepWait, s.teamOf t with
  | some n, some x =>
    let by_ := if n == 0 then none else some t.ref
    (s.hub x.hub).copies.any (fun y => y.team == x.ref && !y.registered && !y.dynamic && y.by_ == by_)
      || x.pieces.any fun p => p.2.1 == by_ && (n != 0 || (match s.kernel? x.ref.kid with
        | some k => k.stageOf p.1 == 0
        | none => false))
  | _, _ => false

/-- Size of the access of an instruction, and whether it is one of `hs` (R179). -/
def lockedAccess (c : Code) : Nat × Bool :=
  let f := c.fields
  match f.op.toNat with
  | 0x58 | 0x59 => (Ty.bytes c.ty, Fields.space f == 1)
  | 0x63 => (Ty.bytes c.ty, false)
  | 0x5A | 0x5B => (4 * Ty.regs c.ty, atomSpace f == 1)
  | 0x6A => (16, true)
  | 0x6B | 0x6D => (8, true)
  | _ => (8, false)

/-- The wait of `lkwait` is over (R179). -/
def State.lockFree (s : State) (t : Thread) (since : Nat) : Bool :=
  match s.gangOf t, s.teamOf t with
  | some g, some x =>
    if t.x.cause == 0x08 then
      let c := formOfWords t.x.word0 t.x.word1 t.x.word2 t.x.word3
      let (n, hs) := lockedAccess c
      let a := t.x.addr.toNat
      if hs then (s.locksOver g.hub 0 true (x.hsBase + a) n).all (·.ended.isSome) && x.present a n
      else (s.locksOver g.hub (s.ctxOf t.ref.kid) false a n).all (·.ended.isSome)
    else
      since < s.m.cycle && issueTick s.m.cycle (s.quarter { hub := g.hub, core := g.core, quarter := g.quarter }).cadence
  | _, _ => true

/-- lkwait (R179). -/
def State.awaitsLock (s : State) (c : Code) (t : Thread) : State :=
  s.setThread (({ t with pc := nextPc c t.pc } : Thread).park 7 (.lkwait s.m.cycle))

/-! ## Meanings -/

/-- DCOPY (R188). -/
def execDcopy (o : Ext) (s : State) : Out := .next (s.run (.ext 0x60 o) fun s t => s.copies (.ext 0x60 o) t)
/-- PSTEP (R187). -/
def execPstep (o : Base) (s : State) : Out :=
  .next (s.run (.base 0x61 o) fun s t => s.psteps (.base 0x61 o) t)
/-- PSTEP_EXT (R187). -/
def execPstepExt (o : Ext) (s : State) : Out :=
  .next (s.run (.ext 0x61 o) fun s t => s.psteps (.ext 0x61 o) t)
/-- LKWAIT (R179). -/
def execLkwait (o : Base) (s : State) : Out :=
  .next (s.run (.base 0x62 o) fun s t => s.awaitsLock (.base 0x62 o) t)
/-- LKWAIT_EXT (R179). -/
def execLkwaitExt (o : Ext) (s : State) : Out :=
  .next (s.run (.ext 0x62 o) fun s t => s.awaitsLock (.ext 0x62 o) t)

end Sys2Proof.Machine
end

