-- ==== Sys2Proof/Machine/Matrix.lean ====
section
/-! DEFINITION. The hub matrix engine: descriptors, buckles, signatures, the reservation table, fetches, passes and
the accumulator port (R228 to R257). -/

namespace Sys2Proof.Machine

/-! ## Descriptors (R230 to R232) -/

/-- Reads a descriptor pair; the pitch between rows in bytes. -/
def descOf (lo hi : Word) : Desc :=
  { base := lo.toNat % 2 ^ 22, rpitch := lo.toNat / 2 ^ 22 * 32, rot := hi.toNat / 2 ^ 22 % 8,
    tpitch := hi.toNat % 2 ^ 22 }
/-- The descriptor in the gang registers n and n + 1. -/
def Gang.desc (g : Gang) (n : Nat) : Desc := descOf (g.g.toArray.getD n 0) (g.g.toArray.getD (n + 1) 0)

/-- sector_address of R231. -/
def Desc.sector (d : Desc) (t i s nsec : Nat) : Nat :=
  t + i * d.rpitch + 32 * (if d.rot == 0 then s else s ^^^ (i / 2 ^ (d.rot - 1) % nsec))

/-- What an operation moves: rows, bytes of a row, tiles. -/
structure Shape where
  rows : Nat
  rowBytes : Nat
  tiles : Nat := 1
deriving DecidableEq, Repr

/-- One past the last byte that the operation addresses, from its first tile's start. -/
def Desc.extent (d : Desc) (x : Shape) : Nat :=
  d.base + (x.tiles - 1) * d.tpitch + (x.rows - 1) * d.rpitch + x.rowBytes

/-- The checks of R232; hi is the register that holds ROT and the reserved bits. -/
def Desc.valid (d : Desc) (hi : Word) (x : Shape) (size : Nat) (mma dest : Bool) : Bool :=
  d.base % 32 == 0 && d.rpitch != 0 && d.rot < 4 && hi.toNat < 2 ^ 25 && (!mma || d.tpitch % 32 == 0)
    && (!dest || x.rowBytes ≤ d.rpitch) && d.extent x ≤ size

/-- The bytes of row i of the tile that starts at scratch offset t. -/
def State.tileRow (s : State) (x : Team) (d : Desc) (t rowBytes i : Nat) : List Byte :=
  (List.range (rowBytes / 32)).flatMap fun k => s.winRead (hsAddr x (d.sector t i k (rowBytes / 32))) 32

/-- Writes row i of a tile. -/
def State.writeRow (s : State) (x : Team) (d : Desc) (i : Nat) (bs : List Byte) : State :=
  (List.range (bs.length / 32)).foldl (fun s k =>
    s.winWrite (hsAddr x (d.sector d.base i k (bs.length / 32))) ((bs.drop (32 * k)).take 32)) s

/-- The lines that the rows of a tile touch, as offsets divided by 128. -/
def Desc.lines (d : Desc) (x : Shape) : List Nat :=
  ((List.range x.rows).flatMap fun i =>
    let a := d.base + i * d.rpitch
    (List.range ((a + x.rowBytes + 127) / 128 - a / 128)).map fun k => a / 128 + k).eraseDups

/-! ## Formats of rows (R228, R229) -/

/-- Bytes of an operand row of a format. -/
def operandBytes (fmt : Nat) : Nat := if fmt == 5 then 128 else 64
/-- Shape of an operand. -/
def operandShape (w : Word) (sideB : Bool) (tiles : Nat) : Shape :=
  let f := FormatWord.ofWord w
  { rows := if sideB && f.cplx then 32 else 64, rowBytes := operandBytes (if sideB then f.bfmt else f.afmt), tiles := tiles }

/-- Codes of a row of bytes: e per word (R228). -/
def rowCodes (fmt : Nat) (bs : List Byte) : List Nat :=
  match fmt with
  | 5 => (List.range (bs.length / 4)).flatMap fun k =>
      (List.range 4).map fun q => fieldAt bs (4 * k) 4 / 2 ^ (6 * q) % 64
  | 3 | 4 => bs.map (·.toNat)
  | _ => (List.range (bs.length / 2)).map fun k => fieldAt bs (2 * k) 2

/-! ## Accumulators (R229, R249) -/

/-- The physical accumulator of z. -/
def Team.phys (t : Team) (z : Nat) : Nat := t.acc.getD z 0
/-- The tile as rows of 256 bytes. -/
def State.accTile (s : State) (t : Team) (z : Nat) : List (List Byte) :=
  (List.range 64).map fun i => s.winRead (accAddr t.hub (t.phys z) i 0) 256
def State.setAccRow (s : State) (t : Team) (z i col : Nat) (ws : List Word) : State :=
  s.winWrite (accAddr t.hub (t.phys z) i col) (ws.flatMap bytesOfWord)
/-- The words of a row of bytes. -/
def wordsOfRow (bs : List Byte) : List Word := (List.range (bs.length / 4)).map fun k => wordField bs (4 * k)

/-! ## The reservation table (R243) -/

/-- A reservation entry is free. -/
def Hub.entryFree (h : Hub) : Bool := h.reservations.length < 32
def State.updEntry (s : State) (hub entry : Nat) (f : Reservation → Reservation) : State :=
  s.updHub hub fun h => { h with reservations := updBy (·.entry == entry) f h.reservations }
def Hub.entry? (h : Hub) (n : Nat) : Option Reservation := h.reservations.find? (·.entry == n)

/-- The role priority of a gang (R242, R291). -/
def State.rolePrio (s : State) (g : Gang) : Nat :=
  match (s.launch? g.ref.kid).bind fun l => l.roles[g.role]? with
  | some r => r.prio
  | none => 0

/-- An entry with nothing staged. -/
def Reservation.fresh (entry : Nat) (t : Thread) (g : Gang) (op : EngineOp) (prio z : Nat) (c : Code) (seed : Dword) : Reservation :=
  { entry := entry, seq := 0, posted := false, order := 0, locked := false, team := t.ref.teamRef, op := op, prio := prio, z := z,
    passes := 1, granted := 0, fetched := 0, word := 0, rnd := .rne, ty := 0, scale := 0, descA := none,
    descB := none, scaleOff := 0, rows := [], rowBase := 0, colBlock := 0,
    stream := { seed := seed, lineage := t.lineage, ctr := t.rngctr }, readers := [], reads := [], writes := [],
    tiles := [], by_ := t.ref, core := g.core, quarter := g.quarter, lineage := t.lineage, pc := t.pc, word0 := c.words.getD 0 0 }

/-- Shape of the tile of an accumulator operation in scratch (R229). -/
def Reservation.tileShape (e : Reservation) : Shape :=
  { rows := 64, rowBytes := match e.op with
      | .mcvt => if e.ty == Ty.f16 || e.ty == Ty.bf16 then 128 else 64
      | .qblk => 64
      | _ => 256 }

/-- The operand sides of an `mma` that lie in scratch, with their shapes. -/
def Reservation.sides (e : Reservation) : List (Bool × Desc × Shape) :=
  (match e.descA with
    | some d => [(false, d, operandShape e.word false e.passes)]
    | none => [])
  ++ match e.descB with
    | some d => [(true, d, operandShape e.word true e.passes)]
    | none => []

/-- The range locks of an operation (R177): for each, whether it is the B side. -/
def Reservation.locks (e : Reservation) (t : Team) : List RangeLock :=
  let one := fun (d : Desc) (x : Shape) (id : Nat) (dest : Bool) =>
    let r := lockRange d.base (d.extent x)
    ({ id := id, owner := e.entry, team := e.team, ctx := 0, hs := true, lo := t.hsBase + r.1, hi := t.hsBase + r.2,
       dest := dest } : RangeLock)
  match e.op, e.descA with
  | .mma, _ => e.sides.map fun (b, d, x) => one d x (if b then 1 else 0) false
  | .mldScratch, some d => [one d e.tileShape 0 false]
  | .mstScratch, some d => [one d e.tileShape 0 true]
  | _, _ => []

/-- The destination lines of an operation (R254). -/
def Reservation.dstLines (e : Reservation) : List Nat :=
  match e.op, e.descA with
  | .mstScratch, some d | .mcvt, some d => d.lines e.tileShape
  | .qblk, some d => (e.scaleOff / 128 :: d.lines e.tileShape).eraseDups
  | _, _ => []

/-- An operation's locks and counts can be registered: enough entries are free (R177), and no line's count stands at 7, beyond
which it does not go (R155; DEDUCED, log entry 121). -/
def State.canLock (s : State) (t : Team) (e : Reservation) : Bool :=
  (s.hub t.hub).locks.length + (e.locks t).length ≤ lockEntries && e.dstLines.all fun l => t.count l < 7

/-- Registers an operation's ranges and counts (R177, R254). -/
def State.lockEntry (s : State) (t : Team) (e : Reservation) : State :=
  let s := s.updHub t.hub fun h => { h with locks := h.locks ++ e.locks t }
  let s := s.updTeam t.ref fun t => e.dstLines.foldl (fun t l => t.setCount l (t.count l + 1)) t
  s.updEntry t.hub e.entry fun e => { e with locked := true }

/-- Posts an entry (R242): the next sequence number, and its ranges and counts, unless they cannot be registered now and it is
held (R177, R254). -/
def State.post (s : State) (hub entry : Nat) : State :=
  let n := (s.hub hub).postSeq
  let (order, s) := s.newId
  let s := s.updHub hub fun h => { h with postSeq := n + 1 }
  let s := s.updEntry hub entry fun e => { e with seq := n, posted := true, order := order }
  match (s.hub hub).entry? entry with
  | none => s
  | some e => match s.team? e.team with
    | some t => if s.canLock t e then s.lockEntry t e else s
    | none => s

/-- An operation leaves the table (R243): its ranges and the counts it registered go, and its threads' operations are
performed. -/
def State.freeEntry (s : State) (hub : Nat) (e : Reservation) : State :=
  let s := s.updHub hub fun h =>
    { h with reservations := h.reservations.filter (·.entry != e.entry), locks := h.locks.filter (·.owner != e.entry) }
  let s := if e.locked then s.updTeam e.team fun t => e.dstLines.foldl (fun t l => t.setCount l (t.count l - 1)) t else s
  (e.reads ++ e.writes).foldl (fun s w => s.performed w.1 w.2) s

/-! ## The registrations of a cycle (R177, R183) -/

/-- What waits to register in a hub: a copy, or a posted operation. -/
inductive HeldWork where
  | copy (x : Copy)
  | entry (e : Reservation)
deriving DecidableEq, Repr

/-- Place in the order of being held. -/
def HeldWork.order : HeldWork → Nat
  | .copy x => x.id
  | .entry e => e.order

/-- What a hub's resident teams hold, oldest first (R177, R183). -/
def State.heldWork (s : State) (hub : Nat) : List HeldWork :=
  let h := s.hub hub
  let here := fun (r : TeamRef) => match s.team? r with
    | some t => t.st == .resident
    | none => false
  sortKey (fun (w : HeldWork) => [w.order])
    ((s.heldCopies hub).map .copy
      ++ (h.reservations.filter fun e => e.posted && !e.locked && here e.team).map .entry)

/-- Held copies and operations register in the order they were held, up to the first that cannot. -/
def State.registerWork (s : State) (hub : Nat) : List HeldWork → State
  | [] => s
  | .copy x :: rest => if s.canRegister hub x then (s.register hub x).registerWork hub rest else s
  | .entry e :: rest => match s.team? e.team with
    | some t => if s.canLock t e then (s.lockEntry t e).registerWork hub rest else s
    | none => s

/-- The registrations of a cycle in a hub (R177, R183, R186): the released pieces join what is held, and all that can
register does. -/
def State.registerCopies (s : State) (hub : Nat) : State :=
  let ps := (s.m.teams.filter fun t => t.hub == hub && t.st == .resident).flatMap s.releasedPieces
  let s := (sortKey (·.1) ps).foldl (fun s p => s.releasePiece hub p.2.1 p.2.2) s
  s.registerWork hub (s.heldWork hub)

/-- COPY_REGISTER (R183) in hub `ev.hub`. -/
def execCopyRegister (s : State) : Out := .next (s.registerCopies s.m.ev.hub)

/-! ## Buckles (R233 to R236) -/

def Buckle.fresh : Buckle :=
  { st := .undeclared, count := 0, first := 0, signed := [], word := 0, sub := 0, d := 0, a := 0, imm := 0, fmode := 0,
    entry := none }
def Team.buckle (t : Team) (n : Nat) : Buckle := t.buckles.toArray.getD n .fresh
def State.updBuckle (s : State) (r : TeamRef) (n : Nat) (f : Buckle → Buckle) : State :=
  s.updTeam r fun t => { t with buckles := t.buckles.setIfInBounds n (f (t.buckle n)) }

/-- BK (R233, R237). -/
def buckleNum (c : Code) : Nat := c.fields.imm.toNat % 16

/-- bkdecl (R234): once per packet, from its lowest lane. -/
def State.declares (s : State) (c : Code) : State :=
  match s.participants c with
  | [] => s.run c fun s _ => s
  | t :: _ => match s.teamOf t, s.launch? t.ref.kid with
    | some x, some l =>
      let n := buckleNum c
      let b := x.buckle n
      let count := ((s.lane c t).word c.fields.a).toNat
      let first := ((s.lane c t).word c.fields.b).toNat
      if count == 0 || count > 64 || first + count > 32 * l.gangs || b.st == .signing then
        s.run c fun s t => s.raiseAt t c { cause := Cause.barrierMisuse }
      else
        (s.updBuckle x.ref n fun b => { b with st := .declared, count := count, first := first, signed := [] }).run c
          fun s t => s.setThread (t.finish c)
    | _, _ => s

/-! ## Signatures (R237 to R242) -/

/-- Z (R237, R250). -/
def accNum (c : Code) : Nat := c.fields.imm.toNat / 256 % 64
/-- IMM32 [23:8], which a round fixes. -/
def roundImm (c : Code) : Nat := c.fields.imm.toNat / 256 % 65536

/-- The signature breaks the rules of its buckle (R236, R366). -/
def State.badSignature (s : State) (c : Code) (t : Thread) : Bool :=
  match s.teamOf t with
  | none => false
  | some x =>
    let b := x.buckle (buckleNum c)
    accNum c < x.acc.length && t.sfenceWait.isNone && !t.fenced classMatrix
      && (b.st == .undeclared || t.rank < b.first || b.first + b.count ≤ t.rank)

/-- FORMAT's address value (R240). -/
def formatAddr (reason : Nat) (w : Word) : Dword := BitVec.ofNat 64 (reason * 2 ^ 32 + w.toNat)

/-- An L6 register row reaches beyond the registers the thread holds (R239). -/
def State.rowBeyond (s : State) (t : Thread) (n : Nat) : Bool :=
  let held := match s.gangOf t with
    | some g => if t.xrelIssued then 0 else g.blocks.length
    | none => 0
  32 * (held + 1) < n + 32

/-- The words of a register-sourced row (R238). -/
def Thread.row (t : Thread) (n words : Nat) : List Word := regsFrom t.v n words

/-- The register-sourced rows that a signature stages (R241). -/
def Thread.staged (t : Thread) (c : Code) (w : Word) (i : Nat) : List StagedRow :=
  let f := FormatWord.ofWord w
  let sub := c.fields.sub
  let side := fun (b : Bool) (code : BitVec 8) (fmt : Nat) =>
    ({ sideB := b, row := i, words := t.row code.toNat (operandBytes fmt / 4) } : StagedRow)
  (if sub.getLsbD 0 then [] else [side false c.fields.d f.afmt])
    ++ (if sub.getLsbD 1 || (f.cplx && 32 ≤ i) then [] else [side true c.fields.a f.bfmt])

/-- The matrix reads and writes of a signature become outstanding (R172, R458). -/
def State.matrixOps (s : State) (t : ThreadRef) (reads : Bool) : Nat × Nat × State :=
  let (a, s) := s.newId
  let (b, s) := s.newId
  let r : List OutOp := if reads then [{ tok := a, classes := 16 }] else []
  (a, b, s.updThread t fun x => { x with out := x.out ++ r ++ [{ tok := b, classes := 32 }] })

/-- A scratch descriptor of a signature: none when it comes from registers. -/
def Gang.operandDesc (g : Gang) (scratch : Bool) (code : BitVec 8) : Option (Desc × Word) :=
  if scratch then
    let n := code.toNat % 128
    some (g.desc n, g.g.toArray.getD (n + 1) 0)
  else none

/-- The first invalid descriptor of a signature that reaches the count (R232): its BASE. Where both are invalid, that of A
(DESIGN CHOICE, log entry 101). -/
def badOperand (a b : Option (Desc × Word)) (w : Word) (passes size : Nat) : Option Nat :=
  let bad := fun (side : Bool) (d : Option (Desc × Word)) => match d with
    | some (d, hi) => if d.valid hi (operandShape w side passes) size true false then none else some d.base
    | none => none
  match bad false a with
  | some x => some x
  | none => bad true b

/-- A poisoned register among n of a thread: its window address (R157). -/
def Thread.poisonAt (t : Thread) (g : Gang) (first n : Nat) : Option Dword :=
  (t.poison.find? fun r => first ≤ r && r < first + n).map fun r => BitVec.ofNat 64 (threadRegWindow g t.ref.lane r)

/-- Stages and counts a signature (R241); the one that reaches the count posts the operation (R242). -/
def State.stage (s : State) (c : Code) (t : Thread) (g : Gang) (x : Team) (w : Word) : State :=
  let n := buckleNum c
  let b := x.buckle n
  let f := c.fields
  let scratch := f.sub.toNat % 4 != 0
  let (entry, s) := match b.entry with
    | some e => (e, s)
    | none =>
      let (e, s) := s.newId
      let r := Reservation.fresh e t g .mma (s.rolePrio g) (accNum c) c (s.seedOf t.ref.kid)
      (e, s.updHub g.hub fun h => { h with reservations := h.reservations ++
        [{ r with word := w, passes := f.imm.toNat / 65536 % 256 + 1, rnd := (FormatWord.ofWord w).rounding t.fmode }] })
  let (ra, wa, s) := s.matrixOps t.ref scratch
  let rows := t.staged c w (t.rank - b.first)
  let s := s.updEntry g.hub entry fun r => { r with
    rows := r.rows ++ rows
    reads := if scratch then r.reads ++ [(t.ref, ra)] else r.reads
    writes := r.writes ++ [(t.ref, wa)] }
  let s := s.updThread t.ref (·.finish c)
  if b.signed.length + 1 < b.count then
    s.updBuckle x.ref n fun b => if b.st == .signing then { b with signed := b.signed ++ [t.rank] }
      else { b with st := .signing, signed := [t.rank], word := w, sub := f.sub.toNat, d := f.d.toNat, a := f.a.toNat,
                    imm := roundImm c, fmode := t.fmode, entry := some entry }
  else
    let s := s.updBuckle x.ref n fun b => { b with st := .declared, signed := [], entry := none }
    let s := s.updEntry g.hub entry fun r => { r with
      by_ := t.ref, core := g.core, quarter := g.quarter, lineage := t.lineage, pc := t.pc, word0 := c.words.getD 0 0
      descA := (g.operandDesc (f.sub.getLsbD 0) f.d).map (·.1)
      descB := (g.operandDesc (f.sub.getLsbD 1) f.a).map (·.1) }
    s.post g.hub entry

/-- mma: the checks of R239 in their order, once no fence holds it (R173). -/
def State.signs (s : State) (c : Code) (t : Thread) : State :=
  match s.teamOf t, s.gangOf t with
  | some x, some g =>
    let f := c.fields
    let w := (s.lane c t).word f.b
    let b := x.buckle (buckleNum c)
    let raise := fun (e : Raise) => s.raiseAt t c e
    let format := fun (reason : Nat) (w : Word) =>
      raise { cause := Cause.format, addr := formatAddr reason w, detail := reason }
    let l6 := (FormatWord.ofWord w).afmt == 5
    let rowCode := fun (scratch : Bool) (code : BitVec 8) => !scratch && l6 && s.rowBeyond t code.toNat
    if t.sfenceWait.isSome || t.fenced classMatrix then s
    else if x.acc.length ≤ accNum c then raise { cause := Cause.regRange }
    else if b.signed.contains t.rank then s
    else if !formatValid w then format 1 w
    else if b.st == .signing && w != b.word then format 0 b.word
    else if b.st == .signing && (f.sub.toNat != b.sub || f.d.toNat != b.d || f.a.toNat != b.a || roundImm c != b.imm) then
      format 2 b.word
    else if rowCode (f.sub.getLsbD 0) f.d || rowCode (f.sub.getLsbD 1) f.a then raise { cause := Cause.regRange }
    else if b.entry.isNone && !(s.hub g.hub).entryFree then s
    else
      let full := b.signed.length + 1 == b.count
      let passes := f.imm.toNat / 65536 % 256 + 1
      match (if full then badOperand (g.operandDesc (f.sub.getLsbD 0) f.d) (g.operandDesc (f.sub.getLsbD 1) f.a) w passes
          x.hsSize else none) with
      | some base => raise { cause := Cause.addr, addr := BitVec.ofNat 64 base }
      | none =>
        let high := fun (scratch : Bool) (code : BitVec 8) => if !scratch && l6 then t.poisonAt g (code.toNat + 16) 16 else none
        match (high (f.sub.getLsbD 0) f.d).or (high (f.sub.getLsbD 1) f.a) with
        | some u => raise { cause := Cause.memError, addr := u }
        | none => s.stage c t g x w
  | _, _ => s

/-! ## Accumulator operations (R250 to R253) -/

/-- The register of an operand that names a descriptor. -/
def descReg (code : BitVec 8) : Nat := code.toNat % 128

/-- The tile's descriptor of an accumulator operation. -/
def tileDesc (g : Gang) (op : EngineOp) (f : Fields) : Option (Desc × Word) :=
  match op with
  | .mldScratch | .mstScratch | .mcvt | .qblk => g.operandDesc true f.a
  | _ => none

/-- Writes into scratch. -/
def EngineOp.intoScratch (op : EngineOp) : Bool := op == .mstScratch || op == .mcvt || op == .qblk

/-- What the packet's operation raises in every thread (R251). -/
def State.engineFault (s : State) (c : Code) (op : EngineOp) (t : Thread) (g : Gang) (x : Team) (e : Reservation) :
    Option Raise :=
  if x.acc.length ≤ accNum c then some { cause := Cause.regRange }
  else match tileDesc g op c.fields with
    | some (d, hi) =>
      if !d.valid hi e.tileShape x.hsSize false op.intoScratch then
        some { cause := Cause.addr, addr := BitVec.ofNat 64 d.base }
      else
        let off := ((s.lane c t).word c.fields.b).toNat
        if op == .qblk && (off % 128 != 0 || off + 128 > x.hsSize) then
          some { cause := Cause.addr, addr := BitVec.ofNat 64 off }
        else none
    | none => none

/-- The entry of an accumulator operation, with what it captures from the packet's lowest lane (R251, R252). -/
def State.engineEntry (s : State) (c : Code) (op : EngineOp) (t : Thread) (g : Gang) (ts : List Thread) (entry : Nat) :
    Reservation :=
  let f := c.fields
  let base := Reservation.fresh entry t g op (s.rolePrio g) (accNum c) c (s.seedOf t.ref.kid)
  let half := f.imm.toNat / 2 ^ 24 % 2
  { base with
    ty := f.fmt.toNat
    scale := if op == .mcvt then (f.imm.extractLsb' 16 8).toInt else 0
    rnd := Rnd.captured f.rnd t.fmode
    descA := (tileDesc g op f).map (·.1)
    scaleOff := if op == .qblk then ((s.lane c t).word f.b).toNat else 0
    rowBase := 32 * half
    colBlock := f.imm.toNat / 2 ^ 25 % 4
    rows := if op == .mldRegs then
        ts.map fun t => { sideB := false, row := 32 * half + t.ref.lane, words := t.row f.a.toNat 16 }
      else [] }

/-- One accumulator operation for the packet, posted at issue (R251), once no fence holds it (R173). The faults of R251 are
judged before the entry of R243 is claimed; the spec does not say which comes first (DESIGN CHOICE, log entry 122). -/
def State.engineOp (s : State) (c : Code) (op : EngineOp) : State :=
  let defers := op == .mstRegs
  let full := fun (t : Thread) => defers && 8 ≤ t.pend.length && !t.allReturned
  let packet := s.m.packet.filterMap fun r => s.thread? r
  if packet.any (·.fenced classMatrix) then s
  else if packet.any (s.outOfRange c ·) then s.run c (fun s t => s.raiseAt t c { cause := Cause.regRange }) defers
  else match packet.filter (!full ·) with
  | [] => s.run c (fun s _ => s) defers
  | t :: ts => match s.gangOf t, s.teamOf t with
    | some g, some x =>
      if (t :: ts).any fun t => (s.poisonRead c t).isSome then s.run c (fun s _ => s) defers
      else
      let (entry, s') := s.newId
      let e := s.engineEntry c op t g (t :: ts) entry
      match s.engineFault c op t g x e with
      | some r => s.run c fun s t => s.raiseAt t c r
      | none =>
        if !(s.hub g.hub).entryFree then s
        else
          let s := s'.updHub g.hub fun h => { h with reservations := h.reservations ++ [e] }
          let s := if op == .mcvt || op == .qblk then
              s.updThread t.ref fun t => { t with rngctr := t.rngctr + 4096 }
            else s
          let s := s.run c (fun s t =>
            let (ra, wa, s) := s.matrixOps t.ref (op == .mldScratch)
            let p : Pending := { reg := c.fields.d.toNat, count := 16, tok := entry, value := none }
            let s := s.updThread t.ref fun t =>
              (if defers then { t with pend := t.pend ++ [p] } else t : Thread).finish c
            s.updEntry g.hub entry fun e => { e with
              reads := if op == .mldScratch then e.reads ++ [(t.ref, ra)] else e.reads
              writes := e.writes ++ [(t.ref, wa)]
              readers := if defers then e.readers ++ [(t.ref, entry)] else e.readers }) defers
          s.post g.hub entry
    | _, _ => s

/-! ## Arbitration (R244) -/

/-- Rules 1 and 2 of R244. -/
def Reservation.rankKey (e : Reservation) : List Nat := [4 - e.prio, e.seq]
/-- The engine grants nothing to a team that is pre-empted: one that is being saved, or whose threads are halted for a debug
session (R255, R328). -/
def State.engineRuns (s : State) (e : Reservation) : Bool :=
  match s.team? e.team with
  | some t => t.st == .resident && !s.debugStopped t.ref
  | none => false

/-- Earlier operations on the entry's accumulator (R244). -/
def Hub.earlier (h : Hub) (e : Reservation) : List Reservation :=
  h.reservations.filter fun x => x.posted && x.team == e.team && x.z == e.z && x.seq < e.seq

/-- Every earlier operation on the accumulator is done, or is an `mma` with every pass granted (R245). -/
def Hub.clearFor (h : Hub) (e : Reservation) : Bool :=
  (h.earlier e).all fun x => e.op == .mma && x.op == .mma && x.granted == x.passes

/-- The next pass of an `mma` is fetch-ready (R245). -/
def Hub.fetchReady (h : Hub) (e : Reservation) : Bool :=
  e.op == .mma && e.posted && e.locked && e.fetched < e.passes && h.clearFor e

/-- An `mma` can be granted its next pass. -/
def Hub.passReady (h : Hub) (e : Reservation) : Bool :=
  e.op == .mma && e.posted && e.locked && e.granted < e.passes && h.clearFor e
    && (e.sides.isEmpty || e.granted < e.fetched)

/-- PASS_GRANT (R244) in hub `ev.hub`: the free array takes the next pass of one `mma`, and reads its tile. -/
def State.grantPass (s : State) (hub : Nat) : State :=
  let h := s.hub hub
  if h.pass.isSome then s
  else match leastBy Reservation.rankKey (h.reservations.filter fun e => h.passReady e && s.engineRuns e) with
    | none => s
    | some e => match s.team? e.team with
      | none => s
      | some t =>
        let run : EngineRun := { entry := e.entry, sideB := false, pass := e.granted, start := some s.m.cycle, og := h.og,
                                 hit := false, rows := s.accTile t e.z }
        let s := s.activity e.team.kid 4 1
        (s.updHub hub fun h => { h with pass := some run }).updEntry hub e.entry fun e =>
          { e with granted := e.granted + 1, fetched := Nat.max e.fetched (e.granted + 1) }

/-- PASS_GRANT (R244, R245) in hub `ev.hub`. -/
def execPassGrant (s : State) : Out := .next (s.grantPass s.m.ev.hub)

/-- Cycles of a port operation (R245). -/
def EngineOp.cycles : EngineOp → Nat
  | .mldScratch | .mstScratch | .qblk => 64
  | .mcvt => 32
  | _ => 8

/-- PORT_OPERATION_START (R244): the free port takes one operation of any other kind. -/
def State.startPort (s : State) (hub : Nat) : State :=
  let h := s.hub hub
  if h.port.isSome then s
  else match leastBy Reservation.rankKey (h.reservations.filter fun e =>
      e.op != .mma && e.posted && e.locked && (h.earlier e).isEmpty && s.engineRuns e) with
    | none => s
    | some e =>
      let run : EngineRun := { entry := e.entry, sideB := false, pass := 0, start := some s.m.cycle, og := h.og,
                               hit := false, rows := [], cycles := e.op.cycles }
      (s.updHub hub fun h => { h with port := some run }).updEntry hub e.entry fun e => { e with granted := 1 }

/-- PORT_OPERATION_START (R244, R251) in hub `ev.hub`. -/
def execPortOperationStart (s : State) : Out := .next (s.startPort s.m.ev.hub)

/-! ## The fetch unit (R245, R247) -/

/-- Passes fetched from scratch and not yet granted. -/
def Hub.heldPasses (h : Hub) : Nat :=
  (h.reservations.map fun e => if e.sides.isEmpty then 0 else e.fetched - e.granted).sum

/-- The tile a run fetches: descriptor, start, shape. -/
def Reservation.tile (e : Reservation) (sideB : Bool) (pass : Nat) : Option (Desc × Nat × Shape) :=
  (e.sides.find? (·.1 == sideB)).map fun (_, d, x) => (d, d.base + pass * d.tpitch, x)

/-- The operand-cache entry that a tile hits (R247). -/
def Hub.operandHit (h : Hub) (t : Team) (d : Desc) (start : Nat) (x : Shape) : Option OperandTile :=
  h.operands.find? fun o => o.base == t.hsBase + start && o.rpitch == d.rpitch && o.rot == d.rot
    && o.rowBytes == x.rowBytes && o.rows.length == x.rows && o.og == h.og

/-- The lines of a tile are all present. -/
def Team.tilePresent (t : Team) (d : Desc) (start : Nat) (x : Shape) : Bool :=
  (Desc.lines { d with base := start } { x with tiles := 1 }).all fun l => t.count l == 0

/-- A fetch of one side of a pass begins: a hit, a read, or a wait for presence. -/
def State.beginFetch (s : State) (hub : Nat) (e : Reservation) (sideB : Bool) (pass : Nat) : State :=
  match s.team? e.team, e.tile sideB pass with
  | some t, some (d, start, x) =>
    let h := s.hub hub
    match h.operandHit t d start x with
    | some o =>
      let (n, s) := s.newId
      s.updHub hub fun h => { h with
        operands := updBy (· == o) (fun o => { o with use := n }) h.operands
        fetch := some { entry := e.entry, sideB := sideB, pass := pass, start := some s.m.cycle, og := h.og, hit := true,
                        rows := o.rows } }
    | none => s.updHub hub fun h => { h with
        fetch := some { entry := e.entry, sideB := sideB, pass := pass,
                        start := if t.tilePresent d start x then some s.m.cycle else none, og := h.og, hit := false,
                        rows := [] } }
  | _, _ => s

/-- The first scratch side of an `mma`. -/
def Reservation.firstSide (e : Reservation) : Bool := e.descA.isNone

/-- The first poisoned unit of n of a tile's rows, from row i on (R157). -/
def State.tilePoison (s : State) (t : Team) (d : Desc) (start i n rowBytes : Nat) : Option Nat :=
  (List.range n).findSome? fun k => s.winPoisoned (hsAddr t (start + (i + k) * d.rpitch)) rowBytes

/-- MEM_ERROR in the team of an entry, with the posting thread's identity (R257). -/
def State.entryError (s : State) (e : Reservation) (addr : Nat) : State :=
  s.lateFatal { thread := e.by_, core := e.core, quarter := e.quarter, lineage := e.lineage, pc := e.pc, word0 := e.word0 }
    Cause.memError (BitVec.ofNat 64 addr)

/-- A cycle of the fetch unit (R225, R245, R247): it starts on the first fetch-ready pass, waits for presence, or
reads the next four rows. -/
def State.fetchCycle (s : State) (hub : Nat) : State :=
  let h := s.hub hub
  let s := match h.fetch with
    | some f => match f.start, h.entry? f.entry with
      | none, some e => s.beginFetch hub e f.sideB f.pass
      | _, _ => s
    | none =>
      if 2 ≤ h.heldPasses then s
      else match leastBy Reservation.rankKey
          (h.reservations.filter fun e => h.fetchReady e && !e.sides.isEmpty && s.engineRuns e) with
        | some e => s.beginFetch hub e e.firstSide e.fetched
        | none => s
  match (s.hub hub).fetch with
  | none => s
  | some f => match f.start, (s.hub hub).entry? f.entry with
    | some _, some e => match s.team? e.team, e.tile f.sideB f.pass with
      | some t, some (d, start, x) =>
        let n := f.rows.length
        if f.hit || x.rows ≤ n then s
        else
          let k := Nat.min 4 (x.rows - n)
          let s := s.activity e.team.kid 3 k
          match s.tilePoison t d start n k x.rowBytes with
          | some u => (s.updHub hub fun h => { h with fetch := none }).entryError e u
          | none =>
            let more := (List.range k).map fun i => s.tileRow t d start x.rowBytes (n + i)
            s.updHub hub fun h => { h with fetch := some { f with rows := f.rows ++ more } }
      | _, _ => s
    | _, _ => s

/-- OPERAND_FETCH (R245) in hub `ev.hub`. -/
def execOperandFetch (s : State) : Out := .next (s.fetchCycle s.m.ev.hub)

/-- The run is in its last cycle. -/
def EngineRun.ends (r : EngineRun) (cycles now : Nat) : Bool :=
  match r.start with
  | some c => c + cycles ≤ now + 1
  | none => false

/-- A tile read from the scratchpad enters the operand cache (R247). -/
def Hub.cacheTile (h : Hub) (o : OperandTile) : Hub :=
  if h.operands.length < 16 then { h with operands := h.operands ++ [o] }
  else match leastBy (fun (x : OperandTile) => [x.use]) h.operands with
    | some v => { h with operands := h.operands.filter (· != v) ++ [o] }
    | none => h

/-- OPERAND_FETCH_COMPLETE (R247): the tile is delivered, its range released after the last pass, and the B tile
follows the A tile. -/
def State.fetchDone (s : State) (hub : Nat) : State :=
  let h := s.hub hub
  match h.fetch with
  | none => s
  | some f =>
    if !f.ends (if f.hit then 1 else 16) s.m.cycle then s
    else match h.entry? f.entry with
      | none => s.updHub hub fun h => { h with fetch := none }
      | some e => match s.team? e.team, e.tile f.sideB f.pass with
        | some t, some (d, start, x) =>
          let (n, s) := s.newId
          let o : OperandTile := { team := t.ref, base := t.hsBase + start, rpitch := d.rpitch, rot := d.rot,
                                   rowBytes := x.rowBytes, og := f.og, rows := f.rows, use := n }
          let s := s.updHub hub fun h => { (if f.hit then h else h.cacheTile o) with fetch := none }
          let last := f.pass + 1 == e.passes
          let s := if last then s.updHub hub fun h =>
              { h with locks := h.locks.filter fun r => !(r.owner == e.entry && r.id == (if f.sideB then 1 else 0)) }
            else s
          let both := e.descA.isSome && e.descB.isSome && !f.sideB
          let s := s.updEntry hub e.entry fun e => { e with
            tiles := e.tiles ++ [(f.sideB, f.pass, f.rows)]
            fetched := if both then e.fetched else e.fetched + 1 }
          if both then
            -- the B tile begins with the next cycle (R245)
            s.updHub hub fun h => { h with fetch := some { f with sideB := true, start := none, hit := false, rows := [] } }
          else if last then e.reads.foldl (fun s w => s.performed w.1 w.2) s
          else s
        | _, _ => s.updHub hub fun h => { h with fetch := none }

/-- OPERAND_FETCH_COMPLETE (R245, R247) in hub `ev.hub`. -/
def execOperandFetchComplete (s : State) : Out := .next (s.fetchDone s.m.ev.hub)

/-! ## Passes (R246) -/

/-- The codes of row i of a side in a pass: the fetched tile, the staged row, or zeros (R241). -/
def Reservation.operandRow (e : Reservation) (sideB : Bool) (pass i : Nat) : List Nat :=
  let w := FormatWord.ofWord e.word
  let fmt := if sideB then w.bfmt else w.afmt
  let bytes := match e.tiles.find? fun t => t.1 == sideB && t.2.1 == pass with
    | some t => t.2.2.getD i (List.replicate (operandBytes fmt) 0)
    | none => match e.rows.find? fun r => r.sideB == sideB && r.row == i with
      | some r => r.words.flatMap bytesOfWord
      | none => List.replicate (operandBytes fmt) 0
  rowCodes fmt bytes

/-- The even or odd elements of a complex row. -/
def everyOther (odd : Nat) (l : List Nat) : List Nat := (List.range 16).map fun k => l.getD (2 * k + odd) 0

/-- Row i of the tile after a pass. -/
def Reservation.passRow (e : Reservation) (pass i : Nat) (acc : List Word) (cols : List (List Nat)) : List Word :=
  let w := FormatWord.ofWord e.word
  let row := e.operandRow false pass i
  (List.range 64).map fun j =>
    if w.cplx then
      let col := cols.getD (j / 2) []
      passComplex w e.rnd (j % 2 == 1) (acc.getD j 0) row (everyOther 0 col) (everyOther 1 col)
    else passElement w e.rnd (acc.getD j 0) row (cols.getD j [])

/-- PASS_WRITE (R246): the tile is written at the end of the eighth cycle, in which the pass is counted (R412);
the result of a team that has ended is discarded (R257). -/
def State.writePass (s : State) (hub : Nat) : State :=
  let h := s.hub hub
  match h.pass with
  | none => s
  | some r =>
    if !r.ends 8 s.m.cycle then s
    else
      let s := (s.updHub hub fun h => { h with pass := none }).count hub 10 1
      match h.entry? r.entry with
      | none => s
      | some e => match s.team? e.team with
        | none => s
        | some t => match s.winPoisoned (accAddr hub (t.phys e.z) 0 0) 16384 with
          | some u => s.entryError e u
          | none =>
            let cols := (List.range 64).map fun j => e.operandRow true r.pass j
            let s := (List.range 64).foldl (fun s i =>
              s.setAccRow t e.z i 0 (e.passRow r.pass i (wordsOfRow (r.rows.getD i [])) cols)) s
            let s := s.updEntry hub e.entry fun e => { e with tiles := e.tiles.filter fun t => t.2.1 != r.pass }
            if r.pass + 1 == e.passes then s.freeEntry hub e else s

/-- PASS_WRITE (R245) in hub `ev.hub`. -/
def execPassWrite (s : State) : Out := .next (s.writePass s.m.ev.hub)

/-! ## The accumulator port (R251 to R253) -/

/-- One row converted and packed by `mcvt` (R229, R252): its bytes. -/
def Reservation.convertRow (e : Reservation) (i : Nat) (ws : List Word) : List Byte :=
  let code := fun (j : Nat) =>
    (convert e.ty e.rnd e.scale { e.stream with ctr := e.stream.ctr + BitVec.ofNat 64 (64 * i + j) } (f32 (ws.getD j 0))).1.toNat
  if e.ty == Ty.f16 || e.ty == Ty.bf16 then (List.range 64).flatMap fun j => bytesOfNat 2 (code j)
  else if e.ty == Ty.l6 then
    (List.range 16).flatMap fun k => bytesOfNat 4 ((List.range 4).foldl (fun x q => x + code (4 * k + q) % 64 * 2 ^ (6 * q)) 0)
  else (List.range 64).flatMap fun j => bytesOfNat 1 (code j)

/-- |x| ≤ 6889 × 2^(s - 9). -/
def underL6 (x : Fp) (s : Int) : Bool :=
  match x with
  | .fin _ m e => (Fp.fin false m e).cmp (.fin false 6889 (s - 9)) ≤ 0
  | _ => true

/-- The scale of a block (R253): the smallest that covers every finite value, between -128 and 127. -/
def blockScale (vs : List Fp) : Int :=
  let fin := vs.filter fun v => match v with
    | .fin _ m _ => m != 0
    | _ => false
  if fin.isEmpty then 0
  else match (List.range 255).find? fun (i : Nat) => fin.all fun v => underL6 v ((i : Int) - 128) with
    | some i => (i : Int) - 128
    | none => 127

/-- One row of `qblk`: the packed codes and the two scales (R253). -/
def Reservation.quantRow (e : Reservation) (i : Nat) (ws : List Word) : List Byte × List Byte :=
  let vs := ws.map f32
  let blocks := (List.range 2).map fun h => blockScale ((vs.drop (32 * h)).take 32)
  let code := fun (j : Nat) =>
    (toL6 (vs.getD j .nan) (blocks.getD (j / 32) 0)
      (Stream.draw { e.stream with ctr := e.stream.ctr + BitVec.ofNat 64 (64 * i + j) })).1
  ((List.range 16).flatMap fun k => bytesOfNat 4 ((List.range 4).foldl (fun x q => x + code (4 * k + q) % 64 * 2 ^ (6 * q)) 0),
    blocks.map fun b => BitVec.ofInt 8 b)

/-- A scratch write of the port: operand-cache entries over it become invalid (R248). -/
def State.portRow (s : State) (t : Team) (d : Desc) (i : Nat) (bs : List Byte) : State :=
  (s.writeRow t d i bs).updHub t.hub (·.dropOperands (t.hsBase + d.base + i * d.rpitch) bs.length)

/-- The effect of a port operation on its tile (R251). -/
def State.portEffect (s : State) (t : Team) (e : Reservation) : State :=
  let tile := s.accTile t e.z
  let s := if e.descA.isSome then s.activity e.team.kid 3 64 else s
  let each := fun (s : State) (f : State → Nat → State) => (List.range 64).foldl f s
  match e.op, e.descA with
  | .mzero, _ => each s fun s i => s.setAccRow t e.z i 0 (List.replicate 64 0)
  | .mldScratch, some d => each s fun s i => s.setAccRow t e.z i 0 (wordsOfRow (s.tileRow t d d.base 256 i))
  | .mldRegs, _ => e.rows.foldl (fun s r => s.setAccRow t e.z r.row (16 * e.colBlock) r.words) s
  | .mstScratch, some d => each s fun s i => s.portRow t d i (tile.getD i [])
  | .mstRegs, _ => e.readers.foldl (fun s r =>
      let row := wordsOfRow (tile.getD (e.rowBase + r.1.lane) [])
      s.updThread r.1 (·.returned r.2 ((row.drop (16 * e.colBlock)).take 16))) s
  | .mcvt, some d => each s fun s i => s.portRow t d i (e.convertRow i (wordsOfRow (tile.getD i [])))
  | .qblk, some d => each s fun s i =>
      let q := e.quantRow i (wordsOfRow (tile.getD i []))
      ((s.portRow t d i q.1).winWrite (hsAddr t (e.scaleOff + 2 * i)) q.2).updHub t.hub
        (·.dropOperands (t.hsBase + e.scaleOff + 2 * i) 2)
  | _, _ => s

/-- Poison that a port operation reads (R157, R257). -/
def State.portPoison (s : State) (t : Team) (e : Reservation) : Option Nat :=
  match e.op, e.descA with
  | .mldScratch, some d => s.tilePoison t d d.base 0 64 256
  | .mzero, _ | .mldRegs, _ => none
  | _, _ => s.winPoisoned (accAddr t.hub (t.phys e.z) 0 0) 16384

/-- PORT_OPERATION_COMPLETE (R245, R251). The operation of a team that has ended keeps the port for its cycles (log entry
73). -/
def State.portDone (s : State) (hub : Nat) : State :=
  let h := s.hub hub
  match h.port with
  | none => s
  | some r =>
    if !r.ends r.cycles s.m.cycle then s
    else
      let s := s.updHub hub fun h => { h with port := none }
      match h.entry? r.entry with
      | none => s
      | some e => match s.team? e.team with
        | none => s
        | some t => match s.portPoison t e with
          | some u => s.entryError e u
          | none => (s.portEffect t e).freeEntry hub e

/-- PORT_OPERATION_COMPLETE (R251) in hub `ev.hub`. -/
def execPortOperationComplete (s : State) : Out := .next (s.portDone s.m.ev.hub)

/-! ## The bump of `sfence` (R176, R248) -/

/-- OPERAND_GENERATION_BUMP: the bump of thread `ev.thread`, once its earlier scratch writes are performed. -/
def State.bumpOperands (s : State) (r : ThreadRef) : State :=
  match (s.thread? r).bind s.gangOf, (s.thread? r).bind (·.sfenceWait) with
  | some g, some [] =>
    (s.updHub g.hub fun h =>
      { h with og := h.og + 1, operands := h.operands.filter (·.og != h.og + 1) }).updThread r fun t =>
        { t with sfenceWait := none }
  | _, _ => s

/-- OPERAND_GENERATION_BUMP (R176, R248) that thread `ev.thread` asked for. -/
def execOperandGenerationBump (s : State) : Out := .next (s.bumpOperands s.m.ev.thread)

/-! ## Meanings -/

/-- BKDECL (R234). -/
def execBkdecl (o : Ext) (s : State) : Out := .next (s.declares (.ext 0x74 o))
/-- MMA (R239). -/
def execMma (o : Ext) (s : State) : Out :=
  .next (s.runMisuse (.ext 0x75 o) false (fun s t => s.badSignature (.ext 0x75 o) t) fun s t => s.signs (.ext 0x75 o) t)
/-- MZERO (R251). -/
def execMzero (o : Ext) (s : State) : Out := .next (s.engineOp (.ext 0x76 o) .mzero)
/-- MLD (R251). -/
def execMld (o : Ext) (s : State) : Out := .next (s.engineOp (.ext 0x77 o) .mldScratch)
/-- MLD_REGS (R251). -/
def execMldRegs (o : Ext) (s : State) : Out := .next (s.engineOp (.ext 0x77 o) .mldRegs)
/-- MST (R251). -/
def execMst (o : Ext) (s : State) : Out := .next (s.engineOp (.ext 0x78 o) .mstScratch)
/-- MST_REGS (R251). -/
def execMstRegs (o : Ext) (s : State) : Out := .next (s.engineOp (.ext 0x78 o) .mstRegs)
/-- MCVT (R251). -/
def execMcvt (o : Ext) (s : State) : Out := .next (s.engineOp (.ext 0x79 o) .mcvt)
/-- QBLK (R253). -/
def execQblk (o : Ext) (s : State) : Out := .next (s.engineOp (.ext 0x7A o) .qblk)

end Sys2Proof.Machine
end

