-- ==== Sys2Proof/Machine/Unit.lean ====
section
/-! DEFINITION. What the module's own units do in a context's address space: reads and writes through translation,
counters and the WAITs on them, fault and trace records, and the descriptor's device fields (R226, R269, R270,
R284, R289, R414, R415, R459). The units' translations are the answers of Config.unitMap (log entry 9). -/

namespace Sys2Proof.Machine

/-! ## Reads and writes of a unit -/

/-- The parts of a byte range that lie in one page each: address and length; no bytes lie in no page. -/
def pageParts (va n : Nat) : List (Nat × Nat) :=
  (List.range (if n = 0 then 0 else (va + n + 4095) / 4096 - va / 4096)).map fun i =>
    let p := (va / 4096 + i) * 4096
    (Nat.max va p, Nat.min (va + n) (p + 4096) - Nat.max va p)

/-- n bytes the spec leaves open. -/
def State.freeBytes (s : State) : Nat → List Byte × State
  | 0 => ([], s)
  | n + 1 =>
    let (k, s) := s.drawFree
    let (bs, s) := s.freeBytes n
    (Config.freeByte k :: bs, s)

/-- A unit reads bytes at system scope, or the offset of the first byte whose page is denied. What another owner's
memory holds is open. -/
def State.unitRead (s : State) (ctx va n : Nat) : Except Nat (List Byte) × State :=
  (pageParts va n).foldl (fun (p : Except Nat (List Byte) × State) x => match p.1 with
    | .error _ => p
    | .ok bs => match p.2.unitPage ctx (x.1 / 4096) with
      | (none, s) => (.error (x.1 - va), s)
      | (some (.here, a), s) => (.ok (bs ++ s.unitBytes (a + x.1 % 4096) x.2), s)
      | (some _, s) =>
        let (more, s) := s.freeBytes x.2
        (.ok (bs ++ more), s)) (.ok [], s)

/-- What one page gives of a range: where it lies, its address there, the offset in the range and the length. -/
abbrev UnitPart := Place × Nat × Nat × Nat

/-- Writes the bytes of a range, with their poison, in the pages where they lie. -/
def State.partsWrite (s : State) (l : List UnitPart) (bs : List Byte) (job : UnitJob := .other) (poison : List Bool := []) : State :=
  let cut := fun {α : Type} (x : UnitPart) (l : List α) => (l.drop x.2.2.1).take x.2.2.2
  l.foldl (fun s x => s.deviceWrite x.2.1 (cut x bs) job x.1 (cut x poison)) s

/-- Poison of the bytes of a range, as the module's units read them (R157). -/
def State.partsPoison (s : State) (l : List UnitPart) : List Bool :=
  l.flatMap fun x => (List.range x.2.2.2).map fun i => x.1 == .here && s.unitPoison (x.2.1 + i)

/-- The pages of a range, all granted, or the offset of the first that is denied. -/
def State.unitPages (s : State) (ctx va n : Nat) : Except Nat (List UnitPart) × State :=
  (pageParts va n).foldl (fun (p : Except Nat (List UnitPart) × State) x => match p.1 with
    | .error _ => p
    | .ok l => match p.2.unitPage ctx (x.1 / 4096) with
      | (none, s) => (.error (x.1 - va), s)
      | (some (place, a), s) => (.ok (l ++ [(place, a + x.1 % 4096, x.1 - va, x.2)]), s)) (.ok [], s)

/-- A unit writes bytes at system scope; false: a page is denied, and nothing is written. -/
def State.unitWrite (s : State) (ctx va : Nat) (bs : List Byte) (job : UnitJob := .other) : Bool × State :=
  match s.unitPages ctx va bs.length with
  | (.error _, s) => (false, s)
  | (.ok l, s) => (true, s.partsWrite l bs job)

/-- What a queue reads at an address in one page (R279, R284). -/
inductive QueueRead where
  | denied
  | bytes (bs : List Byte)
  /-- in another owner's memory, and not yet read -/
  | away (place : Place) (a : Nat)
deriving DecidableEq, Repr

/-- A queue reads at system scope: this module's memory at once, behind the units' own writes; another owner's by the answer
to its request. -/
def State.queueRead (s : State) (q : Queue) (va n : Nat) : QueueRead × State :=
  match s.unitPage q.ctx (va / 4096) with
  | (none, s) => (.denied, s)
  | (some (.here, a), s) => (.bytes (s.unitBytes (a + va % 4096) n), s)
  | (some (place, a), s) => match q.answer with
    | some bs => (.bytes bs, s)
    | none => (.away place (a + va % 4096), s)

/-- The queue's request for bytes of another owner leaves (R226). -/
def State.askAway (s : State) (n : Nat) (place : Place) (a size : Nat) : State :=
  if (s.queue n).asked.isSome then s
  else
    let (id, s) := s.newId
    (s.updQueue n fun q => { q with asked := some id }).sendAt (s.m.cycle + 1)
      (.home { id := id, link := unitLink, hub := unitHub, pa := a, size := size, op := .read, back := .unitRead n place,
               rmt := false, replica := none })

/-! ## Counters (R281, R284) -/

/-- The change of a 64-bit counter is asked for, in the order of the units' requests: it is performed indivisibly at the
counter's home (R171); false: denied. -/
def State.counterUpdate (s : State) (job : CounterJob) (ctx va : Nat) (set : Bool) (v : Dword) (failed : Bool) :
    Bool × State :=
  match s.unitPage ctx (va / 4096) with
  | (none, s) => (false, s)
  | (some (place, a), s) => (true, s.unitRequest (a + va % 4096) 8 (.atomic (if set then 7 else 0) Ty.n64 v 0 .rne)
      (.counter job place ctx va failed))

/-! ## The device fields of the context descriptor (R459) -/

/-- The home address of a module physical address in this module's memory: the window of its own number is its HBM4 (R391). -/
def State.ownPa (s : State) (pa : Nat) : Nat :=
  match s.classifyPa pa with
  | (.here, a) => a
  | _ => pa

/-- The address of a context's descriptor (R258). -/
def State.descAddr (s : State) (ctx : Nat) : Nat := s.ownPa (s.m.ctxbase.toNat + 64 * ctx)
/-- The address of a queue's descriptor (R277). -/
def State.queueDesc (s : State) (n : Nat) : Nat := s.ownPa (s.m.qtbase.toNat + 64 * n)

/-- FQTAIL as it stands is written into the descriptor. -/
def State.writeTail (s : State) (ctx : Nat) : State :=
  s.deviceWrite (s.descAddr ctx + 0x14) (bytesOfNat 4 (s.context ctx).fqtail)
/-- KCOUNT as it stands is written into the descriptor. -/
def State.writeKcount (s : State) (ctx : Nat) : State :=
  s.deviceWrite (s.descAddr ctx + 0x24) (bytesOfNat 4 (s.context ctx).kcount.toNat)
/-- DROPS as it stands is written into the descriptor; OVF is an OR of 8 into FLAGS, performed indivisibly at its home: of
0x800 into the word at 0x18. -/
def State.writeDrops (s : State) (ctx : Nat) : State :=
  let c := s.context ctx
  let a := s.descAddr ctx
  let s := s.deviceWrite (a + 0x1A) (bytesOfNat 2 c.drops.toNat)
  if c.ovf then s.unitRequest (a + 0x18) 4 (.atomic 5 Ty.n32 0x800 0 .rne) (.unit .other .here) else s
/-- FQTAIL, DROPS, KCOUNT and OVF as they stand are written into the descriptor. -/
def State.writeDescriptor (s : State) (ctx : Nat) : State := ((s.writeTail ctx).writeDrops ctx).writeKcount ctx

/-- FQTAIL follows once the records it counts are visible (R269, R459). -/
def State.publishTail (s : State) (ctx : Nat) : State :=
  if (s.context ctx).tailDue && !s.unitBusy (.record ctx) then
    (s.writeTail ctx).updContext ctx fun c => { c with tailDue := false }
  else s

/-- HEAD and TAIL of a queue as they stand are written into its descriptor (R277). -/
def State.writeQueueIndices (s : State) (n : Nat) : State :=
  let q := s.queue n
  s.deviceWrite (s.queueDesc n + 0x10) (bytesOfNat 4 q.head ++ bytesOfNat 4 q.tail)

/-! ## Trace records (R289, R414, R415) -/

/-- The 64 bytes of a trace record (R415). -/
def TraceReq.bytes (r : TraceReq) (sid : Nat) : List Byte :=
  bytesOfNat 8 r.cycle ++ bytesOfDword r.pc ++ bytesOfDword r.lineage ++ bytesOfWord r.corr ++ bytesOfWord r.team
    ++ bytesOfWord r.knum ++ bytesOfNat 2 r.gang ++ bytesOfNat 1 r.lane ++ bytesOfNat 1 r.src ++ bytesOfNat 1 r.ctx
    ++ bytesOfNat 1 sid ++ bytesOfNat 2 0 ++ bytesOfWord r.data0 ++ bytesOfDword r.data1 ++ bytesOfDword r.data2

/-- A record goes to one session: dropped and counted when it would reach the trailer (R289). -/
def State.traceTo (s : State) (r : TraceReq) (x : Trace) : State :=
  let upd := fun (s : State) (f : Trace → Trace) =>
    s.updContext r.ctx fun c => { c with traces := updBy (·.id == x.id) f c.traces }
  if x.size < 64 * (x.records + 2) then upd s fun x => { x with dropped := x.dropped + 1 }
  else
    let (_, s) := s.unitWrite r.ctx (x.buffer.toNat + 64 * x.records) (r.bytes x.id) (.queue x.queue)
    upd s fun x => { x with records := x.records + 1 }

/-- A record goes to every open session of its context whose mask holds its source. -/
def State.writeTrace (s : State) (r : TraceReq) : State :=
  ((s.context r.ctx).traces.filter fun x => x.mask.getLsbD r.bit).foldl (fun s x => s.traceTo r x) s

/-- The trailer of a session that closes (R289). -/
def State.closeTrace (s : State) (ctx : Nat) (x : Trace) (trunc : Bool) : State :=
  let bs := bytesOfNat 8 s.m.cycle ++ bytesOfNat 8 x.records ++ bytesOfNat 8 x.dropped ++ bytesOfWord (lowHalf x.corr)
    ++ bytesOfNat 1 x.id ++ bytesOfNat 1 (if trunc then 1 else 0) ++ bytesOfNat 34 0
  let (_, s) := s.unitWrite ctx (x.buffer.toNat + x.size - 64) bs (.queue x.queue)
  s.updContext ctx fun c => { c with traces := c.traces.filter (·.id != x.id) }

/-! ## Fault records (R269, R270) -/

/-- A copy of a fault record for the sessions with source 6. -/
def RecordReq.trace (r : RecordReq) : TraceReq :=
  { key := r.key, ctx := r.ctx, bit := 2, src := 6, pc := r.pc, lineage := r.lineage, corr := r.corr, team := r.team,
    knum := r.knum, gang := r.gang, lane := r.lane, data0 := BitVec.ofNat 32 r.cause, data1 := r.addr,
    data2 := BitVec.allOnes 64, cycle := r.cycle }

/-- write_record of R269: FQTAIL counts the record here at once, and in the descriptor once it is visible. -/
def State.writeRecord (s : State) (r : RecordReq) : State :=
  let c := s.context r.ctx
  let size := 2 ^ c.fqlog2
  let head := natOfBytes (s.unitBytes (s.descAddr r.ctx + 0x10) 4)
  let s := s.modify fun m => { m with traces := m.traces ++ [r.trace] }
  let s :=
    if (c.fqtail + 1) % size == head % size then
      (s.updContext r.ctx fun c =>
        { c with ovf := true, drops := BitVec.ofNat 32 (Nat.min (c.drops.toNat + 1) 65535) }).writeDrops r.ctx
    else match s.unitWrite r.ctx (c.fqbase.toNat + 64 * c.fqtail) (r.bytes c.fqlog2 c.fqwritten) (.record r.ctx) with
      | (true, s) => s.updContext r.ctx fun c =>
          { c with fqtail := (c.fqtail + 1) % size, fqwritten := c.fqwritten + 1, tailDue := true }
      | (false, s) => (s.updContext r.ctx fun c => { c with ovf := true }).writeDrops r.ctx
  s

/-- The trace records of the cycle so far are written in their order (R415). -/
def State.flushTraces (s : State) : State :=
  (sortKey (·.key) s.m.traces).foldl (fun s r => s.writeTrace r) (s.modify fun m => { m with traces := [] })

/-- The records of the cycle are written in the order of R269, and then its trace records in theirs (R415). -/
def State.writeRecords (s : State) : State :=
  let rs := sortKey (·.key) s.m.records
  (rs.foldl (fun s r => s.writeRecord r) (s.modify fun m => { m with records := [] })).flushTraces

end Sys2Proof.Machine
end

