-- ==== Sys2Proof/Machine/Kernel.lean ====
section
/-! DEFINITION. Kernels: the launch record and its checks, admission, placement and dispatch, and the end of a
kernel (R290 to R304, R332, R409, R410, R424). -/

namespace Sys2Proof.Machine

/-! ## The launch record (R290, R291) -/

/-- Role i of a record. -/
def roleOf (bs : List Byte) (i : Nat) : RoleRec :=
  let w := fieldAt bs (0x10 + 4 * i) 4
  { gangs := w % 2 ^ 16, prio := w / 2 ^ 16 % 4, blocks := w / 2 ^ 24 % 64, ginit := [] }

/-- Reads the 256 bytes of a record. -/
def launchOf (bs : List Byte) : LaunchRec :=
  let b := fun (off : Nat) => fieldAt bs off 1
  { entry := dwordField bs 0, teams := fieldAt bs 8 4, gangs := fieldAt bs 0x0C 2,
    roles := (List.range (Nat.min (b 0x0E) 4)).map (roleOf bs),
    det := b 0x0F % 2 == 1, pop := b 0x0F / 2 % 2 == 1, iso := b 0x0F / 4 % 2 == 1, balance := b 0x0F / 8 % 2 == 1,
    prio := b 0x55 % 4, hsBytes := (fieldAt bs 0x20 4 + 4095) / 4096 * 4096, accCount := b 0x54,
    pvSize := fieldAt bs 0x24 4, pvBase := dwordField bs 0x28, kcBase := dwordField bs 0x38,
    kcSize := fieldAt bs 0x34 4, kcCopy := dwordField bs 0x40, pieceCount := b 0x57, seed := dwordField bs 0x48,
    cap := fieldAt bs 0x50 4, bintimer := fieldAt bs 0x68 4, part := b 0x56 % 8, ginitBase := dwordField bs 0x58,
    pgt := dwordField bs 0x60, frames := fieldAt bs 0x30 4 + 2 ^ 32 * fieldAt bs 0x6C 4 }

/-- The table of gang initial values in the roles (R291). -/
def LaunchRec.withGinit (l : LaunchRec) (bs : List Byte) : LaunchRec :=
  { l with roles := (List.range l.roles.length).map fun i =>
      let r := l.roles.getD i { gangs := 0, prio := 0, blocks := 0, ginit := [] }
      { r with ginit := (List.range 128).map fun n => (n, wordField bs (512 * i + 4 * n)) } }

/-- The role of a gang of the launch (R291). -/
def roleOfGang : List RoleRec → Nat → Nat → Nat
  | [], _, i => i
  | r :: rest, g, i => if g < r.gangs then i else roleOfGang rest (g - r.gangs) (i + 1)
def LaunchRec.roleAt (l : LaunchRec) (g : Nat) : Nat := roleOfGang l.roles g 0

/-! ## Placement (R296, R297, R332) -/

/-- Gang g of the team at position r of virtual hub v: its position, core, and logical place (R296). -/
def LaunchRec.position (l : LaunchRec) (r g : Nat) : Nat := r * l.gangs + g

/-- What is taken on a hub. -/
structure HubUse where
  /-- slots taken: (core, quarter, slot) -/
  slots : List (Nat × Nat × Nat)
  /-- scratch ranges: (start, size) -/
  ranges : List (Nat × Nat)
  acc : List Nat
  /-- reserved extended blocks: (core, quarter, blocks) -/
  blocks : List (Nat × Nat × Nat)
deriving DecidableEq, Repr

/-- What resident teams and reserved places take on a hub. -/
def State.hubUse (s : State) (hub : Nat) : HubUse :=
  let teams := s.m.teams.filter fun t => t.hub == hub && t.st != .saved
  let places := (s.m.kernels.flatMap fun k => k.places.map fun p => (k, p)).filter fun x => x.2.hub == hub
  let size := fun (k : Kernel) => (k.launch.map (·.hsBytes)).getD 0
  { slots := (s.m.gangs.filter (·.hub == hub)).map (fun g => (g.core, g.quarter, g.slot))
      ++ places.map fun x => (x.2.core, x.2.quarter, x.2.slot)
    ranges := teams.map (fun t => (t.hsBase, t.hsSize)) ++ places.map fun x => (x.2.hsBase, size x.1)
    acc := teams.flatMap (·.acc) ++ places.flatMap (·.2.acc)
    blocks := ((teams.filter fun t => !s.pop t.ref.kid).flatMap fun t => t.budgets.map fun b => (b.core, b.quarter, b.blocks))
      ++ places.map fun x => (x.2.core, x.2.quarter, x.2.blocks) }

/-- The slots of a core in canonical order that are free (R9). -/
def HubUse.free (u : HubUse) (core : Nat) : List (Nat × Nat) :=
  ((List.range 4).flatMap fun q => (List.range 32).map fun x => (q, x)).filter fun p => !u.slots.contains (core, p.1, p.2)

/-- The lowest start of a free scratch range (R297). -/
def HubUse.range (u : HubUse) (size : Nat) : Option Nat :=
  let starts := sortKey (fun a => [a]) (0 :: u.ranges.map fun r => r.1 + r.2)
  starts.find? fun a => a + size ≤ 2 ^ 22 && u.ranges.all fun r => size == 0 || r.2 == 0 || a + size ≤ r.1 || r.1 + r.2 ≤ a

/-- The n lowest free accumulators (R249). -/
def HubUse.accs (u : HubUse) (n : Nat) : Option (List Nat) :=
  let l := ((List.range 64).filter (!u.acc.contains ·)).take n
  if l.length == n then some l else none

/-- The gangs of a team take the lowest free slots of their cores: (gang, core, quarter, slot). -/
def HubUse.seat (u : HubUse) (l : LaunchRec) (r : Nat) : Option (List (Nat × Nat × Nat × Nat)) :=
  let seats := (List.range l.gangs).map fun g =>
    let core := l.position r g % 4
    let before := ((List.range g).filter fun h => l.position r h % 4 == core).length
    ((u.free core)[before]?).map fun p => (g, core, p.1, p.2)
  if seats.all (·.isSome) then some (seats.filterMap id) else none

/-- The budgets of a team's seats (R297, R310): one for each quarter and role. -/
def LaunchRec.budgets (l : LaunchRec) (seats : List (Nat × Nat × Nat × Nat)) : List Budget :=
  ((seats.map fun x => (x.2.1, x.2.2.1, l.roleAt x.1)).eraseDups).map fun x =>
    { core := x.1, quarter := x.2.1, role := x.2.2, blocks := ((l.roles[x.2.2]?).map (·.blocks)).getD 0 }

/-- The blocks of each quarter are unreserved. -/
def HubUse.blocksFit (u : HubUse) (bs : List Budget) : Bool :=
  bs.all fun b =>
    let here := fun (x : Budget) => x.core == b.core && x.quarter == b.quarter
    (((bs.filter here).map (·.blocks)).sum
      + ((u.blocks.filter fun x => x.1 == b.core && x.2.1 == b.quarter).map (·.2.2)).sum) ≤ 32

/-- Where a team goes on a hub. -/
structure Seating where
  seats : List (Nat × Nat × Nat × Nat)
  hsBase : Nat
  acc : List Nat
  budgets : List Budget
deriving DecidableEq, Repr

/-- A team fits on a hub when everything of R297 is free at once. -/
def HubUse.fit (u : HubUse) (l : LaunchRec) (r : Nat) : Option Seating :=
  match u.seat l r, u.range l.hsBytes, u.accs l.accCount with
  | some seats, some base, some acc =>
    let bs := l.budgets seats
    if u.blocksFit bs then some { seats := seats, hsBase := base, acc := acc, budgets := bs } else none
  | _, _, _ => none

/-- Adds a population place to what a hub holds. -/
def HubUse.reserve (u : HubUse) (size blocks : Nat) (p : PlaceRec) : HubUse :=
  { slots := (p.core, p.quarter, p.slot) :: u.slots, ranges := (p.hsBase, size) :: u.ranges, acc := p.acc ++ u.acc,
    blocks := (p.core, p.quarter, blocks) :: u.blocks }

/-- The places of a population on the hubs of its partition (R332), or none when they cannot all be held. -/
def seatPlaces (l : LaunchRec) (hubs : List Nat) (use : Nat → HubUse) : Option (List PlaceRec) :=
  let step := fun (acc : Option (List (Nat × HubUse) × List PlaceRec)) (t : Nat) => match acc with
    | none => none
    | some (us, ps) =>
      let hub := hubs.getD (t % 256 % hubs.length) 0
      let u := ((us.find? (·.1 == hub)).map (·.2)).getD (use hub)
      match u.fit l (t / 256) with
      | some x => match x.seats with
        | (_, core, q, slot) :: _ =>
          let blocks := (x.budgets.map (·.blocks)).sum
          let p : PlaceRec := { num := t, hub := hub, core := core, quarter := q, slot := slot, hsBase := x.hsBase,
                                acc := x.acc, blocks := blocks }
          some (putBy (·.1 == hub) (hub, u.reserve l.hsBytes blocks p) us, ps ++ [p])
        | [] => none
      | none => none
  ((List.range (l.cap / 32)).foldl step (some ([], []))).map (·.2)

/-! ## The checks of admission (R292) -/

/-- Code 1. A role entry at or above NROLES that is not zero counts as a reserved field (R291; DESIGN CHOICE, log entry
124). -/
def badReserved (bs : List Byte) : Option Nat :=
  let b := fun (off : Nat) => fieldAt bs off 1
  let roles := (List.range 4).map fun i =>
    let w := fieldAt bs (0x10 + 4 * i) 4
    (if i < b 0x0E then w / 2 ^ 30 != 0 || w / 2 ^ 18 % 64 != 0 else w != 0, 0x10 + 4 * i)
  firstBad ((decide (b 0x0F ≥ 16), 0x0F) :: roles ++ [(decide (b 0x55 ≥ 4), 0x55), (decide (b 0x56 ≥ 8), 0x56)]
    ++ [(fieldAt bs 0x70 144 != 0, 0x70)])

/-- Code 2: an ENTRY that is no multiple of 4, a PVBASE or KCDEV that is none of 128, and bits [63:57]. The spec gives KCBASE,
GINIT and PGT no alignment, and the model asks none of them (DESIGN CHOICE, log entry 123). -/
def badAddress (bs : List Byte) : Option Nat :=
  firstBad ([(0x00, 4), (0x28, 128), (0x38, 1), (0x40, 128), (0x58, 1), (0x60, 1)].map fun x =>
    (2 ^ 57 ≤ fieldAt bs x.1 8 || fieldAt bs x.1 8 % x.2 != 0, x.1))

/-- Code 3. -/
def badShape (bs : List Byte) (l : LaunchRec) : Option Nat :=
  let n := fieldAt bs 0x0E 1
  firstBad ([(l.teams == 0 || 2 ^ 24 < l.teams, 0x08), (l.gangs == 0 || 256 < l.gangs, 0x0C), (n == 0 || 4 < n, 0x0E)]
    ++ [((l.roles.map (·.gangs)).sum != l.gangs || 32 < (l.roles.map (·.blocks)).sum, 0x10)])

/-- Code 4. -/
def badSizes (bs : List Byte) (l : LaunchRec) : Option Nat :=
  firstBad [(2 ^ 22 < fieldAt bs 0x20 4, 0x20), (2 ^ 20 < l.pvSize || l.pvSize % 8 != 0, 0x24),
    (l.frames < l.teams * l.gangs * 32 || (l.pop && l.frames < l.cap), 0x30), (65472 < l.kcSize, 0x34),
    (64 < l.accCount, 0x54), (l.bintimer != 0 && (l.bintimer < 64 || 65536 < l.bintimer), 0x68)]

/-- Code 7: the population's shape, and its places on empty hubs. -/
def State.badPopulation (s : State) (l : LaunchRec) : Option Nat :=
  let hubs := s.partitionHubs l.part
  let empty : HubUse := { slots := [], ranges := [], acc := [], blocks := [] }
  if !l.pop then none
  else if l.gangs != 1 then some 0x0C
  else if l.cap % 32 != 0 || l.cap < 32 * l.teams then some 0x50
  -- what PART does not name has no gang slots to count: code 9 tells
  else if !hubs.isEmpty && (512 * hubs.length < l.cap / 32 || (seatPlaces l hubs fun _ => empty).isNone) then some 0x50
  else none

/-- The rows of a process-group table. -/
def groupRows (bs : List Byte) : List GroupRow :=
  (List.range (fieldAt bs 0 2)).map fun i =>
    let a := 64 + 32 * i
    { module := fieldAt bs a 2, ncount := fieldAt bs (a + 2) 2, firstTeam := fieldAt bs (a + 4) 4,
      teams := fieldAt bs (a + 8) 4, neighbours := (List.range 8).map fun j => fieldAt bs (a + 0x10 + 2 * j) 2 }

/-- TFIRST follows on from rank to rank (R300). -/
def rowsFollow : Nat → List GroupRow → Bool
  | _, [] => true
  | n, r :: rest => r.firstTeam == n && rowsFollow (n + r.teams) rest

/-- The process-group table is valid (R300). A neighbour entry at or above NCOUNT that is not zero counts as a reserved field
(DESIGN CHOICE, log entry 125). -/
def groupValid (bs : List Byte) (me teams : Nat) : Bool :=
  let n := fieldAt bs 0 2
  let rows := groupRows bs
  let clean := fieldAt bs 2 62 == 0 && (List.range n).all fun i => fieldAt bs (64 + 32 * i + 12) 4 == 0
  1 ≤ n && n ≤ 1152 && (rows.filter (·.module == me)).length == 1 && rowsFollow 0 rows
    && (rows.map (·.teams)).sum == teams && clean
    && rows.all fun r => r.ncount ≤ 8 && (r.neighbours.take r.ncount).all (· < n) && (r.neighbours.drop r.ncount).all (· == 0)

/-- PART is the first die of a partition, whose dies are in the context's PMASK. -/
def State.partGood (s : State) (l : LaunchRec) (pmask : Nat) : Bool :=
  let dies := partitionDies s.m.layout 0 l.part
  !dies.isEmpty && dies.all fun d => pmask / 2 ^ d % 2 == 1

/-- What the snapshot read (R292, R293): each part, or where it was denied. -/
structure Snapshot where
  record : Except Nat (List Byte)
  pieces : Except Nat (List Byte)
  ginit : Except Nat (List Byte)
  group : Except Nat (List Byte)
  /-- a read of KCBASE or a write of KCDEV is denied -/
  bank : Bool
  copy : Bool

/-- The first failing check, its code and ADDR: of several failing fields the one of the lowest offset (log entry 103). -/
def State.checkLaunch (s : State) (k : Kernel) (x : Snapshot) : Option (Nat × Nat) :=
  match x.record with
  | .error off => some (10, off)
  | .ok bs =>
    let l := launchOf bs
    let c := s.context k.ctx
    match badReserved bs, badAddress bs, badShape bs l, badSizes bs l with
    | some o, _, _, _ => some (1, o)
    | none, some o, _, _ => some (2, o)
    | none, none, some o, _ => some (3, o)
    | none, none, none, some o => some (4, o)
    | none, none, none, none =>
      if 64 < l.pieceCount then some (5, 0x57)
      else match x.pieces with
      | .error off => some (10, 0x100 + off)
      | .ok ps =>
        let pieces := (List.range l.pieceCount).map fun i => pieceOf ((ps.drop (64 * i)).take 64)
        let bad := pieces.zipIdx.findSome? fun p => (p.1.badField l.hsBytes false l.teams).map fun o => 0x100 + 64 * p.2 + o
        match bad with
        | some o => some (5, o)
        | none => match pieces.findIdx? fun p => p.window && !c.priv with
          | some i => some (6, 0x100 + 64 * i + 0x3D)
          | none => match s.badPopulation l with
            | some o => some (7, o)
            | none =>
              let group : Option (Nat × Nat) := match x.group with
                | .error _ => some (10, 0x60)
                | .ok g => if l.pgt == 0 || groupValid g s.modnum l.teams then none else some (8, 0x60)
              match group with
              | some r => some r
              | none =>
                if !s.partGood l c.pmask then some (9, 0x56)
                else if x.bank then some (10, 0x38)
                else if x.copy then some (10, 0x40)
                else match x.ginit with
                  | .error _ => some (10, 0x58)
                  | .ok _ => none

/-- Reads the objects of the snapshot. Of a process-group table with NMOD above 1,152 it reads as many entries as a valid one may
have, and a denial there is code 10 (DESIGN CHOICE, log entry 126). -/
def State.snapshot (s : State) (k : Kernel) : Snapshot × State :=
  let (rec_, s) := s.unitRead k.ctx k.record.toNat 256
  match rec_ with
  | .error e => ({ record := .error e, pieces := .ok [], ginit := .ok [], group := .ok [], bank := false, copy := false }, s)
  | .ok bs =>
    let l := launchOf bs
    let (ps, s) := s.unitRead k.ctx (k.record.toNat + 256) (64 * Nat.min l.pieceCount 64)
    let (gi, s) := if l.ginitBase == 0 then (Except.ok [], s)
      else s.unitRead k.ctx l.ginitBase.toNat (512 * l.roles.length)
    let (gt, s) := if l.pgt == 0 then (Except.ok [], s)
      else match s.unitRead k.ctx l.pgt.toNat 64 with
        | (.error e, s) => (.error e, s)
        | (.ok h, s) => s.unitRead k.ctx l.pgt.toNat (64 + 32 * Nat.min (fieldAt h 0 2) 1152)
    let (b, s) := s.unitPages k.ctx l.kcBase.toNat (Nat.min l.kcSize 65472)
    let (d, s) := s.unitPages k.ctx l.kcCopy.toNat (Nat.min l.kcExtent 65536)
    let denied := fun (x : Except Nat (List UnitPart)) => match x with
      | .error _ => true
      | .ok _ => false
    ({ record := .ok bs, pieces := ps, ginit := gi, group := gt, bank := denied b, copy := denied d }, s)

/-! ## Final states (R284, R304, R409) -/

/-- The span record of a kernel that has ended (R409, R410); the write sum restarts. -/
def State.spanRecord (s : State) (k : Kernel) (state : Nat) : State :=
  match (s.context k.ctx).span with
  | none => s
  | some x =>
    let a := x.buffer.toNat + 64 * (x.records + 1)
    let fits := 64 * (x.records + 2) ≤ x.size
    let bs := bytesOfNat 8 s.m.cycle ++ bytesOfDword x.sum ++ bytesOfWord k.knum ++ bytesOfWord (lowHalf k.corr)
      ++ bytesOfNat 1 state ++ bytesOfNat 39 0
    let s := if fits then (s.unitWrite k.ctx a bs (.record k.ctx)).2 else s
    let x : Span := if fits then { x with records := x.records + 1 } else { x with dropped := x.dropped + 1 }
    let (_, s) := s.unitWrite k.ctx (x.buffer.toNat + 0x18) (bytesOfNat 4 x.records ++ bytesOfNat 4 x.dropped) (.record k.ctx)
    s.updContext k.ctx fun c => { c with span := some { x with sum := 0 } }

/-- The completion of a kernel (R284). -/
def State.complete (s : State) (k : Kernel) (failed : Bool) : State :=
  if k.donectr == 0 then s
  else
    match s.counterUpdate (.completion k.queue) k.ctx k.donectr.toNat false k.doneval failed with
    | (true, s) => s
    | (false, s) => s.updQueue k.queue fun q => { q with err := 5 }

/-- A kernel takes its final state: its trace record and its span record are written, and its completion is due. -/
def State.finishKernel (s : State) (k : Kernel) (st : KernelState) : State :=
  let code := if st == .done then 0 else if st == .faulted then 1 else 2
  ((s.traceKernel k.kid 5 255 none).spanRecord k code).updKernel k.kid fun k =>
    { k with st := st, places := [], due := some (code != 0 || k.reset) }

/-- The completion is due, and the records of the kernel and of its span are visible (R284, R409). -/
def State.completionDue (s : State) (k : Kernel) : Bool := k.due.isSome && !s.unitBusy (.record k.ctx)

/-- The completion is written; the kernel stays listed only for the grid barriers of other modules. -/
def State.completeKernel (s : State) (k : Kernel) : State :=
  let s := s.complete k (k.due.getD false)
  if k.spans && k.launch.isSome then s.updKernel k.kid fun k => { k with due := none }
  else s.modify fun m => { m with kernels := m.kernels.filter (·.kid != k.kid) }

/-- The packet begun retires: HEAD advances (R282, R288). -/
def State.retirePacket (s : State) (n : Nat) : State :=
  (s.updQueue n fun q =>
    let h := (q.head + 1) % 2 ^ q.ringlog2
    { q with begun := none, notified := [], answer := none, head := h, st := if h == q.tail then .idle else .active }).writeQueueIndices n

/-- The LAUNCH that created the kernel retires (R282). -/
def State.retireLaunch (s : State) (k : Kernel) : State :=
  let q := s.queue k.queue
  if q.begun.isSome && q.st == .active then s.retirePacket k.queue else s

/-- A refusal (R292): FAULTED, one record, the LAUNCH retired, and the completion due. WORD0 is zero, as no instruction is
named (R270). -/
def State.refuseKernel (s : State) (k : Kernel) (code off : Nat) : State :=
  let r : RecordReq :=
    { key := [257], ctx := k.ctx, kernel := k.kid, pc := BitVec.allOnes 64, addr := BitVec.ofNat 64 off,
      lineage := BitVec.allOnes 64, corr := lowHalf k.corr, team := BitVec.allOnes 32, knum := BitVec.allOnes 32,
      gang := 0xFFFF, lane := 0xFF, cause := 2, fatal := true, nested := false, isolated := false, detail := code,
      word0 := 0, cycle := s.m.cycle }
  ((s.writeRecord r).retireLaunch k).finishKernel { k with knum := BitVec.allOnes 32 } .faulted

/-! ## ADMISSION_SNAPSHOT (R292, R293) -/

/-- The kernel with its snapshot. -/
def Kernel.withLaunch (k : Kernel) (me : Nat) (x : Snapshot) : Kernel :=
  let bytes := fun (e : Except Nat (List Byte)) => match e with
    | .ok bs => bs
    | .error _ => []
  let l := launchOf (bytes x.record)
  let rows := if l.pgt == 0 then [] else groupRows (bytes x.group)
  { k with
    st := .waiting,
    launch := some (if l.ginitBase == 0 then l else l.withGinit (bytes x.ginit)),
    pieces := (List.range l.pieceCount).map fun i => pieceOf (((bytes x.pieces).drop (64 * i)).take 64),
    group := rows,
    share := (rows.findIdx? (·.module == me)).getD 0 }

/-- The first step of admission of a kernel. -/
def State.admissionStep (s : State) (kid : Nat) : State :=
  match s.kernel? kid with
  | none => s
  | some k =>
    if k.st != .posted then s
    else
      let (x, s) := s.snapshot k
      match s.checkLaunch k x with
      | some (code, off) => s.refuseKernel k code off
      | none => s.updKernel kid fun k => k.withLaunch s.modnum x

/-- ADMISSION_SNAPSHOT (R292): kernel `ev.kernel`. -/
def execAdmissionSnapshot (s : State) : Out := .next (s.admissionStep s.m.ev.kernel)

/-! ## ENERGY_GRANT and admission (R295, R301, R332, R424) -/

/-- The epoch budget in microjoules (R422). -/
def State.epochBudget (s : State) : Nat := s.m.pwrbud * 65536 / 1050
/-- A context is within its allowance (R422, R424). -/
def State.withinAllowance (s : State) (ctx : Nat) : Bool :=
  let c := s.context ctx
  c.eshare != 0 && c.epochEnergy / 10 ^ 9 < c.eshare * s.epochBudget / 256

/-- The WAITING kernels, in the order of R424. -/
def State.waitingKernels (s : State) : List Kernel :=
  sortKey (fun k => [3 - ((k.launch.map (·.prio)).getD 0), k.kid]) (s.m.kernels.filter (·.st == .waiting))

/-- The kernels that are not held back by the grant's conditions: those before the first whose context is above its
allowance. -/
def State.grantable (s : State) : List Kernel := s.waitingKernels.takeWhile fun k => s.withinAllowance k.ctx

/-- The group block (R301). -/
def State.groupBlock (s : State) (k : Kernel) (l : LaunchRec) : List Byte :=
  let zero : GroupRow := { module := s.modnum, ncount := 0, firstTeam := 0, teams := l.teams,
                           neighbours := List.replicate 8 0 }
  let rows := if k.group.isEmpty then [zero] else k.group
  let n := rows.length
  let r := if k.group.isEmpty then 0 else k.share
  let row := fun (i : Nat) => rows.getD i zero
  let prev := (r + n - 1) % n
  let next := (r + 1) % n
  let near := fun (i : Nat) => (row r).neighbours.getD i 0
  bytesOfNat 4 r ++ bytesOfNat 4 n ++ bytesOfNat 4 (row r).firstTeam ++ bytesOfNat 4 (row r).teams ++ bytesOfNat 4 prev
    ++ bytesOfNat 4 next ++ bytesOfNat 2 (row prev).module ++ bytesOfNat 2 (row next).module
    ++ bytesOfNat 4 (row r).ncount ++ (List.range 8).flatMap (fun i => bytesOfNat 2 (near i))
    ++ (List.range 8).flatMap fun i => bytesOfNat 2 (if i < (row r).ncount then (row (near i)).module else 0)

/-- Every hub of a partition performs an acquire of some classes, for no thread of its own; the token names its bumps
(R218, R346). -/
def State.acquireHubs (s : State) (hubs : List Nat) (classD classM : Bool) : Nat × State :=
  let (tok, s) := s.newId
  (tok, hubs.foldl (fun s h => s.updHub h fun h =>
    { h with bumps := h.bumps ++ [{ thread := none, tok := tok, classD := classD, classM := classM }] }) s)

/-- Every bump of a token has been made. -/
def State.acquired (s : State) (tok : Nat) : Bool := s.m.hubs.all fun h => h.bumps.all (·.tok != tok)

/-- The step to ADMITTED (R295), or a refusal on a denial of the constant bank. The copy keeps the poison of what it copies
(R157). -/
def State.admitKernel (s : State) (k : Kernel) (l : LaunchRec) (places : List PlaceRec) : State :=
  let (src, s) := s.unitPages k.ctx l.kcBase.toNat l.kcSize
  let (bytes, s) := s.unitRead k.ctx l.kcBase.toNat l.kcSize
  let (low, s) := s.unitPages k.ctx l.kcCopy.toNat l.kcSize
  let (high, s) := s.unitPages k.ctx (l.kcCopy.toNat + l.kcBlock) 64
  match src, bytes, low, high with
  | .ok from_, .ok bank, .ok low, .ok high =>
    let c := s.context k.ctx
    let num := c.kcount
    let s := (s.updContext k.ctx fun c => { c with kcount := c.kcount + 1 }).writeKcount k.ctx
    let (tok, s) := (s.retireLaunch k).acquireHubs (s.partitionHubs l.part) true true
    let s := (s.partsWrite low bank (.bank k.kid) (s.partsPoison from_)).partsWrite high (s.groupBlock k l) (.bank k.kid)
    let (n, s) := s.newId
    let now := s.m.cycle
    (s.updKernel k.kid fun k =>
      { k with st := .admitted, knum := num, places := places, admitOrder := n, admittedAt := now, acqTok := tok }).traceKernel
        k.kid 2 255 none
  | .ok _, .ok _, _, _ => s.refuseKernel k 10 0x40
  | _, _, _, _ => s.refuseKernel k 10 0x38

/-- A WAITING kernel receives its grant; a population waits for its places too (R332, R424). -/
def State.energyGrant (s : State) (kid : Nat) : State :=
  match s.kernel? kid with
  | none => s
  | some k => match k.launch with
    | none => s
    | some l =>
      if k.st != .waiting || (s.context k.ctx).st != .active || !(s.grantable.any (·.kid == kid)) then s
      else if l.pop then match seatPlaces l (s.partitionHubs l.part) s.hubUse with
        | some ps => s.admitKernel k l ps
        | none => s
      else s.admitKernel k l []

/-- ENERGY_GRANT (R424): kernel `ev.kernel`. -/
def execEnergyGrant (s : State) : Out := .next (s.energyGrant s.m.ev.kernel)

/-! ## TEAM_DISPATCH (R297, R298) -/

/-- Round of virtual hub v not yet dispatched. -/
def Kernel.round (k : Kernel) (v : Nat) : Nat := ((k.nextTeam.find? (·.1 == v)).map (·.2)).getD 0

/-- The kernels whose teams may be dispatched, in order (R298): after the acquire of their admission (R218), and the copy of
their constant bank (R141, R295). -/
def State.dispatchable (s : State) : List Kernel :=
  sortKey (fun k => [3 - ((k.launch.map (·.prio)).getD 0), k.admitOrder]) (s.m.kernels.filter fun k =>
    k.live && k.killing.isNone && k.admittedAt < s.m.cycle && s.acquired k.acqTok && !s.unitBusy (.bank k.kid) && (s.context k.ctx).st == .active && k.dispatched < k.count)

/-- The virtual hubs of a kernel that a hub hosts, in order. -/
def State.virtualHubs (s : State) (l : LaunchRec) (hub : Nat) : List Nat :=
  let hubs := s.partitionHubs l.part
  (List.range 256).filter fun v => hubs.getD (v % hubs.length) 256 == hub

/-- The local index of a candidate, when the team may be dispatched now. -/
def State.candidate (s : State) (k : Kernel) (l : LaunchRec) (v : Nat) : Option Nat :=
  let i := v + 256 * k.round v
  if k.count ≤ i then none
  else if l.det && (k.dispatched != i || k.lastDispatch == s.m.cycle + 1) then none
  else some i

/-- Where a candidate goes: a population's team in its own place. -/
def State.seating (s : State) (k : Kernel) (l : LaunchRec) (hub i : Nat) : Option Seating :=
  if l.pop then match k.places.find? (·.num == i) with
    | some p => some { seats := [(0, p.core, p.quarter, p.slot)], hsBase := p.hsBase, acc := p.acc,
                       budgets := l.budgets [(0, p.core, p.quarter, p.slot)] }
    | none => none
  else (s.hubUse hub).fit l (i / 256)

/-- A team as it is created (R30, R31, R138, R155, R186, R350). -/
def newTeam (ref : TeamRef) (hub : Nat) (l : LaunchRec) (x : Seating) (level : Nat) (pieces : Nat) : Team where
  ref := ref
  st := .resident
  hub := hub
  hsBase := x.hsBase
  hsSize := l.hsBytes
  counts := []
  acc := x.acc
  buckles := Vector.replicate 16 Buckle.fresh
  bars := Vector.replicate 16 TeamBarrier.idle
  level := level
  pieces := (List.range pieces).map fun i => (i, none, 0)
  budgets := x.budgets
  streak := none
  loans := []

/-- A team's scratch, accumulators and core-scratch frames are zero (R31, R138, R139). -/
def State.clearTeam (s : State) (t : Team) (gangs : List Gang) : State :=
  let s := s.winClear (windowAddr t.hub 0 t.hsBase) t.hsSize
  let s := t.acc.foldl (fun s z => s.winClear (accAddr t.hub z 0 0) 16384) s
  gangs.foldl (fun s g => s.winClear (ksAddr g 0) 2048) s

/-- The 32 threads of a gang at launch (R33, R308, R331). -/
def launchThreads (l : LaunchRec) (ref : GangRef) (waits : Bool) : List Thread :=
  (List.range 32).map fun lane =>
    let grank := (ref.team * l.gangs + ref.gang) * 32 + lane
    let t := Thread.fresh { kid := ref.kid, team := ref.team, gang := ref.gang, lane := lane } l.entry
      (BitVec.ofNat 64 grank) (BitVec.ofNat 64 (grank % 2 ^ 24 * 2 ^ 24)) l.pvSize
    { t with pstepWait := if waits then some 0 else none }

/-- Dispatches a team at a seating (R297). -/
def State.dispatchTeam (s : State) (k : Kernel) (l : LaunchRec) (hub i : Nat) (x : Seating) : State :=
  let ref : TeamRef := { kid := k.kid, team := k.first + i }
  let t := newTeam ref hub l x 0 k.pieces.length
  let gangs := x.seats.map fun p => s.newGang { kid := ref.kid, team := ref.team, gang := p.1 } (l.roleAt p.1) hub p.2.1
    p.2.2.1 p.2.2.2 (logicalPlace (i % 256) (l.position (i / 256) p.1))
  let threads := gangs.flatMap fun g => launchThreads l g.ref (!k.pieces.isEmpty)
  let s := (s.clearTeam t gangs).modify fun m =>
    { m with teams := m.teams ++ [t], gangs := m.gangs ++ gangs, threads := m.threads ++ threads }
  let now := s.m.cycle
  let s := s.updKernel k.kid fun k =>
    { k with st := .running, dispatched := k.dispatched + 1, lastDispatch := now + 1
             nextTeam := putBy (·.1 == i % 256) (i % 256, i / 256 + 1) k.nextTeam
             hubs := if k.hubs.contains hub then k.hubs else k.hubs ++ [hub] }
  s.traceKernel k.kid 3 hub (some ref.team)

/-- The first candidate of a hub that fits (R298). -/
def State.pickTeam (s : State) (hub : Nat) : Option (Kernel × LaunchRec × Nat × Seating) :=
  s.dispatchable.findSome? fun k => match k.launch with
    | none => none
    | some l => (s.virtualHubs l hub).findSome? fun v => match s.candidate k l v with
      | none => none
      | some i => (s.seating k l hub i).map fun x => (k, l, i, x)

/-- TEAM_DISPATCH (R298) in hub `ev.hub`. -/
def execTeamDispatch (s : State) : Out :=
  .next (match s.pickTeam s.m.ev.hub with
    | some (k, l, i, x) => s.dispatchTeam k l s.m.ev.hub i x
    | none => s)

/-! ## The end (R294, R304) -/

/-- No team of the kernel is resident or saved. -/
def State.teamless (s : State) (kid : Nat) : Bool := (s.kernelTeams kid).isEmpty

/-- The moves to RUNNING and DRAINING that wait for nothing but the teams, in contexts that are ACTIVE (R273, R294, R301). -/
def State.kernelMoves (s : State) : State :=
  s.modify fun m => { m with kernels := m.kernels.map fun k =>
    if (s.context k.ctx).st != .active then k
    else if k.st == .running && k.dispatched == k.count && k.rsmp != .resampling && s.teamless k.kid then
      { k with st := .draining, drainAt := some m.cycle }
    else if k.st == .admitted && k.count == 0 && k.admittedAt < m.cycle then { k with st := .running }
    else k }

/-- No pass or port operation of an operation that has been dropped is under way in a hub (R257). -/
def Hub.engineStopped (h : Hub) : Bool :=
  let live := fun (r : EngineRun) => (h.entry? r.entry).isSome
  h.pass.all live && h.port.all live

/-- An access of the kernel's threads has not been performed. -/
def State.accessing (s : State) (kid : Nat) : Bool :=
  let mine := fun (a : Access) => a.thread.kid == kid
  let waits := fun (w : MergeWaiter) => match w.who with
    | .access a => mine a
    | _ => false
  s.m.hubs.any (fun h => h.ports.any (·.2.any mine) || h.held.any mine || h.fills.any (·.waiters.any (mine ·.2))
      || h.merges.any (fun e => e.records.any waits || e.overflow.any waits) || h.mergeQueue.any waits)
    || s.requests.any fun r => match r.back with
      | .access a => mine a
      | _ => false

/-- A read or a write of a copy that has been dropped is still on its way for one of some hubs. -/
def State.copiesStopping (s : State) (hubs : List Nat) : Bool :=
  let gone := fun (hub id : Nat) => hubs.contains hub && !(s.hub hub).copies.any (·.id == id)
  s.requests.any fun r => match r.back with
    | .copyRead hub id | .copyWrite hub id => gone hub id
    | _ => false

/-- The next step of R304 is due: the teams have ended, what they had sent has been performed and their copies and engine work
have stopped; and after that the releases have been performed, and every record is visible. -/
def State.drainDue (s : State) (k : Kernel) : Bool :=
  k.st == .draining && s.teamless k.kid
    && (if k.ending then k.endRel.isEmpty && !s.unitBusy (.record k.ctx)
      else k.hubs.all (fun h => (s.hub h).engineStopped) && !s.accessing k.kid && !s.copiesStopping k.hubs)

/-- The kernel's replicas are dropped (R154). -/
def State.dropReplicas (s : State) (kid : Nat) : State :=
  s.modify fun m => { m with l2 := m.l2.filter fun l => l.home || l.placedBy != some kid }

/-- KERNEL_DRAIN_END (R304): the release in every hub that ran a team begins, after it the kernel takes its final state, and
then its completion is written. -/
def State.drainKernel (s : State) (kid : Nat) : State :=
  match s.kernel? kid with
  | none => s
  | some k =>
    if s.completionDue k then s.completeKernel k
    else if !s.drainDue k then s
    else if !k.ending then
      k.hubs.foldl (fun s h => s.startRelease h (.kernelEnd kid))
        (s.updKernel kid fun k => { k with ending := true, endRel := k.hubs })
    else (s.dropReplicas kid).finishKernel k (if k.killed then .killed else if k.faulted then .faulted else .done)

/-- KERNEL_DRAIN_END (R304) of kernel `ev.kernel`. -/
def execKernelDrainEnd (s : State) : Out := .next (s.drainKernel s.m.ev.kernel)

/-- A kill of a kernel (R294): a POSTED or WAITING one is removed, with its completion when a queue reset removes it; one that
was ADMITTED or RUNNING at the start of the cycle ends its teams with the cycle, so that a fault of the cycle marks it too; and
one that was DRAINING goes on as it is, with bit 63 in its completion (R288; log entry 104). -/
def State.killKernel (s : State) (k : Kernel) (cause : Nat) : State :=
  if k.final then s
  else if k.st == .posted || k.st == .waiting then
    (s.modify fun m => { m with kernels := m.kernels.filter (·.kid != k.kid) }).complete k true
  else if k.st == .draining && k.drainAt != some s.m.cycle then s.updKernel k.kid fun k => { k with reset := true }
  else s.updKernel k.kid fun k => { k with killing := some (k.killing.getD cause) }

end Sys2Proof.Machine
end

