-- ==== Sys2Proof/Machine/Queue.lean ====
section
/-! DEFINITION. Queues: the queue processor and its packets, doorbells, `qpost` and `qsig`, and the commands of QCTL
(R277 to R289, R409, R410). -/

namespace Sys2Proof.Machine

/-! ## Packets (R280 to R282) -/

/-- The bytes from an offset to the end are zero. -/
def zeroFrom (bs : List Byte) (off : Nat) : Bool := (bs.drop off).all (· == 0)

/-- An address field: bits [63:57] zero, aligned, and not zero. -/
def addressGood (bs : List Byte) (off align : Nat) : Bool :=
  let a := fieldAt bs off 8
  a < 2 ^ 57 && a % align == 0 && a != 0

/-- A packet that is valid by its bytes (R281, R282, R409, R414). -/
def packetValid (bs : List Byte) : Bool :=
  let b := fun (off : Nat) => fieldAt bs off 1
  b 1 < 2 && fieldAt bs 2 2 == 0 && match b 0 with
    | 0 => zeroFrom bs 8
    | 1 => addressGood bs 8 256 && (fieldAt bs 0x10 8 == 0 || addressGood bs 0x10 8) && zeroFrom bs 0x20
    | 2 | 3 => addressGood bs 8 8 && b 0x18 < 2 && zeroFrom bs 0x19
    | 4 => addressGood bs 8 4096 && 128 ≤ fieldAt bs 0x10 8 && fieldAt bs 0x10 8 % 64 == 0 && zeroFrom bs 0x1C
    | 5 => addressGood bs 8 4096 && 4096 ≤ fieldAt bs 0x10 8 && fieldAt bs 0x10 8 % 64 == 0 && b 0x18 < 4 && b 0x19 < 32
        && zeroFrom bs 0x1A
    | 6 => fieldAt bs 8 16 == 0 && b 0x18 < 4 && zeroFrom bs 0x19
    | _ => false

/-- The packet at HEAD as the device reads it (R279). -/
def State.headPacket (s : State) (q : Queue) : QueueRead × State := s.queueRead q (q.ringbase.toNat + 64 * q.head) 64

/-- Every LAUNCH of the queue has reached its final state. -/
def State.launchesEnded (s : State) (n : Nat) : Bool := s.m.kernels.all fun k => k.queue != n || k.final

/-- The queue has a packet to begin (R273, R282). -/
def State.pending (s : State) (q : Queue) : Bool :=
  q.st == .active && q.begun.isNone && q.head != q.tail && (s.context q.ctx).st == .active

/-- A packet need wait for no earlier LAUNCH (R282, R409). -/
def State.unserial (s : State) (q : Queue) (bs : List Byte) : Bool :=
  s.launchesEnded q.num || (fieldAt bs 1 1 % 2 == 0 && fieldAt bs 0 1 != 4)

/-- The queue's head packet can begin (R273, R282, R283, R409). -/
def State.canBegin (s : State) (q : Queue) : Bool :=
  s.pending q && (match (s.headPacket q).1 with
    | .bytes bs => s.unserial q bs
    | .denied => true
    | .away .. => false)

/-- The head packet of a ring in another owner's memory is read by a request; one that has come and must still wait is read
again (R226, R279). -/
def State.askHead (s : State) (q : Queue) : State :=
  if !s.pending q then s
  else match s.headPacket q with
    | (.away place a, s) => s.askAway q.num place a 64
    | (.bytes bs, _) =>
      if q.answer.isSome && !s.unserial q bs then s.updQueue q.num fun q => { q with answer := none } else s
    | (.denied, _) => s

/-- The queue whose packet begins in this cycle (R283). -/
def State.nextQueue (s : State) : Option Queue :=
  leastBy (fun (q : Queue) => [3 - q.prio, q.begunAt, q.num]) (s.m.queues.filter s.canBegin)

/-- An invalid packet: ERROR, with HEAD on the packet. -/
def State.queueError (s : State) (n : Nat) : State :=
  s.updQueue n fun q => { q with st := .error, err := 4, begun := none, notified := [], answer := none }

/-- A queue begins its head packet, of the type that the row names; an invalid packet puts it in ERROR. -/
def State.beginPacket (s : State) (n ty : Nat) (act : State → Queue → List Byte → State) : State :=
  let q := s.queue n
  if !s.canBegin q then s
  else
    let now := s.m.cycle
    let (p, s) := s.headPacket q
    let s := s.updQueue n fun q => { q with begunAt := now + 1, answer := none }
    match p with
    | .denied => s.queueError n
    | .away .. => s
    | .bytes bs =>
      if !packetValid bs then s.queueError n
      else if fieldAt bs 0 1 != ty then s
      else act s (s.queue n) bs

/-- CORR of a packet (R280). -/
def packetCorr (bs : List Byte) : Dword := BitVec.ofNat 64 (fieldAt bs 4 4)

/-! ## NOP and LAUNCH -/

/-- NOP_PACKET (R282): queue `ev.queue`. -/
def execNopPacket (s : State) : Out := .next (s.beginPacket s.m.ev.queue 0 fun s q _ => s.retirePacket q.num)

/-- A kernel as its LAUNCH creates it (R294). -/
def newKernel (kid cycle : Nat) (q : Queue) (bs : List Byte) : Kernel where
  kid := kid
  st := .posted
  ctx := q.ctx
  queue := q.num
  corr := packetCorr bs
  donectr := dwordField bs 0x10
  doneval := dwordField bs 0x18
  record := dwordField bs 8
  knum := BitVec.allOnes 32
  launch := none
  pieces := []
  group := []
  share := 0
  postedAt := cycle
  nextTeam := []
  dispatched := 0
  lastDispatch := 0
  ended := 0
  killed := false
  faulted := false
  cause := 0
  hubs := []
  energy := 0
  resampled := false
  rsmp := .idle
  plan := []
  anyBad := false
  places := []
  shares := []
  gridsyncs := 0
  closed := false
  fetched := []
  ending := false
  endRel := []
  admitOrder := 0
  admittedAt := 0
  acqTok := 0
  reset := false
  drainAt := none
  killing := none
  due := none

/-- LAUNCH_PACKET (R282): the kernel is POSTED, and the packet stays begun until it is ADMITTED. -/
def execLaunchPacket (s : State) : Out :=
  .next (s.beginPacket s.m.ev.queue 1 fun s q bs =>
    let kid := s.m.nextKid
    let k := newKernel kid s.m.cycle q bs
    (s.modify fun m => { m with nextKid := kid + 1, kernels := m.kernels ++ [k] }).updQueue q.num fun q =>
      { q with begun := some bs })

/-! ## WAIT and SIGNAL (R284) -/

/-- The queue is BLOCKED in a begun WAIT; the reads that were due have been made. -/
def State.blockWait (s : State) (n : Nat) (bs : List Byte) : State :=
  let now := s.m.cycle
  s.updQueue n fun q =>
    { q with st := .blocked, begun := some bs, notified := q.notified.filter (now < ·), answer := none }

/-- A begun WAIT reads its counter: it retires, stays blocked, or is denied. The counter of another owner is read by a request,
whose answer decides (R226, R284). -/
def State.evalWait (s : State) (n : Nat) (bs : List Byte) : State :=
  match s.queueRead (s.queue n) (fieldAt bs 8 8) 8 with
  | (.denied, s) => s.queueError n
  | (.away place a, s) => (s.blockWait n bs).askAway n place a 8
  | (.bytes w, s) =>
    let x := natOfBytes w
    let v := fieldAt bs 0x10 8
    if (if fieldAt bs 0x18 1 == 0 then decide (v ≤ x) else x == v) then s.retirePacket n else s.blockWait n bs

/-- WAIT_PACKET (R284). -/
def execWaitPacket (s : State) : Out := .next (s.beginPacket s.m.ev.queue 2 fun s q bs => s.evalWait q.num bs)

/-- A WAIT is blocked in a context that is ACTIVE, and no read of its counter is on its way. -/
def State.blockedWait (s : State) (q : Queue) : Bool :=
  q.st == .blocked && q.asked.isNone && (s.context q.ctx).st == .active

/-- A blocked WAIT reads its counter in this cycle, or the answer to its request has come (R284); the reads every 4,096 cycles
are timer events. -/
def State.waitDue (s : State) (q : Queue) : Bool :=
  s.blockedWait q && (q.answer.isSome || q.notified.any (· ≤ s.m.cycle))

/-- WAIT_COUNTER_READ (R284): queue `ev.queue`. -/
def execWaitCounterRead (s : State) : Out :=
  let q := s.queue s.m.ev.queue
  .next (match q.begun with
    | some bs => if s.blockedWait q then s.evalWait q.num bs else s
    | none => s)

/-- The change that a begun SIGNAL asked for has been performed (R282). -/
def Queue.signalled (q : Queue) : Bool :=
  q.st == .active && q.performed && (match q.begun with
    | some bs => fieldAt bs 0 1 == 3
    | none => false)

/-- SIGNAL_PACKET (R282): the change is asked for behind the writes of earlier packets; with `ev.flag` it has been performed,
and the packet retires. -/
def execSignalPacket (s : State) : Out :=
  .next (if s.m.ev.flag then (if (s.queue s.m.ev.queue).signalled then s.retirePacket s.m.ev.queue else s)
    else s.beginPacket s.m.ev.queue 3 fun s q bs =>
      match s.counterUpdate (.signal q.num) q.ctx (fieldAt bs 8 8) (fieldAt bs 0x18 1 == 1) (dwordField bs 0x10) false with
      | (true, s) => s.updQueue q.num fun q => { q with begun := some bs, performed := false }
      | (false, s) => s.queueError q.num)

/-! ## SNAPSHOT (R409, R410) -/

/-- A begun SNAPSHOT or TRACE_CLOSE whose writes have been performed, with the records of the context's sessions (R282, R415). -/
def State.written (s : State) (q : Queue) : Bool :=
  q.st == .active && (s.m.queues.all fun x => x.ctx != q.ctx || !s.unitBusy (.queue x.num)) && (match q.begun with
    | some bs => fieldAt bs 0 1 == 4 || fieldAt bs 0 1 == 6
    | none => false)

/-- A begun packet of the type that waits for its writes; it retires in the cycle after they are all performed, or denied. -/
def State.awaitWrites (s : State) (n : Nat) (bs : List Byte) : State := s.updQueue n fun q => { q with begun := some bs }

/-- FLAGS of a span header (R410). -/
def Span.flags (x : Span) (closed : Bool) : Nat := (if closed then 1 else 0) + (if x.horizon then 2 else 0)

/-- The open span of a context closes: CLOSED is set in its header. -/
def State.closeSpan (s : State) (ctx : Nat) (job : UnitJob) : State :=
  match (s.context ctx).span with
  | none => s
  | some x =>
    let s := (s.unitWrite ctx (x.buffer.toNat + 0x21) (bytesOfNat 1 (x.flags true)) job).2
    s.updContext ctx fun c => { c with span := none }

/-- A span opens: its sum is zero, and its header is written. -/
def State.openSpan (s : State) (ctx : Nat) (bs : List Byte) (job : UnitJob) : State :=
  let x : Span := { buffer := dwordField bs 8, size := fieldAt bs 0x10 8, records := 0, dropped := 0, sum := 0,
                    horizon := false }
  let header := bytesOfNat 8 s.m.cycle ++ bytesOfDword s.m.seq ++ bytesOfNat 4 (fieldAt bs 0x18 4)
    ++ bytesOfNat 4 (fieldAt bs 4 4) ++ bytesOfNat 8 0 ++ bytesOfNat 1 ctx ++ bytesOfNat 31 0
  let s := (s.unitWrite ctx x.buffer.toNat header job).2
  s.updContext ctx fun c => { c with span := some x }

/-- SNAPSHOT_PACKET (R282, R409): the spans change; with `ev.flag` the header has been written, and the packet retires. -/
def execSnapshotPacket (s : State) : Out :=
  let n := s.m.ev.queue
  .next (if s.m.ev.flag then (if s.written (s.queue n) then s.retirePacket n else s)
    else s.beginPacket n 4 fun s q bs =>
      ((s.closeSpan q.ctx (.queue n)).openSpan q.ctx bs (.queue n)).awaitWrites n bs)

/-! ## TRACE_OPEN and TRACE_CLOSE (R282, R288, R289) -/

/-- The open session of a number. -/
def Context.trace? (c : Context) (sid : Nat) : Option Trace := c.traces.find? (·.id == sid)

/-- TRACE_OPEN_PACKET (R282). -/
def execTraceOpenPacket (s : State) : Out :=
  .next (s.beginPacket s.m.ev.queue 5 fun s q bs =>
    let sid := fieldAt bs 0x18 1
    match (s.context q.ctx).trace? sid with
    | some _ => s.queueError q.num
    | none =>
      let x : Trace := { id := sid, buffer := dwordField bs 8, size := fieldAt bs 0x10 8,
                         mask := BitVec.ofNat 32 (fieldAt bs 0x19 1), records := 0, dropped := 0, corr := packetCorr bs,
                         queue := q.num }
      (s.updContext q.ctx fun c => { c with traces := c.traces ++ [x] }).retirePacket q.num)

/-- TRACE_CLOSE_PACKET (R282, R288): the records that stand before it are written, and then the trailer; with `ev.flag` it has
been written, and the packet retires. The records of a session are writes of the queue that opened it. -/
def execTraceClosePacket (s : State) : Out :=
  let n := s.m.ev.queue
  .next (if s.m.ev.flag then (if s.written (s.queue n) then s.retirePacket n else s)
    else s.beginPacket n 6 fun s q bs =>
      let s := s.flushTraces
      match (s.context q.ctx).trace? (fieldAt bs 0x18 1) with
      | some x => (s.closeTrace q.ctx x false).awaitWrites n bs
      | none => s.queueError n)

/-! ## Doorbells (R279) -/

/-- The context of a queue holds its work back (R273). -/
def Context.holds (c : Context) : Bool := c.st == .saving || c.st == .saved || c.st == .restoring

/-- A write of t to the doorbell of a queue: only TAIL changes while the context is SAVING, SAVED or RESTORING (R273, R288). -/
def State.ring (s : State) (n t : Nat) : State :=
  let q := s.queue n
  let size := 2 ^ q.ringlog2
  let steps := fun (a b : Nat) => (a % size + size - b % size) % size
  let refused := size ≤ t || q.devpost || q.st == .disabled || q.st == .resetting
    || steps (q.head + size - 1) q.tail < steps t q.tail
  if refused then s.updQueue n fun q => { q with err := 3 }
  else
    let awake := !(s.context q.ctx).holds
    (s.updQueue n fun q => { q with tail := t, st := if awake && q.st == .idle && t != q.tail then .active else q.st
      }).writeQueueIndices n

/-- The queues of a context that is ACTIVE again take up what was posted to them meanwhile (R273). -/
def State.wakeQueues (s : State) (ctx : Nat) : State :=
  let mine := fun (q : Queue) => q.ctx == ctx && q.st == .idle && q.head != q.tail
  let wake : Queue → Queue := fun q => { q with st := .active }
  s.modify fun m => { m with queues := updBy mine wake m.queues }

/-- DOORBELL (R279): queue `ev.queue`, value `ev.x`. -/
def execDoorbell (s : State) : Out := .next (s.ring s.m.ev.queue s.m.ev.x.toNat)

/-! ## QCTL (R278, R288) -/

/-- A command that the state does not allow. -/
def State.queueRefuse (s : State) (n e : Nat) : State := s.updQueue n fun q => { q with err := e }

/-- The descriptor of a queue is valid (R278). -/
def State.queueDescGood (s : State) (bs : List Byte) : Bool :=
  let b := fun (off : Nat) => fieldAt bs off 1
  let base := fieldAt bs 0 8
  base < 2 ^ 57 && base % 4096 == 0 && 4 ≤ b 8 && b 8 ≤ 16 && b 9 < 4 && b 0x0A < 64 && b 0x0B < 2
    && fieldAt bs 0x0C 4 == 0 && zeroFrom bs 0x18 && (s.context (b 0x0A)).st != .free

/-- QUEUE_CREATE (R288): queue `ev.queue`. -/
def execQueueCreate (s : State) : Out :=
  let n := s.m.ev.queue
  let bs := s.unitBytes (s.queueDesc n) 64
  let b := fun (off : Nat) => fieldAt bs off 1
  .next (if (s.queue n).st != .disabled then s.queueRefuse n 2
    else if !s.queueDescGood bs then s.queueRefuse n 1
    else (s.updQueue n fun q =>
      { q with st := .idle, ringbase := dwordField bs 0, ringlog2 := b 8, prio := b 9, ctx := b 0x0A,
               devpost := b 0x0B == 1, head := 0, tail := 0, begun := none, notified := [], performed := false,
               asked := none, answer := none }).writeQueueIndices n)

/-- Entry to RESETTING (R288): packets not begun are discarded, and the queue's kernels end. -/
def State.resetQueue (s : State) (n : Nat) : State :=
  let stop : Queue → Queue := fun q =>
    { q with st := .resetting, head := q.tail, begun := none, notified := [], asked := none, answer := none }
  let s := (s.updQueue n stop).writeQueueIndices n
  (s.m.kernels.filter fun k => k.queue == n).foldl (fun s k => s.killKernel k Cause.queueReset) s

/-- A request changes a counter for a SIGNAL of the queue, or for the completion of one of its kernels. -/
def HomeReq.ofQueue (r : HomeReq) (n : Nat) : Bool :=
  match r.back with
  | .counter (.signal q) .. | .counter (.completion q) .. => q == n
  | _ => false

/-- The actions of a reset so far are complete (R288): its kernels have ended, and their completions and what the queue writes
have been performed. -/
def State.resetDone (s : State) (q : Queue) : Bool :=
  q.st == .resetting && s.launchesEnded q.num && (s.m.kernels.all fun k => k.queue != q.num || k.due.isNone)
    && !(s.requests.any (·.ofQueue q.num)) && !s.unitBusy (.queue q.num)

/-- The open trace sessions that a queue opened. -/
def State.ownTraces (s : State) (ctx n : Nat) : List Trace := (s.context ctx).traces.filter (·.queue == n)

/-- The trace sessions that a queue opened close truncated, behind the records that stand before them (R288, R289). -/
def State.closeTraces (s : State) (ctx n : Nat) : State :=
  let s := s.flushTraces
  (s.ownTraces ctx n).foldl (fun s x => s.closeTrace ctx x true) s

/-- The end of a reset: the queue's trace sessions close truncated, and once their trailers are written the queue is IDLE. -/
def State.endReset (s : State) (n : Nat) : State :=
  let q := s.queue n
  if !s.resetDone q then s
  else if (s.ownTraces q.ctx n).isEmpty then s.updQueue n fun q => { q with st := .idle }
  else s.closeTraces q.ctx n

/-- QUEUE_RESET (R288): the command, or with `ev.flag` the end of a reset, of queue `ev.queue`. -/
def execQueueReset (s : State) : Out :=
  let n := s.m.ev.queue
  .next (if s.m.ev.flag then s.endReset n
    else match (s.queue n).st with
      | .idle | .active | .blocked | .error => s.resetQueue n
      | _ => s.queueRefuse n 2)

/-- QUEUE_DESTROY (R288): queue `ev.queue`. CTX and DEVPOST stay as the last create left them, so that `qpost` finds the queue
DISABLED and still its context's own (R287; DESIGN CHOICE, log entry 128). -/
def execQueueDestroy (s : State) : Out :=
  let n := s.m.ev.queue
  .next (match (s.queue n).st with
    | .idle | .error => s.updQueue n fun q => { q with st := .disabled }
    | _ => s.queueRefuse n 2)

/-! ## qpost and qsig (R286, R287) -/

/-- qpost in one thread. It waits for the thread's own writes to the scratchpad, since it reads the packet at its issue (R142);
the ring write is an operation of class I/O until it is performed (R172, R458). -/
def State.posts (s : State) (c : Code) (t : Thread) : State :=
  if t.fenced classIo || t.storing then s
  else match s.memAddr c t 1 64, s.teamOf t with
  | .error e, _ => s.raiseAt t c e
  | .ok a, some x =>
    let n := ((s.lane c t).word c.fields.b).toNat
    let q := s.queue n
    if 1023 < n || q.ctx != s.ctxOf t.ref.kid || !q.devpost then
      s.raiseAt t c { cause := Cause.perm, addr := BitVec.ofNat 64 n }
    else match s.winPoisoned (hsAddr x a) 64 with
      | some u => s.raiseAt t c { cause := Cause.memError, addr := BitVec.ofNat 64 u }
      | none =>
        let done := fun (s : State) (p : Bool) => s.updThread t.ref fun t => (t.setPred (predOf c.fields.d) p).finish c
        let tail := (q.tail + 1) % 2 ^ q.ringlog2
        if q.st == .disabled || q.st == .resetting || q.st == .error || tail == q.head then done s false
        else
          let (tok, s) := (s.activity t.ref.kid 3 1).newId
          match s.unitWrite q.ctx (q.ringbase.toNat + 64 * q.tail) (s.winRead (hsAddr x a) 64) (.post t.ref tok) with
          | (false, s) => done s false
          | (true, s) =>
            let s := s.updThread t.ref fun t => { t with out := t.out ++ [{ tok := tok, classes := classIo }] }
            done ((s.updQueue n fun q => { q with tail := tail, st := if q.st == .idle then .active else q.st
              }).writeQueueIndices n) true
  | .ok _, none => s

/-- qsig in one thread: a relaxed addition at the counter's home. -/
def State.signals (s : State) (c : Code) (t : Thread) : State :=
  let f := c.fields
  let x := (s.lane c t).dword f.b
  if t.fenced classIo then s
  else match s.memAddr c t 0 8 with
    | .error e => s.raiseAt t c e
    | .ok a => s.access c t { space := 0, ea := a, size := 8, op := .atomic 0 Ty.n64 x 0 .rne, scope := 4,
                              classes := classIo }

/-- QPOST (R287). -/
def execQpost (o : Ext) (s : State) : Out := .next (s.run (.ext 0x7B o) fun s t => s.posts (.ext 0x7B o) t)
/-- QSIG (R287). -/
def execQsig (o : Ext) (s : State) : Out :=
  .next (s.runAccess (.ext 0x7C o) false fun s t => s.signals (.ext 0x7C o) t)

end Sys2Proof.Machine
end

