-- ==== Sys2Proof/Machine/Message.lean ====
section
/-! DEFINITION. The rows in which a message arrives at a hub or a home slice, and the completions of releases,
promotions and generation bumps (R147 to R154, R161, R162, R192, R194, R214, R221, R457). The message is the one of
number `ev.id`. -/

namespace Sys2Proof.Machine

/-- Acts on the message of the event, if it is still in flight. -/
def State.onMessage (s : State) (act : State → Msg → State) : Out :=
  .next (match s.takeFlight s.m.ev.id with
    | (some f, s') => act s' f.msg
    | (none, _) => s)

/-! ## At the hub -/

/-- L1_FILL_RETURN (R150). -/
def execL1FillReturn (s : State) : Out :=
  s.onMessage fun s msg => match msg with
    | .l1Fill hub place line req d => s.l1Fill hub place line req d
    | _ => s

/-- WRITE_BACK_ACK (R147, R192); one for another module leaves through its port. -/
def execWriteBackAck (s : State) : Out :=
  s.onMessage fun s msg => match msg with
    | .wbAck hub place line k v => s.writeBackAcked hub place line k v
    | .fabricAck src tag v => s.fabricAcked src tag v
    | _ => s

/-- RELEASE_ACCESS_ACK (R162): the home's answer to an access that was performed there. -/
def execReleaseAccessAck (s : State) : Out :=
  s.onMessage fun s msg => match msg with
    | .accessAck a x v p => s.accessAcked a x v p
    | _ => s

/-- TACK_REPLY (R194). -/
def execTackReply (s : State) : Out :=
  s.onMessage fun s msg => match msg with
    | .tackReply hub core tok ok => s.tackReply hub core tok ok
    | _ => s

/-- PROMOTION_REQUEST (R221): the hub performs the write-back of R148 as a device-scope release. -/
def execPromotionRequest (s : State) : Out :=
  s.onMessage fun s msg => match msg with
    | .promoteReq home req hub => s.startRelease hub (.promote home req)
    | _ => s

/-- CURRENT_GENERATION_BUMP (R151) in hub `ev.hub`. -/
def execCurrentGenerationBump (s : State) : Out := .next (s.bumpOnce s.m.ev.hub)

/-! ## Releases (R148, R162, R173, R218, R304) -/

/-- What goes on when a release has completed. An access of a scratchpad enters its core's port (R167). -/
def State.released (s : State) (hub : Nat) : RelCont → State
  | .thread t => s.updThread t fun t => { t with rel := false }
  | .fence t tok => match (s.thread? t).bind fun t => t.fences.find? (·.tok == tok) with
    | some f => s.fenceAcquire hub t f
    | none => s
  | .access a => if a.scratch then (s.retryHeld hub).updHub hub (·.enterPort a) else ((s.sample a).present a).retryHeld hub
  | .promote home req => s.send .toHome (.promoteAck home req hub)
  | .kernelEnd kid => s.updKernel kid fun k => { k with endRel := k.endRel.filter (· != hub) }

/-- RELEASE_WRITE_BACK_COMPLETE (R148): release `ev.id` of hub `ev.hub`, once its write-backs are acknowledged. -/
def execReleaseWriteBackComplete (s : State) : Out :=
  let e := s.m.ev
  let h := s.hub e.hub
  .next (match h.releases.find? fun r => r.id == e.id && r.taken && r.waits.isEmpty with
    | some r => (s.setHub { h with releases := h.releases.filter (·.id != e.id) }).released e.hub r.cont
    | none => s)

/-! ## At the home slice -/

/-- What a message of the logs does takes none of the run's numbers; what another does takes them. -/
def State.numbered (s : State) (act : State → State) : State :=
  if logBase ≤ s.m.ev.id then s.apart act else act s

/-- HOME_SLICE_ACCESS (R214): a request that arrives, or one that the home held and that is ready. -/
def execHomeSliceAccess (s : State) : Out :=
  let act := fun (s : State) => match s.takeFlight s.m.ev.id with
    | (some f, s') => (match f.msg with
      | .home r => s'.arriveHome r
      | _ => s')
    | (none, _) => s.arriveHeld s.m.ev.id
  .next (s.numbered act)

/-- L2_FILL (R457): a line from memory, or a replica from its home. -/
def execL2Fill (s : State) : Out :=
  s.onMessage fun s msg => s.numbered fun s => match msg with
    | .l2Fill slice line => s.l2FillDone slice line
    | .replicaFill slice line kid d => s.replicaArrives slice line kid d
    | _ => s

/-- WRITER_NOTICE (R153). -/
def execWriterNotice (s : State) : Out :=
  s.onMessage fun s msg => match msg with
    | .notice hub pa => s.writerNotice hub pa
    | _ => s

/-- TACK_CHECK (R194). -/
def execTackCheck (s : State) : Out :=
  s.onMessage fun s msg => match msg with
    | .check c => s.tackCheck c
    | _ => s

/-- A held request loses one of the acknowledgements it waits for. -/
def HeldReq.invAcked (h : HeldReq) (line die : Nat) : HeldReq :=
  match h.why with
  | .invalidate ds => if lineOf h.req.pa == line then { h with why := .invalidate (ds.filter (· != die)) } else h
  | _ => h

/-- REPLICA_INVALIDATION_ACK (R154, R457): with the last acknowledgement the write goes on, or the line is evicted. -/
def execReplicaInvalidationAck (s : State) : Out :=
  s.onMessage fun s msg => match msg with
    | .invAck _ line die =>
      let s := s.modify fun m => { m with l2held := m.l2held.map (·.invAcked line die) }
      (s.resumeHeld fun h => h.why == .invalidate [] && lineOf h.req.pa == line).evictionAcked line die
    | _ => s

/-- A promotion of a held request loses a hub; a promotion that is complete clears MULTI, and its request no longer
promotes (R221). -/
def State.promoted (s : State) (req hub : Nat) : State :=
  let drop : HeldReq → HeldReq := fun h => match h.why with
    | .promote ws =>
      if h.req.id == req then { h with why := .promote (ws.filter (· != hub)) } else h
    | _ => h
  let s := s.modify fun m => { m with l2held := m.l2held.map drop }
  let ready := fun (h : HeldReq) => h.why == .promote [] && h.req.id == req
  let lines := (s.m.l2held.filter ready).map fun h => lineOf h.req.pa
  let clear : L2Line → L2Line := fun l => { l with multi := false }
  let s := s.modify fun m =>
    { m with
      l2 := updBy (fun l => l.home && lines.contains l.pa) clear m.l2
      l2held := updBy ready (fun h => { h with req := { h.req with rmt := false } }) m.l2held }
  s.resumeHeld ready

/-- A fence that promotes loses a hub; with the last one its acquire part goes on (R161). -/
def State.fencePromoted (s : State) (asker tok hub : Nat) : State :=
  let step := fun (s : State) (t : Thread) => match t.fences.find? (·.tok == tok) with
    | none => s
    | some f =>
      let f := { f with promotions := f.promotions.filter (· != hub) }
      let s := s.updFence t.ref tok fun _ => f
      if f.promotions.isEmpty && f.stage == .promoting then s.fenceBump asker t.ref f else s
  s.m.threads.foldl step s

/-- PROMOTION_ACKNOWLEDGEMENT (R221). -/
def execPromotionAcknowledgement (s : State) : Out :=
  s.onMessage fun s msg => match msg with
    | .promoteAck home req hub => if home < 128 then s.promoted req hub else s.fencePromoted (home - 128) req hub
    | _ => s

end Sys2Proof.Machine
end

