-- ==== Sys2Proof/Machine/Wake.lean ====
section
/-! DEFINITION. The wake of a parked thread (R59, R156, R179, R204, R263, R305, R306, R316, R327, R355, R358,
R363). -/

namespace Sys2Proof.Machine

/-- Every live thread of the gang stands at a `gsync` with its results returned (R358). -/
def State.gangAtSync (s : State) (g : GangRef) : Bool :=
  (s.gangThreads g).all fun t => t.wait == .gsync && !t.halted && t.allReturned

/-- The condition of a parked thread's reason holds. Waits that another row ends are not listed here: a grant of
blocks, a resample and a translation. A handler entry that a halt finds under way still takes place (R263, R271). -/
def State.wakeable (s : State) (t : Thread) : Bool :=
  let parked := match t.st with
    | .parked _ => match t.wait with
      | .trap .. => true
      | _ => !t.halted
    | _ => false
  parked && match t.wait with
    | .none | .present | .exit | .tret | .trap .. => t.allReturned
    | .acquire toks => toks.isEmpty && t.allReturned
    | .bar n phase _ => t.allReturned && (match s.teamOf t with
      | some x => (x.bar n).phase != phase
      | none => false)
    | .gsync => s.gangAtSync t.ref.gangRef
    | .tb off phase => t.allReturned && (match s.teamOf t with
      | some x => (s.transBarrier x off).phase != phase
      | none => false)
    | .tackChk .. => tackOut t.tackst == 0 && t.allReturned
    | .lkwait since => t.allReturned && s.lockFree t since
    | .gridsync _ | .translation | .xacq | .rsmp => false

/-- Commits and returns to the issuing state. -/
def Thread.commitWake (t : Thread) : Thread := t.commitAll.wake

/-- A parked thread whose condition holds goes on. -/
def State.wakeThread (s : State) (t : Thread) : State :=
  match t.wait with
  | .gsync =>
    s.modify fun m => { m with threads := updBy (·.ref.gangRef == t.ref.gangRef) (·.commitWake) m.threads }
  | .bar n _ _ => s.setThread { t.commitWake with arr := t.arr &&& ~~~(1#16 <<< n) }
  | .tackChk target next => s.setThread (t.tackChecked target next).wake
  | .exit => (s.setThread t.commitAll).endThread t.commitAll false
  | .tret => s.setThread t.commitAll.tret
  | .trap x detail since => s.enterHandler t x detail since
  | _ => s.setThread t.commitWake

/-- THREAD_WAKE (R305): thread `ev.thread`. -/
def execThreadWake (s : State) : Out :=
  .next (match s.thread? s.m.ev.thread with
    | some t => if s.wakeable t then s.wakeThread t else s
    | none => s)

end Sys2Proof.Machine
end

