-- ==== Sys2Proof/Machine/Picker.lean ====
section
/-! DEFINITION. The fetch of an instruction and the picker (R21, R47, R62, R71, R121, R274, R293, R306, R309 to
R312). -/

namespace Sys2Proof.Machine

/-! ## Fetch (R121, R293) -/

/-- What stands at the address of a code word. -/
inductive CodeWord where
  | wait
  | bad (cause : Nat)
  /-- the words a fetch may return, the word in memory first; none: in another owner's memory -/
  | words (l : List Word)
deriving DecidableEq, Repr

/-- The words that a fetch of a kernel's thread may return: the one in memory, and those fetched there before
(R293). -/
def State.codeWord (s : State) (hub core ctx kid va : Nat) : CodeWord :=
  match s.xlat hub core ctx va with
  | .wait => .wait
  | .denied => .bad Cause.addr
  | .hit e =>
    if !e.x then .bad Cause.perm
    else if e.place != .here then .words []
    else
      let new := BitVec.ofNat 32 (natOfBytes (s.homeRead (e.target va) 4))
      let old := match s.kernel? kid with
        | some k => (k.fetched.filter fun f => f.1 == va && f.2 != new).map (·.2)
        | none => []
      .words (new :: old)

/-- One of some words, as the spec leaves open. -/
def State.pickWord (s : State) : List Word → Word × State
  | [] => (0, s)
  | [x] => (x, s)
  | x :: rest =>
    let (n, s) := s.drawFree
    if Config.freeBit n then (x, s) else s.pickWord rest

/-- A word the spec leaves open: it stands in another owner's memory. -/
def State.openWord (s : State) : Word × State :=
  let (bs, s) := s.freeBytes 4
  (wordField bs 0, s)

/-- How the fetch of words ends: all of them, a wait on the address, or a fault at it after the words before. -/
inductive Fetched where
  | all (ws : List Word)
  | wait (va : Nat)
  | bad (cause : Nat) (addr : Nat) (ws : List Word)
deriving DecidableEq, Repr

/-- Notes a fetched word of a kernel. -/
def State.noteFetch (s : State) (kid va : Nat) (w : Word) : State :=
  match s.kernel? kid with
  | some k => if k.fetched.contains (va, w) then s
    else s.updKernel kid fun k => { k with fetched := k.fetched ++ [(va, w)] }
  | none => s

/-- Fetches words one after the other: each with its address and the address a fault reports. -/
def State.fetchWords (s : State) (hub core ctx kid : Nat) : List (Nat × Nat) → List Word → Fetched × State
  | [], ws => (.all ws, s)
  | (va, at_) :: rest, ws => match s.codeWord hub core ctx kid va with
    | .wait => (.wait va, s)
    | .bad cause => (.bad cause at_ ws, s)
    | .words l =>
      let (w, s) := if l.isEmpty then s.openWord else s.pickWord l
      ((s.noteUse hub core ctx va).noteFetch kid va w).fetchWords hub core ctx kid rest (ws ++ [w])

/-- An address of the 57-bit space. -/
def wrap57 (a : Nat) : Nat := a % 2 ^ 57

/-- The words after word 0: those of the extended form, and the literal, which faults at its first byte (R47, R121). -/
def laterWords (w0 : Word) (pc : Nat) : List (Nat × Nat) :=
  let k := literalAt w0
  (if isExt w0 then [(wrap57 (pc + 4), wrap57 (pc + 4)), (wrap57 (pc + 8), wrap57 (pc + 8))] else [])
    ++ (if hasLit w0 then [(wrap57 (pc + k), wrap57 (pc + k)), (wrap57 (pc + k + 4), wrap57 (pc + k))] else [])

/-- Fetches the instruction at an address for a thread of a gang. -/
def State.fetchAt (s : State) (g : Gang) (pc : Nat) : Fetched × State :=
  let ctx := s.ctxOf g.ref.kid
  match s.fetchWords g.hub g.core ctx g.ref.kid [(pc, pc)] [] with
  | (.all (w0 :: _), s) => s.fetchWords g.hub g.core ctx g.ref.kid (laterWords w0 pc) [w0]
  | r => r

/-- The instruction at an address, when its fetch neither waits nor faults: the words that a packet issued now fetches. -/
def State.peek (s : State) (g : Gang) (pc : Nat) : Option Instr :=
  match (s.fetchAt g pc).1 with
  | .all ws => match decodeList ws with
    | .ok i => some i
    | .illegal .. => none
  | _ => none

/-! ## Readiness (R306, R311) -/

/-- The thread stands as it was. -/
def State.unmoved (s : State) (t : Thread) : Bool := s.thread? t.ref == some t

/-- The classes of operations an instruction performs whatever its address (R172, R458). -/
def Code.fenceClasses (c : Code) : Nat :=
  match c.fields.op.toNat with
  | 0x42 | 0x43 | 0x59 | 0x5B => classWrite
  | 0x44 | 0x58 | 0x63 | 0x6B => classRead
  | 0x5A => classRead + classWrite
  | 0x60 | 0x61 => classCopy
  | 0x6A => if condOf c.fields < 3 then classRead + classWrite else classRead
  | 0x75 | 0x76 | 0x77 | 0x78 | 0x79 | 0x7A => classMatrix
  | 0x7B | 0x7C => classIo
  | _ => 0

/-- A fence of the thread holds the instruction, which is then not ready whatever else it would do (R173, R458). -/
def State.fenceHeld (s : State) (c : Code) (t : Thread) : Bool :=
  t.fenced (Code.fenceClasses c) || (c.fields.op == 0x6D && (s.spawnCounter c t).isSome && t.fenced (classRead + classWrite))

/-- The thread's next instruction waits on a resource or on its own earlier accesses (R143, R162, R173, R187, R188,
R236, R243, R321). Where its meaning leaves the thread as it stands, it waits. -/
def State.starved (s : State) (c : Code) (t : Thread) : Bool :=
  if !guardTrue c.fields t then false
  else if s.fenceHeld c t then true
  else if s.outOfRange c t || Code.barred c t || (s.poisonRead c t).isSome then false
  else match c.fields.op.toNat with
    | 0x42 => (s.calls c t (relTarget c.fields t.pc)).unmoved t
    | 0x43 => (s.callsTo c t).unmoved t
    | 0x44 => (s.returns c t).unmoved t
    | 0x45 => t.outstanding
    | 0x58 => (s.loads c t).unmoved t
    | 0x59 => (s.stores c t).unmoved t
    | 0x5A | 0x5B => (s.atomics c t).unmoved t
    | 0x60 => (s.copies c t).unmoved t
    | 0x5F => t.sfenceWait.isSome
    | 0x63 => (s.tackLoads c t).unmoved t
    | 0x68 | 0x6C | 0x70 => t.outstanding
    | 0x69 => condOf c.fields != 1 && t.outstanding
    | 0x6A => if condOf c.fields < 3 then condOf c.fields == 1 && t.outstanding else t.tbHeld
    | 0x6B => t.storing
    | 0x6D => !s.badSpawn c t && (s.spawns c t).unmoved t
    | 0x75 => !s.badSignature c t && (s.signs c t).unmoved t
    | 0x76 | 0x77 | 0x78 | 0x79 | 0x7A =>
      let op : EngineOp := if c.fields.op != 0x78 then .mzero else if c.fields.sub.getLsbD 0 then .mstRegs else .mstScratch
      ((s.modify fun m => { m with packet := [t.ref] }).engineOp c op).unmoved t
    | 0x7B => (s.posts c t).unmoved t
    | _ => false

/-- An issuing thread without a wait of its own (R306). -/
def State.unhindered (s : State) (t : Thread) : Bool :=
  t.issuing && t.skip == 0 && t.retWait.isNone && !s.piecesWait t

/-- The thread is ready (R311). -/
def State.ready (s : State) (g : Gang) (t : Thread) : Bool :=
  s.unhindered t && match (s.peek g t.pc.toNat).bind (·.code) with
    | some c => !s.starved c t
    | none => true

/-! ## The picker (R309 to R312) -/

/-- The gangs of a quarter. -/
def State.quarterGangs (s : State) (q : QRef) : List Gang :=
  sortKey (fun (g : Gang) => [g.slot])
    (s.m.gangs.filter fun g => g.hub == q.hub && g.core == q.core && g.quarter == q.quarter)

/-- The priority of a gang (R309). -/
def State.priority (s : State) (g : Gang) : Nat :=
  match s.launch? g.ref.kid with
  | some l => 4 * l.prio + ((l.roles[g.role]?).map (·.prio)).getD 0
  | none => 0

/-- A gang with its ready threads, lowest lane first. -/
abbrev ReadyGang := Gang × List Thread

/-- The gangs that hold a ready thread. -/
def State.readyGangs (s : State) (q : QRef) : List ReadyGang :=
  ((s.quarterGangs q).map fun g =>
    (g, sortKey (fun (t : Thread) => [t.ref.lane]) ((s.gangThreads g.ref).filter fun t => s.ready g t))).filter
      fun x => !x.2.isEmpty

/-- The leader (R311). -/
def State.leader (s : State) (e : List ReadyGang) : Option ReadyGang :=
  let u := e.filter fun x => x.1.waitCount == 1024
  let top := e.foldl (fun n x => Nat.max n (s.priority x.1)) 0
  let cand := if u.isEmpty then e.filter fun x => s.priority x.1 == top else u
  leastBy (fun (x : ReadyGang) => [x.1.led, x.1.slot]) cand

/-- The program counter of the packet (R311). -/
def packetStart (ts : List Thread) : Dword :=
  match ts.find? (·.pass == 256) with
  | some t => t.pc
  | none => BitVec.ofNat 64 (ts.foldl (fun n t => Nat.min n t.pc.toNat) (2 ^ 57))

/-- The threads drafted into the empty columns of a packet (R311, R312). -/
def drafted (e : List ReadyGang) (lead : Gang) (pc : Dword) (pkt : List Thread) : List Thread :=
  let others := sortKey (fun (x : ReadyGang) => [(x.1.slot + 31 - lead.slot) % 32])
    (e.filter fun x => x.1.ref.kid == lead.ref.kid && x.1.ref != lead.ref)
  (List.range 32).filterMap fun c =>
    if pkt.any (·.ref.lane == c) then none
    else others.findSome? fun x => x.2.find? fun t => t.ref.lane == c && t.pc == pc

/-- A debug halt that has reached the quarter holds the threads formed there since (R274, R328), and breakpoints halt the
threads that would issue at them; after a `ret` a thread has an address to issue at when the read has returned (R124). -/
def State.breakHalts (s : State) (q : QRef) : State :=
  (s.quarterGangs q).foldl (fun s g =>
    let c := s.context (s.ctxOf g.ref.kid)
    if !c.session || (c.breakpoints.isEmpty && c.halts.isEmpty) then s
    else
      let stop : Thread → Thread := fun t =>
        if t.halt.isNone && s.bornHalted t.ref q then { t with halt := some .debug }
        else if t.issuing && t.retWait.isNone && !t.stepOver && c.breakpoints.any (·.addr == t.pc) then
          { t with halt := some .breakpoint }
        else t
      s.modify fun m => { m with threads := updBy (·.ref.gangRef == g.ref) stop m.threads }) s

/-- The threads that sit out the tick come one tick nearer (R126, R268). -/
def State.countSkips (s : State) (q : QRef) : State :=
  let less : Thread → Thread := fun t => { t with skip := t.skip - 1 }
  (s.quarterGangs q).foldl (fun s g => s.modify fun m =>
    { m with threads := updBy (fun t => t.ref.gangRef == g.ref && t.skip != 0) less m.threads }) s

/-- A packet is issued: its threads stand by for the next step. -/
def State.issuePacket (s : State) (lead : Gang) (pc : Dword) (pkt : List Thread) (nDrafted : Nat) : State :=
  let order := sortKey (fun (t : Thread) => [t.ref.lane]) pkt
  let s := ((s.count lead.hub 1 1).count lead.hub 2 pkt.length).count lead.hub 3 nDrafted
  let s := (s.activity lead.ref.kid 0 1).activity lead.ref.kid 1 pkt.length
  let clear : Thread → Thread := fun t => { t with pass := 0, pstepWait := none }
  s.modify fun m =>
    { m with packet := order.map (·.ref), packetPc := pc, packetDenied := none
             threads := updBy (fun t => pkt.any (·.ref == t.ref)) clear m.threads }

/-- The instruction of a packet is not at hand: its threads wait for the translation of its address, and issue when they are
READY again. Nothing has issued, so nothing is counted (DEDUCED, log entry 131). -/
def State.awaitFetch (s : State) (lead : Gang) (pkt : List Thread) (va : Nat) : State :=
  (sortKey (fun (t : Thread) => [t.ref.lane]) pkt).foldl (fun s t => (s.updThread t.ref fun t => { t with pass := 0 }).awaitXlat
    lead.hub lead.core (s.ctxOf t.ref.kid) va t.ref t.pc { r := false, w := false, x := true }) s

/-- One issue tick of a quarter (R311). -/
def State.tick (s : State) (q : QRef) : State :=
  let s := s.breakHalts q
  let e := s.readyGangs q
  match s.leader e with
  | none => s.countSkips q
  | some (lead, ts) =>
    let pc := packetStart ts
    let got := (s.fetchAt lead pc.toNat).1
    let own := ts.filter (·.pc == pc)
    let safe := match (s.peek lead pc.toNat).bind (·.code) with
      | some c => c.draftSafe
      | none => false
    let more := if safe then drafted e lead pc own else []
    let pkt := own ++ more
    let s := s.countSkips q
    let left := (e.flatMap (·.2)).filter fun t => !pkt.any (·.ref == t.ref)
    let s := s.count q.hub 15 (if left.isEmpty then 0 else 1)
    let passed : Thread → Thread := fun t => { t with pass := Nat.min (t.pass + 1) 256 }
    let s := s.modify fun m =>
      { m with threads := updBy (fun t => ts.any (·.ref == t.ref) && !pkt.any (·.ref == t.ref)) passed m.threads }
    let now := s.m.cycle
    let stamp : Gang → Gang := fun g =>
      if g.ref == lead.ref then { g with waitCount := 0, led := now }
      else { g with waitCount := Nat.min (g.waitCount + 1) 1024 }
    let s := s.modify fun m => { m with gangs := updBy (fun g => e.any (·.1.ref == g.ref)) stamp m.gangs }
    match got with
    | .wait va => s.awaitFetch lead pkt va
    | _ => s.issuePacket lead pc pkt more.length

/-- A packet that waited for a translation goes on as the standing packet; a halted thread of it waits to be resumed. The
threads of a fetch are READY. -/
def State.takeResume (s : State) (r : Resume) : State :=
  let mine := fun (t : Thread) => r.threads.contains t.ref && t.wait == .translation
  let go := (s.m.threads.filter fun t => mine t && !t.halted).map (·.ref)
  let s := s.modify fun m => { m with threads := updBy mine (·.wake) m.threads, resumes := m.resumes.erase r }
  if r.fetch then s
  else s.modify fun m =>
    { m with packet := sortKey (fun (t : ThreadRef) => [t.lane]) go, packetPc := r.pc, packetDenied := r.denied }

/-- A packet that goes on in this cycle. -/
def State.dueResumes (s : State) : List Resume := s.m.resumes.filter (·.at_ ≤ s.m.cycle)

/-- PICKER_TICK (R311) in quarter `ev.hub`, `ev.core`, `ev.quarter`, once in a cycle; with `ev.flag` the packet of thread
`ev.thread` goes on after its translation (R375). -/
def execPickerTick (s : State) : Out :=
  let q : QRef := { hub := s.m.ev.hub, core := s.m.ev.core, quarter := s.m.ev.quarter }
  .next (if s.m.ev.flag then match s.dueResumes.find? (·.threads.head? == some s.m.ev.thread) with
      | some r => s.takeResume r
      | none => s
    else (s.modify fun m => { m with ticked := m.ticked ++ [q] }).tick q)

/-- A cadence takes effect at the start of a window (R21). -/
def Quarter.takeCadence (q : Quarter) : Quarter :=
  { q with cadence := q.pending.getD q.cadence, pending := none }

/-- CADENCE_TAKES_EFFECT (R21) in the quarter of the operands. -/
def execCadenceTakesEffect (s : State) : Out :=
  .next (s.updQuarter { hub := s.m.ev.hub, core := s.m.ev.core, quarter := s.m.ev.quarter } (·.takeCadence))

/-! ## The standing packet -/

/-- A fetch fault in the packet (R121). -/
def State.fetchFault (s : State) (cause addr : Nat) (ws : List Word) : State :=
  let word := fun (i : Nat) => if i == 0 || isExt (ws.getD 0 0) then ws.getD i 0 else 0
  s.eachThread fun s t => s.trap t.ref
    { cause := BitVec.ofNat 32 cause, pc := t.pc, addr := BitVec.ofNat 64 addr, word0 := word 0, word1 := word 1,
      word2 := word 2, word3 := 0, fld := 0 } 0

/-- Words that do not decode (R70, R71). -/
def State.illegal (s : State) (ws : List Word) (why : Illegal) : State :=
  let k := if isExt (ws.getD 0 0) then 3 else 1
  let c := formOfWords (ws.getD 0 0) (ws.getD 1 0) (ws.getD 2 0) (pair (ws.getD k 0) (ws.getD (k + 1) 0))
  let e : Raise := match why with
    | .op => { cause := Cause.illegalOp }
    | .field b => { cause := Cause.illegalField, badf := b }
  s.eachThread fun s t => s.raiseAt t c e

/-- The packet has issued: a thread that stepped over its breakpoint has done so (R274). -/
def State.endPacket (s : State) : State :=
  let ts := s.m.packet
  let stepped : Thread → Thread := fun t => { t with stepOver := false }
  s.modify fun m =>
    { m with packet := [], packetDenied := none
             threads := updBy (fun t => t.stepOver && ts.contains t.ref) stepped m.threads }

/-- What the standing packet does: an instruction, or the end of its fetch. -/
def State.decodePacket (s : State) : Except State (Instr × State) :=
  match (s.m.packet.head?.bind s.thread?).bind s.gangOf with
  | none => .error s.endPacket
  | some g => match s.fetchAt g s.m.packetPc.toNat with
    | (.wait va, s) => .error ((s.eachThread fun s t =>
        s.awaitXlat g.hub g.core (s.ctxOf t.ref.kid) va t.ref t.pc { r := false, w := false, x := true }).endPacket)
    | (.bad cause addr ws, s) => .error (s.fetchFault cause addr ws).endPacket
    | (.all ws, s) => match decodeList ws with
      | .ok i => .ok (i, s)
      | .illegal why _ => .error (s.illegal ws why).endPacket

end Sys2Proof.Machine
end

