-- ==== Sys2Proof/Machine/Population.lean ====
section
/-! DEFINITION. Population resampling: `rsmp`, the move and its completion (R29, R33, R43, R331 to R348). -/

namespace Sys2Proof.Machine

/-! ## FP64 (R337 to R339) -/

/-- FP64. -/
def fp64 : Fmt := { ebits := 11, frac := 52, bias := 1023 }
/-- An exact value rounded once into FP64, RNE. -/
def round64 (x : Fp) : Fp := fp64.value (fp64.encode false .rne 0 x).bits
def add64 (a b : Fp) : Fp := round64 (a.add .rne b)
def mul64 (a b : Fp) : Fp := round64 (a.mul b)
/-- A count as a value. -/
def Fp.nat (n : Nat) : Fp := .fin false n 0

/-- The rounded quotient of two finite values, b > 0: the discarded remainder stays visible as an odd last bit. -/
def div64 (a b : Fp) : Fp :=
  match a, b with
  | .fin na ma ea, .fin _ mb eb =>
    let k := 64 + Nat.log2 mb
    let q := ma * 2 ^ k / mb
    let sticky := if ma * 2 ^ k % mb == 0 then 0 else 1
    round64 (.fin na (2 * q + sticky) (ea - eb - k - 1))
  | _, _ => .nan

/-- The least integer that is not below a finite value. -/
def Fp.ceil : Fp → Int
  | .fin neg m e => if 0 ≤ e then signed neg m * (2 ^ e.toNat : Nat) else -((-signed neg m) / (2 ^ (-e).toNat : Nat))
  | _ => 0

/-! ## Weights, prefix sums and counts (R337 to R339) -/

/-- A weight that is NaN or below zero (R337). -/
def weightBad (w : Word) : Bool :=
  match f32 w with
  | .nan => true
  | .inf neg => neg
  | .fin neg m _ => neg && m != 0

/-- The sanitised weights (R337). -/
def sanitise (ws : List Word) : List Fp :=
  let some_ := ws.any fun w => f32 w == .inf false
  ws.map fun w =>
    if some_ then (if f32 w == .inf false then .nat 1 else .nat 0)
    else if weightBad w || (f32 w).isZero then .nat 0 else f32 w

/-- One level of the tree from the one below (R338). -/
def pairUp : List Fp → List Fp
  | a :: b :: rest => add64 a b :: pairUp rest
  | l => l

/-- The levels of the tree from the leaves up. -/
def treeLevels : Nat → List Fp → List (List Fp)
  | 0, l => [l]
  | h + 1, l => l :: treeLevels h (pairUp l)

/-- The height of the tree over n leaves. -/
def treeHeight (n : Nat) : Nat := if n ≤ 1 then 0 else Nat.log2 (n - 1) + 1

/-- c[i] (R338): the nodes that bits of m = i + 1 name, from the highest bit down. -/
def prefixAt (levels : List (List Fp)) (m : Nat) : Nat → Nat → Fp → Fp
  | 0, s, acc => if m % 2 == 1 then add64 acc ((levels.getD 0 []).getD s (.nat 0)) else acc
  | l + 1, s, acc =>
    if m / 2 ^ (l + 1) % 2 == 1 then
      prefixAt levels m l (s + 2 ^ (l + 1)) (add64 acc ((levels.getD (l + 1) []).getD (s / 2 ^ (l + 1)) (.nat 0)))
    else prefixAt levels m l s acc

/-- The prefix sums of R338. -/
def prefixSums (ws : List Fp) : List Fp :=
  let h := treeHeight ws.length
  let levels := treeLevels h (ws ++ List.replicate (2 ^ h - ws.length) (.nat 0))
  (List.range ws.length).map fun i => prefixAt levels (i + 1) h 0 (.nat 0)

/-- The copies up to thread i (R339). -/
def copiesUpTo (cs : List Fp) (t : Nat) (u : Fp) (i : Nat) : Nat :=
  if i + 1 == cs.length then t
  else
    let x := div64 (mul64 (cs.getD i (.nat 0)) (.nat t)) (cs.getD (cs.length - 1) (.nat 1))
    let k := (add64 x u.neg).ceil
    Nat.min k.toNat t

/-- cnt[i] and first[i] of each thread (R339). -/
def counts (cs : List Fp) (t : Nat) (u : Fp) : List (Nat × Nat) :=
  (List.range cs.length).map fun i =>
    let before := if i == 0 then 0 else copiesUpTo cs t u (i - 1)
    (copiesUpTo cs t u i - before, before)

/-! ## Arrival (R334 to R336) -/

/-- The checks of R335 after the window's, and the arrival's park. -/
def State.resamples (s : State) (c : Code) (t : Thread) : State :=
  let spans := match s.kernel? t.ref.kid with
    | some k => k.spans
    | none => false
  let blocks := match s.gangOf t with
    | some g => !g.blocks.isEmpty
    | none => false
  if !s.pop t.ref.kid || spans || t.nest != 0 || blocks then s.raiseAt t c { cause := Cause.popMisuse }
  else if t.outstanding then s
  else
    let l := s.lane c t
    let (tok, s) := s.newId
    let args : RsmpArgs := { pc := t.pc, word0 := c.words.getD 0 0, weight := l.word c.fields.a, target := l.word c.fields.b, offset := l.word c.fields.c,
                             draw := c.fields.sub.getLsbD 0, dst := c.dstReg, tok := tok }
    let e : Pending := { reg := c.dstReg, count := 1, tok := tok, value := none }
    s.setThread (({ t with pc := nextPc c t.pc, pend := t.pend ++ [e], rsmp := some args, rel := true
      } : Thread).park 1 .rsmp)

/-- RSMP (R336). -/
def execRsmp (o : Ext) (s : State) : Out := .next (s.run (.ext 0x70 o) (fun s t => s.resamples (.ext 0x70 o) t) true)

/-- A thread stands at `rsmp` with its earlier results committed and its release done. -/
def Thread.atRsmp (t : Thread) : Bool := t.wait == .rsmp && !t.rel && !t.halted

/-- The earlier results of a thread at `rsmp` have returned, and its release has not begun: they commit, and the release
begins (R148, R336). -/
def State.beginArrival (s : State) (t : Thread) : State :=
  match t.rsmp, s.gangOf t with
  | some a, some g =>
    let early := t.pend.filter (·.tok != a.tok)
    let begun := (s.hub g.hub).releases.any (·.cont == .thread t.ref)
    if t.wait != .rsmp || !t.rel || begun || t.halted || !early.all (·.value.isSome) then s
    else
      let t := { ({ t with pend := early } : Thread).commitAll with pend := t.pend.filter (·.tok == a.tok) }
      (s.setThread t).startRelease g.hub (.thread t.ref)
  | _, _ => s

/-- The population of a kernel in rank order (R331). -/
def State.population (s : State) (kid : Nat) : List Thread :=
  sortKey (fun (t : Thread) => [t.grank.toNat]) (s.m.threads.filter (·.ref.kid == kid))

/-- Nothing of the kernel stands saved. -/
def State.allResident (s : State) (k : Kernel) : Bool :=
  !(s.context k.ctx).saved.any fun x => x.team.ref.kid == k.kid

/-- The collective of a kernel at the end of a cycle's thread operations (R336). -/
def State.gather (s : State) (k : Kernel) : State :=
  let ts := s.population k.kid
  let some_ := ts.any (·.atRsmp)
  let all := some_ && ts.all (·.atRsmp) && k.dispatched == k.count && s.allResident k
  match k.rsmp with
  | .idle | .gathering =>
    if all then s.updKernel k.kid fun k => { k with rsmp := .arrived }
    else if some_ then s.updKernel k.kid fun k => { k with rsmp := .gathering }
    else s
  | _ => s

/-- Arrivals and collectives of the module. -/
def State.gatherStep (s : State) : State :=
  let s := (s.m.threads.filter fun t => t.wait == .rsmp && t.rel).foldl (fun s t => s.beginArrival t) s
  s.m.kernels.foldl (fun s k => if s.pop k.kid then s.gather k else s) s

/-! ## The move (R337 to R343) -/

/-- POP_MISUSE in every arrived thread: every team of the population ends with a record of the `rsmp`, and the kernel ends,
whatever its ISO (R340). -/
def State.endPopulation (s : State) (k : Kernel) (ts : List Thread) (addr : Dword) : State :=
  let firsts := ts.filter fun t => ts.find? (·.ref.teamRef == t.ref.teamRef) == some t
  let s := firsts.foldl (fun s t =>
    let (pc, word0) := (t.rsmp.map fun a => (a.pc, a.word0)).getD (t.pc, 0)
    (s.addRecord { s.threadRecord t Cause.popMisuse pc addr true false 0 word0 with isolated := false }).endTeam t.ref.teamRef) s
  (s.kernelFault k.kid Cause.popMisuse).updKernel k.kid fun k => { k with st := .draining, rsmp := .idle, plan := [] }

/-- The device-scope acquire of some hubs (R150): the tokens that the kernel's threads wait for. -/
def State.acquireOn (s : State) (hubs : List Nat) : List Nat × State :=
  hubs.foldl (fun (p : List Nat × State) h =>
    let (tok, s) := p.2.acquireHubs [h] true false
    (p.1 ++ [tok], s)) ([], s)

/-- The hubs that run a team of the kernel (R346). -/
def State.teamHubs (s : State) (kid : Nat) : List Nat := ((s.m.teams.filter (·.ref.kid == kid)).map (·.hub)).eraseDups

/-- The result of `rsmp` returns in a thread, which goes on when the hubs have acquired. -/
def Thread.resumeRsmp (t : Thread) (result : Word) (toks : List Nat) : Thread :=
  let t := match t.rsmp with
    | some a => t.returned a.tok [result]
    | none => t
  { t with rsmp := none, wait := .acquire toks }

/-- ANYBAD in a result (R341). -/
def anyBadBit (b : Bool) : Nat := if b then 2 ^ 30 else 0

/-- The weights sum to zero (R340). -/
def State.rsmpFails (s : State) (k : Kernel) (ts : List Thread) (anyBad draw : Bool) : State :=
  let (toks, s) := s.acquireOn (s.teamHubs k.kid)
  let s := ts.foldl (fun s t => s.updThread t.ref fun x =>
    let x := x.resumeRsmp (BitVec.ofNat 32 (2 ^ 31 + anyBadBit anyBad)) toks
    if draw && ts.head? == some t then { x with rngctr := x.rngctr + 1 } else x) s
  s.updKernel k.kid fun k => { k with rsmp := .idle }

/-- The copies of a population in ascending rank (R341). -/
def State.copyPlan (s : State) (ts : List Thread) (cnt : List (Nat × Nat)) : List CloneRec :=
  (List.range ts.length).flatMap fun i => match ts[i]? with
    | none => []
    | some t =>
      let (n, first) := cnt.getD i (0, 0)
      (List.range n).map fun e =>
        { parent := t, regs := s.gregs t, regsPoison := ((s.gangOf t).map (·.poison)).getD [], rank := first + e, copy := e, first := first, count := n }

/-- The frames of a plan, each copy's old one and new one, or the address of the first that is denied (R340). -/
def State.framePages (s : State) (k : Kernel) (l : LaunchRec) (plan : List CloneRec) :
    Except Nat (List (List UnitPart × List UnitPart)) × State :=
  plan.foldl (fun (p : Except Nat (List (List UnitPart × List UnitPart)) × State) x => match p.1 with
    | .error _ => p
    | .ok ps =>
      let old := l.pvFrame x.parent.grank
      let new := l.pvFrame (BitVec.ofNat 64 x.rank)
      match p.2.unitPages k.ctx old l.pvSize with
      | (.error _, s) => (.error old, s)
      | (.ok from_, s) => match s.unitPages k.ctx new l.pvSize with
        | (.error _, s) => (.error new, s)
        | (.ok into, s) => (.ok (ps ++ [(from_, into)]), s)) (.ok [], s)

/-- The bytes of a frame; what another owner's memory holds is open. -/
def State.readFrame (s : State) (pages : List UnitPart) : List Byte × State :=
  pages.foldl (fun (p : List Byte × State) x =>
    if x.1 == .here then (p.1 ++ p.2.unitBytes x.2.1 x.2.2.2, p.2)
    else
      let (bs, s) := p.2.freeBytes x.2.2.2
      (p.1 ++ bs, s)) ([], s)

/-- The private frames follow the ranks, with their poison: every old frame is read before any new one is written (R157, R342). -/
def State.moveFrames (s : State) (kid : Nat) (pages : List (List UnitPart × List UnitPart)) : State :=
  let (reads, s) := pages.foldl (fun (p : List (List UnitPart × List Byte × List Bool) × State) x =>
    let (bs, s) := p.2.readFrame x.1
    (p.1 ++ [(x.2, bs, s.partsPoison x.1)], s)) ([], s)
  reads.foldl (fun s x => s.partsWrite x.1 x.2.1 (.frames kid) x.2.2) s

/-- BADW of the threads with a bad weight (R337). -/
def Thread.markWeight (t : Thread) : Thread :=
  match t.rsmp with
  | some a => if weightBad a.weight then { t with popst := t.popst ||| 1 } else t
  | none => t

/-- The move of a kernel whose population has arrived (R337 to R342). -/
def State.moveStep (s : State) (kid : Nat) : State :=
  match s.kernel? kid, s.launch? kid with
  | some k, some l =>
    let ts := s.population kid
    if k.rsmp != .arrived || !ts.all (·.atRsmp) then s
    else match ts.head?, ts.head?.bind (·.rsmp) with
      | some t0, some a0 =>
        let s := s.updKernel kid fun k => { k with resampled := true }
        let ws := ts.map fun t => (t.rsmp.map (·.weight)).getD 0
        let t := a0.target.toNat
        let u := if a0.draw then Fp.fin false (rng l.seed t0.lineage t0.rngctr).toNat (-32) else f32 a0.offset
        let inRange := match u with
          | .fin neg m _ => m == 0 || (!neg && u.cmp (.nat 1) < 0)
          | _ => false
        if t == 0 || l.cap < t || !inRange then s.endPopulation k ts 0
        else
          let anyBad := ws.any weightBad
          let s := s.modify fun m => { m with threads := updBy (·.ref.kid == kid) (·.markWeight) m.threads }
          let cs := prefixSums (sanitise ws)
          if (cs.getLast?.getD (.nat 0)).isZero then s.rsmpFails k ts anyBad a0.draw
          else
            let plan := s.copyPlan ts (counts cs t u)
            match s.framePages k l plan with
            | (.error addr, s) => s.endPopulation k ts (addr57 (BitVec.ofNat 64 addr))
            | (.ok pages, s) =>
              let s := s.moveFrames kid pages
              let killed := ts.filter fun t => !plan.any (·.parent.ref == t.ref)
              let s := s.updKernel kid fun k => { k with rsmp := .resampling, plan := plan, anyBad := anyBad }
              (killed.foldl (fun s t => s.leave t) s).send .rsmp (.rsmpDone kid)
      | _, _ => s
  | _, _ => s

/-- RESAMPLE (R336): kernel `ev.kernel`. -/
def execResample (s : State) : Out := .next (s.moveStep s.m.ev.kernel)

/-! ## Completion (R341 to R346) -/

/-- lineage of a copy (R33, R341). -/
def CloneRec.lineage (x : CloneRec) : Dword :=
  let gen := x.parent.lineage.toNat / 2 ^ 48
  BitVec.ofNat 64 ((if gen == 0xFFFE then 0 else gen + 1) % 2 ^ 16 * 2 ^ 48 + x.first % 2 ^ 24 * 2 ^ 24 + x.copy % 2 ^ 24)

/-- The result of a copy (R341). -/
def CloneRec.result (x : CloneRec) (anyBad : Bool) : Word := BitVec.ofNat 32 (anyBadBit anyBad + x.count % 2 ^ 24)

/-- A survivor takes its rank, its lineage and its result, and its stochastic and tack state is zero (R43, R341). -/
def CloneRec.survivor (x : CloneRec) (t : Thread) (anyBad : Bool) (toks : List Nat) : Thread :=
  { t.resumeRsmp (x.result anyBad) toks with
    grank := BitVec.ofNat 64 x.rank, lineage := x.lineage, rngctr := 0, tackst := 0, popst := 0 }

/-- A clone at its place (R42, R341, R342, R351). -/
def CloneRec.clone (x : CloneRec) (ref : ThreadRef) (pvSize : Nat) (anyBad : Bool) (toks : List Nat) : Thread :=
  let p := x.parent
  let t := Thread.fresh ref p.pc (BitVec.ofNat 64 x.rank) x.lineage pvSize
  let t := { t with v := p.v, poison := p.poison, p := p.p, fmode := p.fmode, sptr := p.sptr }
  (match p.rsmp with
    | some a => t.setRegs a.dst [x.result anyBad]
    | none => t).park 1 (.acquire toks)

/-- The key of a gang in the canonical order (R333). -/
def Gang.placeKey (g : Gang) : List Nat := [g.vcore, g.vslot]

/-- The empty columns of the teams that keep a survivor, in canonical order (R343). -/
def State.freeColumns (s : State) (kid : Nat) : List ThreadRef :=
  let gs := sortKey (·.placeKey) (s.m.gangs.filter (·.ref.kid == kid))
  gs.flatMap fun g =>
    let ts := s.gangThreads g.ref
    (List.range 32).filterMap fun n =>
      if ts.any (·.ref.lane == n) then none
      else some { kid := kid, team := g.ref.team, gang := g.ref.gang, lane := n }

/-- The places in which no team of the kernel is resident, in canonical order (R343). -/
def State.freePlaces (s : State) (k : Kernel) : List PlaceRec :=
  let key := fun (p : PlaceRec) =>
    let x := logicalPlace (p.num % 256) (p.num / 256)
    [x.1, x.2]
  sortKey key (k.places.filter fun p => !s.m.teams.any fun t => t.ref.kid == k.kid && t.ref.team == p.num)

/-- Chunks of at most 32. -/
def chunks32 {α : Type} : Nat → List α → List (List α)
  | 0, _ => []
  | n + 1, l => if l.isEmpty then [] else l.take 32 :: chunks32 n (l.drop 32)

/-- A new team at a place, with its clones in lanes 0, 1, 2 and so on (R343 to R345). -/
def State.cloneTeam (s : State) (k : Kernel) (l : LaunchRec) (p : PlaceRec) (xs : List CloneRec) (toks : List Nat) :
    State :=
  let ref : TeamRef := { kid := k.kid, team := p.num }
  let seat := (0, p.core, p.quarter, p.slot)
  let t := newTeam ref p.hub l { seats := [seat], hsBase := p.hsBase, acc := p.acc, budgets := l.budgets [seat] } 15 0
  let gref : GangRef := { kid := k.kid, team := p.num, gang := 0 }
  let g := { s.newGang gref 0 p.hub p.core p.quarter p.slot (logicalPlace (p.num % 256) (p.num / 256)) with
    g := (xs.head?.map (·.regs)).getD (Vector.replicate 128 0)
    poison := ((xs.head?.map (·.regsPoison)).getD []).filter (· < 96) }
  let ts := (List.range xs.length).filterMap fun i => (xs[i]?).map fun x =>
    x.clone { kid := k.kid, team := p.num, gang := 0, lane := i } l.pvSize k.anyBad toks
  let s := (s.clearTeam t [g]).modify fun m =>
    { m with teams := m.teams ++ [t], gangs := m.gangs ++ [g], threads := m.threads ++ ts }
  s.updKernel k.kid fun k => { k with hubs := if k.hubs.contains p.hub then k.hubs else k.hubs ++ [p.hub] }

/-- g96 to g127 are zero (R29, R345). -/
def Gang.clearHigh (g : Gang) : Gang := g.setRegs 96 (List.replicate 32 0)

/-- Copies that a save finds under way are pre-empted with their teams when they stand in their places (R347). -/
def State.stopCopies (s : State) (k : Kernel) : State :=
  let mine : Team → Team := fun t => if t.ref.kid == k.kid then { t with st := .saving } else t
  let stop : Thread → Thread := fun t => if t.ref.kid == k.kid then { t with stopped := true } else t
  if (s.context k.ctx).st != .saving then s
  else s.modify fun m => { m with teams := m.teams.map mine, threads := m.threads.map stop }

/-- The images are written: the survivors and the clones stand in their places, and the hubs acquire (R343 to R346). -/
def State.placeCopies (s : State) (kid : Nat) : State :=
  match s.kernel? kid, s.launch? kid with
  | some k, some l =>
    if k.rsmp != .resampling then s
    else
      let cols := s.freeColumns kid
      let clones := k.plan.filter (·.copy != 0)
      let inCols := clones.zip cols
      let rest := clones.drop cols.length
      let teams := (chunks32 rest.length rest).zip (s.freePlaces k)
      let (toks, s) := s.acquireOn (s.teamHubs kid ++ teams.map (·.2.hub)).eraseDups
      let s := (k.plan.filter (·.copy == 0)).foldl (fun s x =>
        s.updThread x.parent.ref fun t => x.survivor t k.anyBad toks) s
      let s := s.modify fun m =>
        { m with threads := m.threads ++ inCols.map fun p => p.1.clone p.2 l.pvSize k.anyBad toks }
      let s := teams.foldl (fun s p => s.cloneTeam k l p.2 p.1 toks) s
      let s := s.modify fun m => { m with gangs := updBy (·.ref.kid == kid) (·.clearHigh) m.gangs }
      (s.updKernel kid fun k => { k with rsmp := .idle, plan := [] }).stopCopies k
  | _, _ => s

/-- RESAMPLE_COMPLETE (R346): the message `ev.id`. It waits until the last frame has been written. -/
def execResampleComplete (s : State) : Out :=
  s.onMessage fun s msg => match msg with
    | .rsmpDone kid => if s.unitBusy (.frames kid) then s.sendAt (s.m.cycle + 1) (.rsmpDone kid) else s.placeCopies kid
    | _ => s

end Sys2Proof.Machine
end

