-- ==== Sys2Proof/Machine/SaveArea.lean ====
section
/-! DEFINITION. The images of threads and gangs and the blocks of the save area (R42, R45, R255, R271, R272, R350, R351). A
layout is a list of items, so that what a save writes and what a restore reads back are said once. Where the spec gives a
block its size alone, its items are the model's (log entry 106). -/

namespace Sys2Proof.Machine

/-! ## Layouts -/

/-- An item of a layout: its size in bytes, how its value is taken from an object and how it is put back. -/
structure Item (α : Type) where
  size : Nat
  get : α → Nat
  put : Nat → α → α := fun _ x => x

/-- The bytes of an object. -/
def itemBytes {α : Type} (l : List (Item α)) (x : α) : List Byte := l.flatMap fun i => bytesOfNat i.size (i.get x)

/-- The object with the values that some bytes hold. -/
def itemRead {α : Type} : List (Item α) → List Byte → α → α
  | [], _, x => x
  | i :: rest, bs, x => itemRead rest (bs.drop i.size) (i.put (fieldAt bs 0 i.size) x)

/-- The size of a layout. -/
def itemSize {α : Type} (l : List (Item α)) : Nat := (l.map (·.size)).sum

/-- Bytes filled up with zeros. -/
def padTo (n : Nat) (bs : List Byte) : List Byte := (bs ++ List.replicate (n - bs.length) 0).take n

/-- Changes an entry of a list. -/
def updAt {α : Type} (n : Nat) (f : α → α) (l : List α) : List α := l.zipIdx.map fun x => if x.2 == n then f x.1 else x.1

/-! ## Thread images (R42, R351) -/

/-- The code of a state in an image. -/
def ThreadState.code : ThreadState → Nat
  | .ready => 1
  | .trapped => 2
  | .parked r => 3 + 16 * r

/-- A thread with the state and the reason of a code. Where they differ from the thread's own, a PARKED one waits for its pending
results alone (DESIGN CHOICE, log entry 106). -/
def Thread.withState (t : Thread) (x : Nat) : Thread :=
  let go := fun (st : ThreadState) (handler : Bool) =>
    if t.st == st then t else { t with st := st, inHandler := handler, wait := .none }
  match x % 16 with
  | 1 => go .ready false
  | 2 => go .trapped true
  | 3 => go (.parked (x / 16 % 8)) t.inHandler
  | _ => t

/-- A thread with the state byte of an image: the state, the reason, and the halt. -/
def Thread.withStateByte (t : Thread) (x : Nat) : Thread :=
  let t := t.withState (x % 128)
  if x < 128 then { t with halt := none } else { t with halt := some (t.halt.getD .debug) }

/-- The mark of a lane column whose thread is EXITED, or that is empty: nothing that a restore needs tells the two apart. -/
abbrev exitedCode : Nat := 4

/-- A register of the image: v32 to v95 stand in it as far as the gang holds blocks. -/
def vItem (blocks n : Nat) : Item Thread :=
  let held := n < 32 * (blocks + 1)
  { size := 4
    get := fun t => if held then (t.v.toArray.getD n 0).toNat else 0
    put := fun x t => if held then { t with v := t.v.setIfInBounds n (BitVec.ofNat 32 x) } else t }

/-- An empty entry of a pending list. -/
def Pending.blank : Pending := { reg := 0, count := 0, tok := 0, value := some [] }

/-- Entry i of the pending list: destination, count, issue order and value. A value that has not returned is not read back. -/
def pendItems (i : Nat) : List (Item Thread) :=
  let at_ := fun (t : Thread) => t.pend[i]?
  let upd := fun (t : Thread) (f : Pending → Pending) => { t with pend := updAt i f t.pend }
  let words := fun (e : Pending) (x : Nat) => (List.range e.count).map fun k => BitVec.ofNat 32 (x / 2 ^ (32 * k))
  [{ size := 1, get := fun t => ((at_ t).map (·.reg)).getD 0, put := fun x t => upd t fun e => { e with reg := x } },
   { size := 1, get := fun t => ((at_ t).map (·.count)).getD 0, put := fun x t => upd t fun e => { e with count := x } },
   { size := 2, get := fun _ => i },
   { size := 64, get := fun t => (((at_ t).bind (·.value)).map fun v => natOfBytes (v.flatMap bytesOfWord)).getD 0
     put := fun x t => upd t fun e => { e with value := e.value.map fun _ => words e x } }]

/-- `xcause` to `xfld`. -/
def trapItems : List (Item Thread) :=
  [{ size := 4, get := fun t => t.x.cause.toNat, put := fun x t => { t with x := { t.x with cause := xcauseKept (BitVec.ofNat 32 x) } } },
   { size := 8, get := fun t => t.x.pc.toNat, put := fun x t => { t with x := { t.x with pc := addr57 (BitVec.ofNat 64 x) } } },
   { size := 8, get := fun t => t.x.addr.toNat, put := fun x t => { t with x := { t.x with addr := addr57 (BitVec.ofNat 64 x) } } },
   { size := 4, get := fun t => t.x.word0.toNat, put := fun x t => { t with x := { t.x with word0 := BitVec.ofNat 32 x } } },
   { size := 4, get := fun t => t.x.word1.toNat, put := fun x t => { t with x := { t.x with word1 := BitVec.ofNat 32 x } } },
   { size := 4, get := fun t => t.x.word2.toNat, put := fun x t => { t with x := { t.x with word2 := BitVec.ofNat 32 x } } },
   { size := 8, get := fun t => t.x.word3.toNat, put := fun x t => { t with x := { t.x with word3 := BitVec.ofNat 64 x } } },
   { size := 8, get := fun t => t.x.fld.toNat, put := fun x t => { t with x := { t.x with fld := xfldKept (BitVec.ofNat 64 x) } } }]

/-- The items of a thread image before the pending list, in the order of R42. -/
def threadHead (blocks : Nat) : List (Item Thread) :=
  [{ size := 8, get := fun t => t.pc.toNat, put := fun x t => { t with pc := addr57 (BitVec.ofNat 64 x) } }]
    ++ (List.range 96).map (vItem blocks)
    ++ [{ size := 1, get := fun t => t.p.toNat, put := fun x t => { t with p := BitVec.ofNat 8 x ||| 1 } },
        { size := 4, get := fun t => t.fmode.toNat, put := fun x t => { t with fmode := BitVec.ofNat 3 x } },
        { size := 4, get := fun t => t.sptr.toNat, put := fun x t => { t with sptr := BitVec.ofNat 32 x } },
        { size := 8, get := fun t => t.lineage.toNat, put := fun x t => { t with lineage := BitVec.ofNat 64 x } },
        { size := 8, get := fun t => t.rngctr.toNat, put := fun x t => { t with rngctr := BitVec.ofNat 64 x } },
        { size := 4, get := fun t => t.tackst.toNat, put := fun x t => { t with tackst := tackstKept (BitVec.ofNat 32 x) } },
        { size := 4, get := fun t => t.popst.toNat, put := fun x t => { t with popst := popstKept (BitVec.ofNat 32 x) } },
        { size := 8, get := fun t => t.spawns, put := fun x t => { t with spawns := x } }]
    ++ trapItems

/-- The items of a thread image in the order of R42, and the arrival record of R351. -/
def threadItems (blocks : Nat) : List (Item Thread) :=
  threadHead blocks ++ (List.range 8).flatMap pendItems
    ++ [{ size := 1, get := fun t => t.st.code + (if t.halt.isSome then 128 else 0), put := fun x t => t.withStateByte x },
        { size := 2, get := fun t => t.pass, put := fun x t => { t with pass := x } },
        { size := 1, get := fun t => t.nest, put := fun x t => { t with nest := x } },
        { size := 2, get := fun t => t.arr.toNat, put := fun x t => { t with arr := BitVec.ofNat 16 x } }]
    ++ (List.range 16).map fun n =>
      { size := 2, get := fun t => t.ph.toArray.getD n 0, put := fun x t => { t with ph := t.ph.setIfInBounds n x } }

/-- The 1,152 bytes of a thread image. -/
def Thread.image (t : Thread) (blocks : Nat) : List Byte := padTo 1152 (itemBytes (threadItems blocks) t)
/-- A thread with the values of its image: the pending list stands in the issue order it gives, without empty entries. What the
thread waits for beyond its state and reason is not in it. -/
def Thread.ofImage (t : Thread) (blocks : Nat) (bs : List Byte) : Thread :=
  let order := fun (i : Nat) => fieldAt bs (itemSize (threadHead blocks) + itemSize (pendItems 0) * i + 2) 2
  let x := itemRead (threadItems blocks) bs { t with pend := t.pend ++ List.replicate (8 - t.pend.length) Pending.blank }
  { x with pend := ((sortKey (fun (p : Pending × Nat) => [order p.2]) x.pend.zipIdx).map (·.1)).filter (·.count != 0) }

/-- The image of a lane column without a thread: its state is marked. -/
def emptyImage : List Byte := padTo 1152 (List.replicate 1025 0 ++ [BitVec.ofNat 8 exitedCode])

/-! ## Gang images (R45) -/

/-- A field of a gang's open `xacq` request. -/
def xacqItem (size : Nat) (get : XacqReq → Nat) (put : Nat → XacqReq → XacqReq) : Item Gang :=
  { size := size, get := fun g => (g.xacq.map get).getD 0, put := fun x g => { g with xacq := g.xacq.map (put x) } }

/-- The items of a gang image; the priority is the one of R309. -/
def gangItems (priority : Nat) : List (Item Gang) :=
  (List.range 128).map (fun n =>
    { size := 4, get := fun g => (g.g.toArray.getD n 0).toNat
      put := fun x g => { g with g := g.g.setIfInBounds n (BitVec.ofNat 32 x) } })
    ++ [{ size := 4, get := fun g => g.blocks.length
          -- which blocks they are is settled where the gang is placed (R45)
          put := fun x g => { g with blocks := (g.blocks ++ List.replicate 2 0).take (Nat.min x 2) } },
        { size := 4, get := fun g => g.role, put := fun x g => { g with role := x } },
        { size := 4, get := fun _ => priority },
        { size := 8, get := fun g => g.led, put := fun x g => { g with led := x } },
        { size := 4, get := fun g => g.waitCount, put := fun x g => { g with waitCount := x } },
        { size := 4, get := fun g => match g.xacq with
          | some r => if r.complete then 2 else 1
          | none => 0
          put := fun x g => { g with xacq := if x == 0 then none else g.xacq.map fun r => { r with complete := x == 2 } } },
        xacqItem 4 (·.n) (fun x r => { r with n := x }), xacqItem 8 (·.since) (fun x r => { r with since := x }),
        xacqItem 8 (·.order) (fun x r => { r with order := x }),
        { size := 4, get := fun g => g.vslot, put := fun x g => { g with vslot := x } }]

/-- The 1,024 bytes of a gang image. -/
def Gang.image (g : Gang) (priority : Nat) : List Byte := padTo 1024 (itemBytes (gangItems priority) g)
/-- A gang with the values of its image. -/
def Gang.ofImage (g : Gang) (bs : List Byte) : Gang := itemRead (gangItems 0) bs g

/-! ## The team header (R271, R350) -/

/-- The 8-byte word of a named barrier (R350). -/
def TeamBarrier.word (b : TeamBarrier) : Nat :=
  let mode := match b.mode with
    | .idle => 0
    | .all => 1
    | .counted => 2
  b.arrived % 2 ^ 14 * 2 ^ 32 + b.expect % 2 ^ 14 * 2 ^ 18 + mode * 2 ^ 16 + b.phase % 2 ^ 16

/-- A barrier with the fields of its word. -/
def TeamBarrier.ofWord (b : TeamBarrier) (w : Nat) : TeamBarrier :=
  { b with
    arrived := w / 2 ^ 32 % 2 ^ 14, expect := w / 2 ^ 18 % 2 ^ 14, phase := w % 2 ^ 16
    mode := match w / 2 ^ 16 % 4 with
      | 1 => .all
      | 2 => .counted
      | _ => .idle }

/-- The items of a team header: gang count, role table, release level, allocation sizes, and the barriers. -/
def headerItems (gangs : Nat) (roles : List RoleRec) : List (Item Team) :=
  let role := fun (i : Nat) => ((roles[i]?).map fun r => r.gangs + r.prio * 2 ^ 16 + r.blocks * 2 ^ 24).getD 0
  [{ size := 4, get := fun _ => gangs }] ++ (List.range 4).map (fun i => { size := 4, get := fun _ => role i })
    ++ [{ size := 4, get := fun t => t.level, put := fun x t => { t with level := x } },
        { size := 4, get := fun t => t.hsSize }, { size := 4, get := fun t => t.acc.length }]
    ++ (List.range 16).map fun n =>
      { size := 8, get := fun t => ((t.bars.toArray[n]?).map (·.word)).getD 0
        put := fun x t => { t with bars := .ofFn fun i => if i.val == n then t.bars[i].ofWord x else t.bars[i] } }

/-- The bytes of a scratch allocation's presence bits and counts: one for each line (R155). -/
def Team.presenceBytes (t : Team) : List Byte :=
  (List.range (t.hsSize / 128)).map fun n =>
    let c := ((t.counts.find? (·.1 == n)).map (·.2)).getD 0
    BitVec.ofNat 8 (if c == 0 then 0x80 else c % 8)
/-- The counts that such bytes hold. -/
def countsOf (bs : List Byte) : List (Nat × Nat) :=
  (bs.zipIdx.map fun b => (b.2, b.1.toNat % 8)).filter (·.2 != 0)

/-! ## Buckles and reservation entries (R255) -/

/-- The mask of a list of small numbers, and back. -/
def maskOf (l : List Nat) : Nat := ((List.range 64).map fun i => if l.contains i then 2 ^ i else 0).sum
def membersOf (x : Nat) : List Nat := (List.range 64).filter fun i => x / 2 ^ i % 2 == 1

/-- The items of a buckle, before its staged rows. -/
def buckleItems : List (Item Buckle) :=
  [{ size := 1
     get := fun b => match b.st with
       | .undeclared => 0
       | .declared => 1
       | .signing => 2
     put := fun x b => { b with st := if x == 2 then .signing else if x == 1 then .declared else .undeclared } },
   { size := 1, get := fun b => b.fmode.toNat, put := fun x b => { b with fmode := BitVec.ofNat 3 x } },
   { size := 2, get := fun b => b.count, put := fun x b => { b with count := x } },
   { size := 2, get := fun b => b.first, put := fun x b => { b with first := x } },
   { size := 2, get := fun b => b.sub, put := fun x b => { b with sub := x } },
   { size := 4, get := fun b => b.word.toNat, put := fun x b => { b with word := BitVec.ofNat 32 x } },
   { size := 4, get := fun b => b.d, put := fun x b => { b with d := x } },
   { size := 4, get := fun b => b.a, put := fun x b => { b with a := x } },
   { size := 4, get := fun b => b.imm, put := fun x b => { b with imm := x } },
   { size := 8, get := fun b => maskOf (b.signed.map (· - b.first))
     put := fun x b => { b with signed := (membersOf x).map (· + b.first) } }]

/-- Place of a staged row in the 128 rows of 128 bytes of a buckle: those of A, then those of B. -/
def StagedRow.place (r : StagedRow) : Nat := 128 + 128 * ((if r.sideB then 64 else 0) + r.row)

/-- The 16,512 bytes of a buckle with the staged rows of its round. -/
def Buckle.block (b : Buckle) (rows : List StagedRow) : List Byte :=
  padTo 128 (itemBytes buckleItems b) ++ (List.range 128).flatMap fun i =>
    match rows.find? (·.place == 128 + 128 * i) with
    | some r => padTo 128 (r.words.flatMap bytesOfWord)
    | none => List.replicate 128 0

/-- A staged row with the words its place in a buckle's block holds. -/
def StagedRow.ofBlock (r : StagedRow) (bs : List Byte) : StagedRow :=
  { r with words := (List.range r.words.length).map fun k => wordField bs (r.place + 4 * k) }

/-- The items of a scratch descriptor that an entry holds. -/
def descItems (get : Reservation → Option Desc) (put : Option Desc → Reservation → Reservation) : List (Item Reservation) :=
  let one := fun (get' : Desc → Nat) (put' : Nat → Desc → Desc) =>
    ({ size := 4, get := fun e => ((get e).map get').getD 0, put := fun x e => put ((get e).map (put' x)) e } : Item Reservation)
  [{ size := 4, get := fun e => if (get e).isSome then 1 else 0 },
   one (·.base) (fun x d => { d with base := x }), one (·.rpitch) (fun x d => { d with rpitch := x }),
   one (·.rot) (fun x d => { d with rot := x }), one (·.tpitch) (fun x d => { d with tpitch := x })]

/-- The code of an operation. -/
def EngineOp.code : EngineOp → Nat
  | .mma => 0
  | .mzero => 1
  | .mldScratch => 2
  | .mldRegs => 3
  | .mstScratch => 4
  | .mstRegs => 5
  | .mcvt => 6
  | .qblk => 7

/-- The operation of a code. -/
def EngineOp.ofCode : Nat → EngineOp
  | 0 => .mma
  | 1 => .mzero
  | 2 => .mldScratch
  | 3 => .mldRegs
  | 4 => .mstScratch
  | 5 => .mstRegs
  | 6 => .mcvt
  | _ => .qblk

/-- The items of a reservation entry before its range extents: its operation, descriptors, captured rounding, passes, counter
base and relative posting order. -/
def entryHead (order : Nat) : List (Item Reservation) :=
  [{ size := 1, get := fun e => e.op.code, put := fun x e => { e with op := EngineOp.ofCode x } }, { size := 1, get := fun e => e.prio, put := fun x e => { e with prio := x } },
   { size := 1, get := fun e => roundingCode e.rnd, put := fun x e => { e with rnd := Rnd.ofFmode (BitVec.ofNat 3 x) } },
   { size := 1, get := fun e => e.ty, put := fun x e => { e with ty := x } },
   { size := 4, get := fun e => e.word.toNat, put := fun x e => { e with word := BitVec.ofNat 32 x } },
   { size := 4, get := fun e => (BitVec.ofInt 32 e.scale).toNat, put := fun x e => { e with scale := (BitVec.ofNat 32 x).toInt } },
   { size := 2, get := fun e => e.z, put := fun x e => { e with z := x } },
   { size := 2, get := fun e => e.passes, put := fun x e => { e with passes := x } },
   { size := 2, get := fun e => e.granted, put := fun x e => { e with granted := x } },
   { size := 2, get := fun e => e.rowBase, put := fun x e => { e with rowBase := x } },
   { size := 2, get := fun e => e.colBlock, put := fun x e => { e with colBlock := x } },
   { size := 4, get := fun e => e.scaleOff, put := fun x e => { e with scaleOff := x } },
   { size := 8, get := fun e => e.stream.ctr.toNat
     put := fun x e => { e with stream := { e.stream with ctr := BitVec.ofNat 64 x } } },
   { size := 4, get := fun _ => order }]
    ++ descItems (·.descA) (fun d e => { e with descA := d }) ++ descItems (·.descB) (fun d e => { e with descB := d })

/-- The items of a reservation entry, with the extents of its ranges: from the lowest byte to one past the highest. -/
def entryItems (locks : List RangeLock) (order : Nat) : List (Item Reservation) :=
  let extent := fun (i : Nat) (hi : Bool) => ({ size := 8, get := fun e =>
    (((locks.filter (·.owner == e.entry))[i]?).map fun r => if hi then r.hi else r.lo).getD 0 } : Item Reservation)
  entryHead order ++ (List.range 2).flatMap fun i => [extent i false, extent i true]

/-! ## Binned threads (R271, R321) -/

/-- A binned thread as the thread that its gang will hold. -/
def Bin.threadOf (b : Bin) (t : BinThread) : Thread :=
  (Thread.fresh { kid := b.team.kid, team := b.team.team, gang := 0, lane := 0 } b.entry 0 t.lineage 0).setRegs 0 t.args

/-- The 1,168 bytes of a binned thread: its bin's key, the remaining timer cycles, and its image. -/
def Bin.block (b : Bin) (timer : Nat) (t : BinThread) : List Byte :=
  bytesOfNat 4 b.role ++ bytesOfDword b.entry ++ bytesOfNat 4 (timer - b.since) ++ (b.threadOf t).image 0

/-- A binned thread with the values of its image. -/
def Bin.ofBlock (b : Bin) (t : BinThread) (bs : List Byte) : BinThread :=
  let x := (b.threadOf t).ofImage 0 (bs.drop 16)
  { t with args := (List.range t.args.length).map fun i => x.v.toArray.getD i 0, lineage := x.lineage }

/-! ## The blocks of a team (R271) -/

/-- The bytes of the blocks of a team before those of its binned threads, in their order: header, gangs, scratch, presence,
frames, accumulators, buckles, entries. -/
def blockSizes (gangs hs accs : Nat) : List Nat :=
  [4096, gangs * (1024 + 32 * 1152), hs, (hs + 127) / 128, gangs * 2048, accs * 16384, 16 * 16512, 32 * 256]

/-- The size of a team's blocks in the save area, rounded up to a whole number of 4,096 bytes. -/
def blockBytes (gangs hs accs binned : Nat) : Nat := ((blockSizes gangs hs accs).sum + binned * 1168 + 4095) / 4096 * 4096

/-- Where block k of a saved team starts. -/
def SavedTeam.start (x : SavedTeam) (k : Nat) : Nat :=
  ((blockSizes x.gangs.length x.team.hsSize x.team.acc.length).take k).sum

/-- Where the image of a lane column of gang i starts, or with none the gang's own. -/
def SavedTeam.imageAt (x : SavedTeam) (i : Nat) (lane : Option Nat) : Nat :=
  x.start 1 + i * (1024 + 32 * 1152) + (match lane with
    | some n => 1024 + 1152 * n
    | none => 0)

/-- The binned threads of a saved team, in bin order and then entry order. -/
def SavedTeam.binned (x : SavedTeam) : List (Bin × BinThread) := x.bins.flatMap fun b => b.threads.map fun t => (b, t)

/-- The entry that a buckle's round stages its rows in. -/
def SavedTeam.stagedRows (x : SavedTeam) (b : Buckle) : List StagedRow :=
  match b.entry with
  | some n => ((x.reservations.find? (·.entry == n)).map (·.rows)).getD []
  | none => []

/-- The bytes of a saved team's blocks. -/
def SavedTeam.blocks (x : SavedTeam) (l : LaunchRec) : List Byte :=
  let role := fun (g : Gang) => 4 * l.prio + ((l.roles[g.role]?).map (·.prio)).getD 0
  let gang := fun (g : Gang) => g.image (role g) ++ (List.range 32).flatMap fun n =>
    match x.threads.find? fun t => t.ref.gangRef == g.ref && t.ref.lane == n with
    | some t => t.image g.blocks.length
    | none => emptyImage
  padTo 4096 (itemBytes (headerItems x.gangs.length l.roles) x.team) ++ x.gangs.flatMap gang ++ x.scratch
    ++ x.team.presenceBytes ++ x.frames ++ x.accs ++ x.team.buckles.toList.flatMap (fun b => b.block (x.stagedRows b))
    ++ padTo (32 * 256) (x.reservations.zipIdx.flatMap fun e => padTo 256 (itemBytes (entryItems x.locks e.2) e.1))
    ++ x.binned.flatMap fun p => p.1.block l.timer p.2

/-- The address of a context's save area. -/
def State.saveArea (s : State) (n : Nat) : Nat := (s.context n).savebase.toNat

/-- The blocks of a saved team are written at its place in the save area. -/
def State.writeTeam (s : State) (n : Nat) (x : SavedTeam) : State :=
  match s.launch? x.team.ref.kid with
  | some l => s.deviceWrite (s.saveArea n + x.at_) (x.blocks l)
  | none => s

/-- Bytes of a saved team's blocks as the save area holds them. -/
def State.areaBytes (s : State) (n : Nat) (x : SavedTeam) (off len : Nat) : List Byte :=
  s.unitBytes (s.saveArea n + x.at_ + off) len

/-- A saved gang and its threads as the save area holds them. -/
def State.readGang (s : State) (n : Nat) (x : SavedTeam) (i : Nat) (g : Gang) : Gang × List Thread :=
  let y := g.ofImage (s.areaBytes n x (x.imageAt i none) 1024)
  (y, (x.threads.filter (·.ref.gangRef == g.ref)).map fun t =>
     t.ofImage y.blocks.length (s.areaBytes n x (x.imageAt i (some t.ref.lane)) 1152))

/-- The entries and staged rows of a saved team as the save area holds them. -/
def State.readEntries (s : State) (n : Nat) (x : SavedTeam) : List Reservation :=
  x.reservations.zipIdx.map fun e =>
    let e' := itemRead (entryItems x.locks e.2) (s.areaBytes n x (x.start 7 + 256 * e.2) 256) e.1
    match x.team.buckles.toList.findIdx? (·.entry == some e.1.entry) with
    | some k =>
      let bs := s.areaBytes n x (x.start 6 + 16512 * k) 16512
      { e' with rows := e'.rows.map (·.ofBlock bs) }
    | none => e'

/-- The ranges of a saved team with the extents that the save area holds for those of its entries. -/
def State.readLocks (s : State) (n : Nat) (x : SavedTeam) : List RangeLock :=
  let own := fun (r : RangeLock) => x.reservations.zipIdx.find? fun e => e.1.entry == r.owner
  let rank := fun (r : RangeLock) => (x.locks.filter fun y => y.owner == r.owner).findIdx (· == r)
  x.locks.map fun r => match own r with
    | some e =>
      let bs := s.areaBytes n x (x.start 7 + 256 * e.2 + itemSize (entryHead 0) + 16 * rank r) 16
      { r with lo := fieldAt bs 0 8, hi := fieldAt bs 8 8 }
    | none => r

/-- The bins of a saved team as the save area holds them: the timer of a bin is that of its first thread (R272). -/
def State.readBins (s : State) (n : Nat) (x : SavedTeam) (timer : Nat) : List Bin :=
  let at_ := fun (i : Nat) => s.areaBytes n x (x.start 8 + 1168 * i) 1168
  (x.bins.foldl (fun (p : Nat × List Bin) b =>
    let ts := b.threads.zipIdx.map fun t => b.ofBlock t.1 (at_ (p.1 + t.2))
    (p.1 + b.threads.length, p.2 ++ [{ b with threads := ts, since := timer - fieldAt (at_ p.1) 12 4 }])) (0, [])).2

/-- A saved team with the values that the save area holds: a restore reads the blocks back (R272). What has no place in them,
such as the barrier a thread waits at, the module keeps (log entry 106). -/
def State.readTeam (s : State) (n : Nat) (x : SavedTeam) : SavedTeam :=
  match s.launch? x.team.ref.kid with
  | none => x
  | some l =>
    let gs := x.gangs.zipIdx.map fun g => s.readGang n x g.2 g.1
    let t := itemRead (headerItems x.gangs.length l.roles) (s.areaBytes n x 0 4096) x.team
    let buckle := fun (k : Nat) (b : Buckle) => itemRead buckleItems (s.areaBytes n x (x.start 6 + 16512 * k) 128) b
    { x with
      team := { t with
        counts := countsOf (s.areaBytes n x (x.start 3) (t.hsSize / 128))
        buckles := .ofFn fun i => buckle i.val t.buckles[i] }
      gangs := gs.map (·.1)
      threads := gs.flatMap (·.2)
      reservations := s.readEntries n x
      locks := s.readLocks n x
      scratch := s.areaBytes n x (x.start 2) x.scratch.length
      frames := s.areaBytes n x (x.start 4) x.frames.length
      accs := s.areaBytes n x (x.start 5) x.accs.length
      bins := s.readBins n x l.timer }

/-- The saved teams of a context: those of a SAVED or RESTORING one as its save area holds them. -/
def State.savedTeams (s : State) (n : Nat) : List SavedTeam :=
  let c := s.context n
  if c.st == .saved || c.st == .restoring then c.saved.map (s.readTeam n) else c.saved

/-- Saved teams are changed, in their blocks too (R274, R275). -/
def State.resave (s : State) (n : Nat) (f : SavedTeam → SavedTeam) : State :=
  let xs := (s.savedTeams n).map f
  let st := (s.context n).st
  let s := s.updContext n fun c => { c with saved := xs }
  if st == .saved || st == .restoring then xs.foldl (fun s x => s.writeTeam n x) s else s

/-- The teams of a context that has just been saved take their places in the save area, in ascending `teamid` order, and are
written there (R271). -/
def State.writeSaveArea (s : State) (n : Nat) : State :=
  let order := sortKey (fun (x : SavedTeam) => [x.team.ref.team, x.team.ref.kid]) (s.context n).saved
  let place := fun (p : List SavedTeam × Nat) (x : SavedTeam) =>
    (p.1 ++ [{ x with at_ := p.2 }],
     p.2 + blockBytes x.gangs.length x.team.hsSize x.team.acc.length x.binned.length)
  let xs := (order.foldl place ([], 0)).1
  xs.foldl (fun s x => s.writeTeam n x) (s.updContext n fun c => { c with saved := xs })

end Sys2Proof.Machine
end

