-- ==== Sys2Proof/Machine/Context.lean ====
section
/-! DEFINITION. Contexts, pre-emption, save and restore, and debug sessions (R42, R209, R255 to R262, R271 to R276,
R328 to R330). -/

namespace Sys2Proof.Machine

/-! ## Commands of CTXCTL (R258 to R261) -/

/-- The 64 bytes of a context's descriptor. -/
def State.descBytes (s : State) (n : Nat) : List Byte := s.unitBytes (s.descAddr n) 64

/-- A descriptor is valid (R258, R261). -/
def descGood (bs : List Byte) : Bool :=
  let handler := fieldAt bs 0 8 % 2 ^ 63
  let fq := fieldAt bs 8 8
  handler < 2 ^ 57 && handler % 4 == 0 && fq < 2 ^ 57 && fq % 4096 == 0 && 6 ≤ fieldAt bs 0x18 1
    && fieldAt bs 0x18 1 ≤ 16 && fieldAt bs 0x19 1 < 16 && fieldAt bs 0x1C 4 < 2 ^ 20 && fieldAt bs 0x21 1 != 0
    && fieldAt bs 0x22 2 == 0 && fieldAt bs 0x28 8 % 4096 == 0 && fieldAt bs 0x38 8 == 0

/-- A context made from its descriptor; GEN, LAST and the end of the last lease are kept, and a bump is asked for (R261, R378,
R379). -/
def Context.created (c : Context) (bs : List Byte) : Context :=
  let flags := fieldAt bs 0x19 1
  { Context.fresh c.num with
    st := .active, err := c.err, handler := BitVec.ofNat 64 (fieldAt bs 0 8 % 2 ^ 57), hen := 2 ^ 63 ≤ fieldAt bs 0 8
    fqbase := dwordField bs 8, fqlog2 := fieldAt bs 0x18 1, priv := flags % 2 == 1, dbg := flags / 2 % 2 == 1
    fqh := flags / 4 % 2 == 1, pasid := fieldAt bs 0x1C 4, eshare := fieldAt bs 0x20 1, pmask := fieldAt bs 0x21 1
    savebase := dwordField bs 0x28, savesize := dwordField bs 0x30, gen := c.gen, last := c.last, bumpWaits := true
    lastLease := c.lastLease, invalidates := c.invalidates, epochEnergy := c.epochEnergy }

/-- A command that the state does not allow, or another refusal. -/
def State.ctxRefuse (s : State) (n e : Nat) : State := s.updContext n fun c => { c with err := e }

/-- CONTEXT_CREATE (R261): context `ev.ctx`. -/
def execContextCreate (s : State) : Out :=
  let n := s.m.ev.ctx
  let bs := s.descBytes n
  .next (if (s.context n).st != .free then s.ctxRefuse n 2
    else if !descGood bs then s.ctxRefuse n 1
    else
      let s := (s.updContext n (·.created bs)).writeDescriptor n
      -- OVF := 0, without a change of the bits that the host writes (R171, R459)
      s.unitRequest (s.descAddr n + 0x18) 4 (.atomic 4 Ty.n32 0xFFFFF7FF 0 .rne) (.unit .other .here))

/-- Every kernel of a context. -/
def State.contextKernels (s : State) (n : Nat) : List Kernel := s.m.kernels.filter (·.ctx == n)

/-- The queues of a context are reset (R261, R288). -/
def State.resetQueues (s : State) (n : Nat) : State :=
  (s.m.queues.filter fun q => q.ctx == n && q.st != .disabled && q.st != .resetting).foldl (fun s q => s.resetQueue q.num) s

/-- A context becomes FREE: its open span closes (R409), and GEN, LAST and the end of the last lease are kept (R378, R379). -/
def State.freeContext (s : State) (n : Nat) : State :=
  (s.closeSpan n .other).updContext n fun c =>
    { Context.fresh n with gen := c.gen, last := c.last, bumpWaits := c.bumpWaits, lastLease := c.lastLease,
                           invalidates := c.invalidates, err := c.err, epochEnergy := c.epochEnergy }

/-- The last team of a DRAINING context has ended and its records are written. -/
def State.contextDrained (s : State) (c : Context) : Bool :=
  c.st == .draining && (s.contextKernels c.num).all (fun k => k.final && k.due.isNone) && !c.tailDue
    && s.m.queues.all fun q => q.ctx != c.num || q.st != .resetting

/-- A destroy (R261). -/
def State.destroyContext (s : State) (n : Nat) : State :=
  match (s.context n).st with
  | .active =>
    let s := s.updContext n fun c => { c with st := .draining }
    ((s.contextKernels n).foldl (fun s k => s.killKernel k Cause.teamKilled) s).resetQueues n
  | .saved =>
    -- the save area is abandoned: no records are written; the trace sessions close with the reset of their queues (R288)
    let s := (s.updContext n fun c => { c with saved := [] }).resetQueues n
    ((s.m.queues.filter (·.ctx == n)).foldl (fun s q => s.closeTraces n q.num) s).freeContext n
  | .saving | .restoring => s.updContext n fun c => { c with heldDestroy := true }
  | _ => s.ctxRefuse n 2

/-- CONTEXT_DESTROY (R261): the command, or with `ev.flag` the end of the draining, of context `ev.ctx`. -/
def execContextDestroy (s : State) : Out :=
  let n := s.m.ev.ctx
  .next (if s.m.ev.flag then (if s.contextDrained (s.context n) then s.freeContext n else s)
    else s.destroyContext n)

/-! ## Pre-emption (R328, R329) -/

/-- The 16 quarters of a hub. -/
def hubQuarters (hub : Nat) : List QRef :=
  (List.range 16).map fun i => { hub := hub, core := i / 4, quarter := i % 4 }

/-- The quarters of the hubs that hold a team of a set. -/
def State.quartersOf (s : State) (x : HaltSet) : List QRef :=
  (((s.m.teams.filter fun t => s.meetsTeam t.ref x).map (·.hub)).eraseDups).flatMap hubQuarters

/-- The context of a set of threads. -/
def State.setContext (s : State) : HaltSet → Option Nat
  | .thread t => some (s.ctxOf t.kid)
  | .gang g => some (s.ctxOf g.kid)
  | .team t => some (s.ctxOf t.kid)
  | .context n => some n
  | .module => none

/-- A request begins: it reaches each quarter after the quarter's delay, 210 cycles at most. A debug halt is noted: it also
holds the threads of the set that are formed later. -/
def State.preempt (s : State) (x : HaltSet) (why : HaltWhy) : State :=
  let now := s.m.cycle
  let s := match why, s.setContext x with
    | .debug, some n =>
      let h : DebugHalt := { set := x, since := now, resumed := [] }
      s.updContext n fun c => { c with halts := c.halts ++ [h] }
    | _, _ => s
  (s.quartersOf x).foldl (fun s q => s.sendAt (now + preemptDelay q) (.preempt q.hub q.core q.quarter x why)) s

/-- PREEMPTION_REQUEST (R328): the set `ev.set` and the reason `ev.why`. -/
def execPreemptionRequest (s : State) : Out := .next (s.preempt s.m.ev.set s.m.ev.why)

/-- A request reaches a quarter: the threads of the set there are HALTED (R305). A debug halt holds those that have not been
resumed meanwhile, and in its hub's first quarter the team's binned threads too. -/
def State.haltQuarter (s : State) (q : QRef) (x : HaltSet) (why : HaltWhy) : State :=
  let here := fun (t : Thread) => s.inSet t.ref x && (why != .debug || s.bornHalted t.ref q) && (match s.gangOf t with
    | some g => g.hub == q.hub && g.core == q.core && g.quarter == q.quarter
    | none => false)
  let stop : Thread → Thread := fun t =>
    if why == .save then { t with stopped := true } else if t.halt.isSome then t else { t with halt := some why }
  let bin : Bin → Bin := fun b =>
    if s.coversTeam b.team x && (why != .debug || s.debugStopped b.team) then
      { b with threads := b.threads.map fun (t : BinThread) => if t.halt.isSome then t else { t with halt := some why } }
    else b
  let s := s.modify fun m => { m with threads := updBy here stop m.threads }
  if why == .save || q.core != 0 || q.quarter != 0 then s else s.updHub q.hub fun h => { h with bins := h.bins.map bin }

/-- PREEMPTION_REACHES_QUARTER (R328): the message `ev.id`. -/
def execPreemptionReachesQuarter (s : State) : Out :=
  s.onMessage fun s msg => match msg with
    | .preempt hub core quarter x why => s.haltQuarter { hub := hub, core := core, quarter := quarter } x why
    | _ => s

/-! ## Save (R255, R271, R330) -/

/-- The binned threads of a team. -/
def State.binnedOf (s : State) (r : TeamRef) : Nat :=
  ((s.m.hubs.flatMap fun h => h.bins.filter (·.team == r)).map (·.threads.length)).sum

/-- The bytes that a save of the context's resident teams needs. -/
def State.saveBytes (s : State) (n : Nat) : Nat :=
  ((s.m.teams.filter fun t => s.ctxOf t.ref.kid == n).map fun t =>
    blockBytes ((s.m.gangs.filter (·.ref.teamRef == t.ref)).length) t.hsSize t.acc.length (s.binnedOf t.ref)).sum

/-- CONTEXT_SAVE (R261): context `ev.ctx`; its teams are pre-empted. -/
def execContextSave (s : State) : Out :=
  let n := s.m.ev.ctx
  let c := s.context n
  .next (if c.st != .active then s.ctxRefuse n 2
    else if c.savesize.toNat < s.saveBytes n then s.ctxRefuse n 3
    else
      let s := s.updContext n fun c => { c with st := .saving }
      let mine := fun (t : Team) => s.ctxOf t.ref.kid == n
      s.modify fun m =>
        { m with teams := updBy mine (fun t => { t with st := .saving }) m.teams
                 agenda := (.preemptionRequest, { set := .context n, why := .save }) :: m.agenda })

/-- A token of an operation that is saved with the team: a copy, an engine entry, a join or an absent load. -/
def Hub.savedToken (h : Hub) (t : Team) (tok : Nat) : Bool :=
  h.copies.any (fun x => x.team == t.ref && (x.tokRead == tok || x.tokWrite == tok))
    || h.reservations.any (fun e => e.team == t.ref
      && (e.entry == tok || e.reads.any (·.2 == tok) || e.writes.any (·.2 == tok)))
    || h.joins.any (fun j => j.1.teamRef == t.ref && j.2.1 == tok)
    || h.absent.any fun a => a.thread.teamRef == t.ref && a.tok == tok

/-- Nothing of the thread is on its way (R44, R329), and it enters no handler (R271). -/
def Hub.threadDrained (h : Hub) (t : Team) (x : Thread) : Bool :=
  let kept := fun (tok : Nat) => h.savedToken t tok || x.rsmp.any fun a => a.tok == tok
  x.halted && x.retWait.isNone && x.sfenceWait.isNone && x.pend.all (fun e => e.value.isSome || kept e.tok)
    && x.out.all (fun o => kept o.tok) && x.fences.all (·.stage == .waiting)
    && !(h.releases.any fun r => r.cont == .thread x.ref)
    && (match x.wait with
      | .acquire toks => toks.all fun k => kept k || x.fences.any (·.tok == k)
      | .trap .. => false
      | _ => true)

/-- The team can be written: its threads have drained, its pattern stands at a piece boundary, and the engine does nothing
for it (R255, R330). -/
def State.teamDrained (s : State) (t : Team) : Bool :=
  let h := s.hub t.hub
  let mine := fun (r : Option EngineRun) => match r with
    | some x => x.start.isSome && h.reservations.any fun e => e.entry == x.entry && e.team == t.ref
    | none => false
  let rsmp := match s.kernel? t.ref.kid with
    | some k => k.rsmp == .resampling || k.rsmp == .arrived
    | none => false
  t.st == .saving && !rsmp && (s.teamThreads t.ref).all (h.threadDrained t)
    && h.copies.all (fun x => x.team != t.ref || !x.started) && !mine h.fetch && !mine h.pass && !mine h.port

/-- The poisoned units of a window range, numbered from a start. -/
def State.poisonOf (s : State) (kind a n start : Nat) : List (Nat × Nat) :=
  (s.m.winPoison.filter fun u => a ≤ u * 8 && u * 8 < a + n).map fun u => (kind, start + u - a / 8)

/-- Every PENDING tack entry of a team is struck, and the next `tack.chk` of a thread with an open window branches (R209). -/
def State.strikeTeam (s : State) (t : Team) : State :=
  let mine := (s.hub t.hub).cores.toList.flatMap fun c => c.tacks.filter fun e => e.thread.teamRef == t.ref
  let s := s.updHub t.hub fun h =>
    { h with cores := h.cores.map fun c => { c with tacks := c.tacks.filter fun e => e.thread.teamRef != t.ref } }
  let s := mine.foldl (fun s e => s.resolveTack t.hub e.thread false) s
  let struck : Thread → Thread := fun x =>
    if x.ref.teamRef == t.ref && tackOpenBit x.tackst then { x with tackst := setBits x.tackst 2 1 1 } else x
  s.modify fun m => { m with threads := m.threads.map struck }

/-- A range lock with its scratch bytes as offsets in the team's allocation. -/
def RangeLock.relative (r : RangeLock) (base : Nat) : RangeLock :=
  if r.hs then { r with lo := r.lo - base, hi := r.hi - base } else r
/-- A range lock at another allocation. -/
def RangeLock.absolute (r : RangeLock) (base : Nat) : RangeLock :=
  if r.hs then { r with lo := r.lo + base, hi := r.hi + base } else r

/-- The team as it is written. -/
def State.teamImage (s : State) (t : Team) : SavedTeam :=
  let h := s.hub t.hub
  let now := s.m.cycle
  let gangs := sortKey (fun (g : Gang) => [g.ref.gang]) (s.m.gangs.filter (·.ref.teamRef == t.ref))
  let hs := windowAddr t.hub 0 t.hsBase
  let nth := fun {α : Type} (l : List α) (f : Nat → α → List (Nat × Nat)) =>
    (List.range l.length).flatMap fun i => ((l[i]?).map (f i)).getD []
  { at_ := 0
    team := { t with loans := [] }
    gangs := gangs
    threads := s.teamThreads t.ref
    reservations := sortKey (fun (e : Reservation) => [e.seq]) (h.reservations.filter (·.team == t.ref))
    copies := h.copies.filter (·.team == t.ref)
    -- an `mma` fetches its next pass anew, and holds the ranges of all its operands for it (R256)
    locks := ((h.locks.filter fun r => r.ended.isNone && h.copies.any fun x => x.team == t.ref && x.id == r.owner)
      ++ (h.reservations.filter fun e => e.team == t.ref && e.locked).flatMap (·.locks t)).map (·.relative t.hsBase)
    absent := h.absent.filter fun a => a.thread.teamRef == t.ref
    joins := (h.joins.filter fun j => j.1.teamRef == t.ref).map fun j => (j.1, j.2.1, j.2.2 - hs)
    scratch := s.winRead hs t.hsSize
    accs := t.acc.flatMap fun z => s.winRead (accAddr t.hub z 0 0) 16384
    frames := gangs.flatMap fun g => s.winRead (ksAddr g 0) 2048
    poison := s.poisonOf 0 hs t.hsSize 0
      ++ nth t.acc (fun i z => s.poisonOf 1 (accAddr t.hub z 0 0) 16384 (2048 * i))
      ++ nth gangs (fun i g => s.poisonOf 2 (ksAddr g 0) 2048 (256 * i))
    bins := (h.bins.filter (·.team == t.ref)).map fun b => { b with since := now - b.since } }

/-- A team leaves its hub for the save area. -/
def State.saveTeam (s : State) (r : TeamRef) : State :=
  match s.team? r with
  | none => s
  | some t =>
    if !s.teamDrained t then s
    else
      let s := s.strikeTeam t
      let x := s.teamImage t
      let gangs := x.gangs
      let n := s.ctxOf r.kid
      let s := s.updContext n fun c => { c with saved := c.saved ++ [{ x with team := { x.team with st := .saved } }] }
      let s := s.updHub t.hub fun h => { (h.dropTeam r s.m.cycle) with fetch := h.fetch.filter fun f =>
        !(h.reservations.any fun e => e.entry == f.entry && e.team == r) }
      let s := s.modify fun m =>
        { m with threads := m.threads.filter (·.ref.teamRef != r)
                 gangs := m.gangs.filter (·.ref.teamRef != r)
                 teams := m.teams.filter (·.ref != r) }
      let s := (t.loans.flatMap fun l => [l.1, l.2]).foldl (·.retarget ·) s
      gangs.foldl (fun s g => s.leaveQuarter r.kid { hub := g.hub, core := g.core, quarter := g.quarter }) s

/-- TEAM_SAVE (R271): the team of `ev.thread`. -/
def execTeamSave (s : State) : Out := .next (s.saveTeam s.m.ev.thread.teamRef)

/-- The last team of a SAVING context is saved, or the last of a RESTORING one restored (R261); a held destroy acts. -/
def State.contextSettles (s : State) (n : Nat) : State :=
  let c := s.context n
  let s := match c.st with
    | .saving => (s.writeSaveArea n).updContext n fun c => { c with st := .saved }
    | .restoring => (s.updContext n fun c => { c with st := .active }).wakeQueues n
    | _ => s
  if c.heldDestroy then (s.updContext n fun c => { c with heldDestroy := false }).destroyContext n else s

/-- A context of which every team has been saved, or restored. -/
def State.contextDone (s : State) (c : Context) : Bool :=
  match c.st with
  | .saving => !(s.m.teams.any fun t => s.ctxOf t.ref.kid == c.num)
  | .restoring => c.saved.isEmpty
  | _ => false

/-! ## Restore (R46, R256, R272) -/

/-- CONTEXT_RESTORE (R261): context `ev.ctx`. -/
def execContextRestore (s : State) : Out :=
  let n := s.m.ev.ctx
  .next (if (s.context n).st == .saved then s.updContext n fun c => { c with st := .restoring } else s.ctxRefuse n 2)

/-- The gangs of a saved team take the lowest free slots of their cores. -/
def HubUse.seatGangs (u : HubUse) (gangs : List Gang) : Option (List (Gang × Nat × Nat)) :=
  let seats := (List.range gangs.length).map fun i => (gangs[i]?).bind fun g =>
    let before := ((gangs.take i).filter (·.core == g.core)).length
    ((u.free g.core)[before]?).map fun p => (g, p.1, p.2)
  if seats.all (·.isSome) then some (seats.filterMap id) else none

/-- The budgets of a team in its new quarters: the blocks of each role, or those it holds there. -/
def budgetsOf (l : LaunchRec) (seats : List (Gang × Nat × Nat)) : List Budget :=
  ((seats.map fun x => (x.1.core, x.2.1, x.1.role)).eraseDups).map fun k =>
    let held := ((seats.filter fun x => (x.1.core, x.2.1, x.1.role) == k).map fun x => x.1.blocks.length).sum
    let own := seats.any fun x => (x.1.core, x.2.1, x.1.role) == k && !x.1.binned
    { core := k.1, quarter := k.2.1, role := k.2.2,
      blocks := Nat.max held (if own then ((l.roles[k.2.2]?).map (·.blocks)).getD 0 else 0) }

/-- The bins of a saved team in the bins of a hub (R272, R321); none: they do not fit. -/
def Hub.takeBins (h : Hub) (bins : List Bin) (now : Nat) : Option Hub :=
  bins.foldl (fun (acc : Option Hub) b => acc.bind fun h =>
    b.threads.foldl (fun (acc : Option Hub) t => acc.bind fun h => (h.binFor b.team b.role b.entry).map fun n =>
      let h' := h.enterBin n (now - b.since) b.team b.role b.entry t
      { h' with bins := updBy (·.num == n) (fun x => { x with expired := x.expired || b.expired }) h'.bins }) (some h)) (some h)

/-- The room of a hub's tables for a saved team. -/
def Hub.roomFor (h : Hub) (x : SavedTeam) : Bool :=
  h.reservations.length + x.reservations.length ≤ 32 && h.locks.length + x.locks.length ≤ lockEntries
    && h.copies.length + x.copies.length ≤ 64

/-- Where a saved team goes on a hub: its seats, its allocation and its accumulators. A population's team goes back to its
place. -/
def State.restoreSeating (s : State) (x : SavedTeam) (l : LaunchRec) (hub : Nat) :
    Option (List (Gang × Nat × Nat) × Nat × List Nat × List Budget) :=
  let place := (s.kernel? x.team.ref.kid).bind fun k => k.places.find? (·.num == x.team.ref.team)
  if l.pop then match place, x.gangs with
    | some p, [g] => if p.hub == hub then
        let seats := [(g, p.quarter, p.slot)]
        some (seats, p.hsBase, p.acc, budgetsOf l seats)
      else none
    | _, _ => none
  else
    let u := s.hubUse hub
    match u.seatGangs x.gangs, u.range x.team.hsSize, u.accs x.team.acc.length with
    | some seats, some base, some acc =>
      let bs := budgetsOf l seats
      if u.blocksFit bs then some (seats, base, acc, bs) else none
    | _, _, _ => none

/-- Place of a gang's complete `xacq` request among those of its team, in their saved order; none: it has none (R318). -/
def xacqRank (gangs : List Gang) (g : Gang) : Option Nat :=
  let place := fun (g : Gang) => (g.xacq.filter (·.complete)).map fun r => [r.since, r.order]
  (place g).map fun p => (gangs.filter fun x => match place x with
    | some y => lexLt y p
    | none => false).length

/-- A gang in its new place: its extended blocks are the lowest free ones of its quarter, and its request stands behind those
that the quarter's queue holds (R318). -/
def State.placeGang (s : State) (g : Gang) (rank : Option Nat) (hub quarter slot : Nat) : State :=
  let q : QRef := { hub := hub, core := g.core, quarter := quarter }
  let now := s.m.cycle
  let base := 32 + (s.quarter q).xacqSeq
  let queued : XacqReq → XacqReq := fun r => match rank with
    | some k => { r with since := now, order := base + k }
    | none => r
  let g := { g with hub := hub, quarter := quarter, slot := slot, blocks := (s.freeBlocks q).take g.blocks.length
                    xacq := g.xacq.map queued }
  s.modify fun m => { m with gangs := m.gangs ++ [g] }

/-- A saved thread goes on where it stood; one that waited for a translation is PARKED on it still, and asks again with a
packet of its own (R272). -/
def Thread.restored (t : Thread) : Thread := { t with stopped := false }

/-- The wakes of a restored team's threads that waited for translations: they issue their instructions again. -/
def SavedTeam.resumes (x : SavedTeam) (at_ : Nat) : List Resume :=
  let ts := x.threads.filter (·.wait == .translation)
  ((ts.map fun t => (t.ref.gangRef, t.pc)).eraseDups).map fun k =>
    { at_ := at_, threads := (ts.filter fun t => t.ref.gangRef == k.1 && t.pc == k.2).map (·.ref), pc := k.2,
      fetch := true, denied := none }

/-- Bytes of the saved blocks go to their windows. -/
def State.restoreBytes (s : State) (x : SavedTeam) (t : Team) (gangs : List Gang) : State :=
  let s := s.winWrite (windowAddr t.hub 0 t.hsBase) x.scratch
  let s := (List.range t.acc.length).foldl (fun s i =>
    s.winWrite (accAddr t.hub (t.acc.getD i 0) 0 0) ((x.accs.drop (16384 * i)).take 16384)) s
  let s := (List.range gangs.length).foldl (fun s i => match gangs[i]? with
    | some g => s.winWrite (ksAddr g 0) ((x.frames.drop (2048 * i)).take 2048)
    | none => s) s
  let unit := fun (p : Nat × Nat) => match p.1 with
    | 0 => windowAddr t.hub 0 t.hsBase / 8 + p.2
    | 1 => accAddr t.hub (t.acc.getD (p.2 / 2048) 0) 0 0 / 8 + p.2 % 2048
    | _ => ((gangs[p.2 / 256]?).map fun g => ksAddr g 0 / 8 + p.2 % 256).getD 0
  s.modify fun m => { m with winPoison := x.poison.map unit ++ m.winPoison }

/-- An absent load at its team's new place. -/
def Access.moved (a : Access) (t : Team) (gangs : List Gang) : Access :=
  match gangs.find? (·.ref == a.thread.gangRef) with
  | some g => { a with hub := g.hub, core := g.core, quarter := g.quarter, pa := hsAddr t a.ea }
  | none => a

/-- A saved team stands on a hub again. -/
def State.restoreOn (s : State) (x : SavedTeam) (h : Hub) (seats : List (Gang × Nat × Nat)) (base : Nat)
    (acc : List Nat) (budgets : List Budget) : State :=
  let hub := h.hub
  let r := x.team.ref
  let t := { x.team with st := .resident, hub := hub, hsBase := base, acc := acc, budgets := budgets }
  let s := seats.foldl (fun s p => s.placeGang p.1 (xacqRank x.gangs p.1) hub p.2.1 p.2.2) s
  let s := seats.foldl (fun s p =>
    s.updQuarter { hub := hub, core := p.1.core, quarter := p.2.1 } fun q => { q with xacqSeq := q.xacqSeq + x.gangs.length }) s
  let gangs := sortKey (fun (g : Gang) => [g.ref.gang]) (s.m.gangs.filter (·.ref.teamRef == r))
  let s := (s.clearTeam t gangs).restoreBytes x t gangs
  let seq := h.postSeq
  let entries := (List.range x.reservations.length).filterMap fun i => (x.reservations[i]?).map fun e =>
    { e with seq := seq + i, tiles := [], fetched := e.granted }
  let s := s.setHub { h with
    reservations := h.reservations ++ entries, postSeq := seq + entries.length
    copies := h.copies ++ x.copies
    locks := h.locks ++ x.locks.map (·.absolute base)
    absent := h.absent ++ x.absent.map (·.moved t gangs)
    joins := h.joins ++ x.joins.map fun j => (j.1, j.2.1, windowAddr hub 0 base + j.2.2) }
  let s := s.modify fun m => { m with teams := m.teams ++ [t], threads := m.threads ++ x.threads.map (·.restored)
                                      resumes := m.resumes ++ x.resumes (m.cycle + 1) }
  let s := s.updKernel r.kid fun k => { k with hubs := if k.hubs.contains hub then k.hubs else k.hubs ++ [hub] }
  s.updContext (s.ctxOf r.kid) fun c => { c with saved := c.saved.filter (·.team.ref != r) }

/-- The first permitted hub that can hold a saved team takes it (R272). -/
def State.restoreTeam (s : State) (x : SavedTeam) : State :=
  let n := s.ctxOf x.team.ref.kid
  let x := s.readTeam n x
  match s.launch? x.team.ref.kid with
  | none => s
  | some l =>
    let c := s.context n
    let now := s.m.cycle
    let hubs := (s.partitionHubs l.part).filter fun h => c.pmask / 2 ^ dieOf h % 2 == 1
    let fits := fun (n : Nat) =>
      let h := s.hub n
      if !h.roomFor x then none
      else match s.restoreSeating x l n, h.takeBins x.bins now with
        | some (seats, base, acc, bs), some h => some (h, seats, base, acc, bs)
        | _, _ => none
    match hubs.findSome? fits with
    | some (h, seats, base, acc, bs) => s.restoreOn x h seats base acc bs
    | none => s

/-- The saved team that is placed next. -/
def State.nextRestore (s : State) (c : Context) : Option SavedTeam :=
  if c.st != .restoring then none
  else leastBy (fun (x : SavedTeam) => [x.team.ref.kid, x.team.ref.team]) (c.saved.filter fun x =>
    decide ((s.restoreTeam x).m.teams.length ≠ s.m.teams.length))

/-- TEAM_RESTORE (R272): the next saved team of context `ev.ctx`. -/
def execTeamRestore (s : State) : Out :=
  .next (match s.nextRestore (s.context s.m.ev.ctx) with
    | some x => s.restoreTeam x
    | none => s)

/-! ## Debug sessions (R274 to R276) -/

/-- A command of context n acts: the right holds, and has not been revoked in this cycle (R275). -/
def State.debugRight (s : State) (n : Nat) : Bool :=
  let c := s.context n
  c.st != .free && c.dbg && !c.revoke
/-- A command of an open session acts. -/
def State.inSession (s : State) (n : Nat) : Bool := s.debugRight n && (s.context n).session

/-- DEBUG_SESSION_OPEN (R274): context `ev.ctx`. -/
def execDebugSessionOpen (s : State) : Out :=
  let n := s.m.ev.ctx
  .next (if s.debugRight n then s.updContext n fun c => { c with session := true } else s)

/-- DEBUG_HALT (R274): the set `ev.set`, of the session's own context. -/
def execDebugHalt (s : State) : Out :=
  let e := s.m.ev
  let own := match e.set with
    | .thread t => s.ctxOf t.kid == e.ctx
    | .gang g => s.ctxOf g.kid == e.ctx
    | .team t => s.ctxOf t.kid == e.ctx
    | .context n => n == e.ctx
    | .module => false
  .next (if s.inSession e.ctx && own then s.modify fun m =>
      { m with agenda := (.preemptionRequest, { set := e.set, why := .debug }) :: m.agenda }
    else s)

/-- A thread of a context that is HALTED or SAVED, with its gang: after a `ret` it reaches its next instruction when the stack
read has returned (R124, R274). -/
def State.debugThread (s : State) (n : Nat) (r : ThreadRef) : Option (Thread × Option Gang) :=
  match (s.thread? r).filter fun t => t.halted && t.retWait.isNone && s.ctxOf r.kid == n with
  | some t => some (t, s.gangOf t)
  | none => (s.savedTeams n).findSome? fun x => (x.threads.find? (·.ref == r)).map fun t =>
      (t, x.gangs.find? (·.ref == r.gangRef))

/-- The images of a thread and of its gang. -/
def State.debugImage (s : State) (t : Thread) : Option Gang → List Byte
  | some g => t.image g.blocks.length ++ g.image (s.priority g)
  | none => t.image 2

/-- DEBUG_READ (R274): the images of thread `ev.thread` and its gang leave through port 0. -/
def execDebugRead (s : State) : Out :=
  let e := s.m.ev
  .next (if s.inSession e.ctx then match s.debugThread e.ctx e.thread with
      | some (t, g) => s.emit 0 (packet Packet.image 0 0 (s.debugImage t g))
      | none => s
    else s)

/-- DEBUG_STAGE_EDIT (R274): the edit `ev.edit` of thread `ev.thread`. -/
def execDebugStageEdit (s : State) : Out :=
  let e := s.m.ev
  .next (if s.inSession e.ctx && (s.debugThread e.ctx e.thread).isSome then
      s.updContext e.ctx fun c => { c with edits := c.edits ++ [(e.thread, e.edit)] }
    else s)

/-- A trap register with another value: `xcause`, `xpc`, `xaddr`, `xword0` to `xword3` and `xfld` in this order. -/
def TrapRegs.edited (x : TrapRegs) (n : Nat) (v : Dword) : TrapRegs :=
  match n with
  | 0 => { x with cause := xcauseKept (lowHalf v) }
  | 1 => { x with pc := addr57 v }
  | 2 => { x with addr := addr57 v }
  | 3 => { x with word0 := lowHalf v }
  | 4 => { x with word1 := lowHalf v }
  | 5 => { x with word2 := lowHalf v }
  | 6 => { x with word3 := v }
  | _ => { x with fld := xfldKept v }

/-- Entry n of a pending list with another destination and count, at another place in the order; the entry after the last one
is a new one, and an entry of no registers goes. -/
def editPending (l : List Pending) (n reg count order : Nat) : List Pending :=
  let l := if n == l.length && n < 8 then l ++ [Pending.blank] else l
  match l[n]? with
  | none => l
  | some e =>
    let e := { e with reg := reg, count := count, value := e.value.map fun v => (v ++ List.replicate count 0).take count }
    let rest := l.eraseIdx n
    (rest.take order ++ e :: rest.drop order).filter (·.count != 0)

/-- An edit in a thread; that of a gang register acts on its gang. -/
def Thread.edited (t : Thread) : EditWhat → Thread
  | .vreg n x => t.setRegs n [x]
  | .preds x => { t with p := x ||| 1 }
  | .pc x => { t with pc := addr57 x }
  | .fmode x => { t with fmode := x }
  | .sptr x => { t with sptr := x }
  | .lineage x => { t with lineage := x }
  | .rngctr x => { t with rngctr := x }
  | .tackst x => { t with tackst := tackstKept x }
  | .popst x => { t with popst := popstKept x }
  | .spawns n => { t with spawns := n }
  | .trapReg n x => { t with x := t.x.edited n x }
  | .pending n k x => { t with pend := updAt n (fun e => { e with value := e.value.map (updAt k fun _ => x) }) t.pend }
  | .pendingEntry n reg count order => { t with pend := editPending t.pend n reg count order }
  | .nest n => { t with nest := n }
  | .pass n => { t with pass := n }
  | .state code => t.withState code
  | .arrived n x => { t with arr := if x then t.arr ||| (1#16 <<< n) else t.arr &&& ~~~(1#16 <<< n) }
  | .phase n x => { t with ph := t.ph.setIfInBounds n x }
  | .greg _ _ => t

/-- The edits of a context in a thread that is HALTED or SAVED. -/
def Thread.applyEdits (t : Thread) (es : List (ThreadRef × EditWhat)) : Thread :=
  (es.filter (·.1 == t.ref)).foldl (fun t e => t.edited e.2) t

/-- The edits of a gang's registers. -/
def Gang.applyEdits (g : Gang) (es : List (ThreadRef × EditWhat)) : Gang :=
  (es.filter (·.1.gangRef == g.ref)).foldl (fun g e => match e.2 with
    | .greg n x => g.setRegs n [x]
    | _ => g) g

/-- DEBUG_COMMIT (R274): the staged edits of context `ev.ctx`, in the threads that are HALTED or SAVED now. -/
def execDebugCommit (s : State) : Out :=
  let n := s.m.ev.ctx
  .next (if s.inSession n then
      let live := (s.context n).edits.filter fun e => (s.thread? e.1).any fun t => t.halted && t.retWait.isNone
      let es := (s.context n).edits
      let s := s.modify fun m =>
        { m with threads := m.threads.map (·.applyEdits live), gangs := m.gangs.map (·.applyEdits live) }
      let saved : SavedTeam → SavedTeam := fun x =>
        { x with threads := x.threads.map (·.applyEdits es), gangs := x.gangs.map (·.applyEdits es) }
      (if es.isEmpty then s else s.resave n saved).updContext n fun c => { c with edits := [] }
    else s)

/-- DEBUG_SET_BREAKPOINT (R274): slot `ev.index` at address `ev.addr`. -/
def execDebugSetBreakpoint (s : State) : Out :=
  let e := s.m.ev
  .next (if s.inSession e.ctx && e.index < 16 then s.updContext e.ctx fun c =>
      { c with breakpoints := putBy (·.slot == e.index) { slot := e.index, addr := addr57 e.addr } c.breakpoints }
    else s)

/-- DEBUG_SET_TAKEBRK (R276): `ev.flag`. -/
def execDebugSetTakebrk (s : State) : Out :=
  let e := s.m.ev
  .next (if s.inSession e.ctx then s.updContext e.ctx fun c => { c with takebrk := e.flag } else s)

/-- A halted thread goes on in the state it kept; one that a breakpoint halted issues its instruction once (R274). A thread
that a save has stopped stays stopped (R328). -/
def Thread.resumed (t : Thread) : Thread :=
  match t.halt with
  | some w => { t with halt := none, stepOver := w == HaltWhy.breakpoint }
  | none => t

/-- Binned threads go on (R305). -/
def Bin.resumed (b : Bin) : Bin := { b with threads := b.threads.map fun t => { t with halt := none } }

/-- The debug halts that stand after a set has been resumed. -/
def resumeHalts (x : HaltSet) (hs : List DebugHalt) : List DebugHalt :=
  (hs.filter fun h => h.set != x && (match x with
    | .context _ | .module => false
    | _ => true)).map fun h => { h with resumed := x :: h.resumed }

/-- The threads of a set in a context are resumed. -/
def State.debugResume (s : State) (n : Nat) (x : HaltSet) : State :=
  let mine := fun (t : Thread) => s.inSet t.ref x && s.ctxOf t.ref.kid == n
  let bin : Bin → Bin := fun b => if s.coversTeam b.team x && s.ctxOf b.team.kid == n then b.resumed else b
  let saved : SavedTeam → SavedTeam := fun y => { y with threads := updBy mine (·.resumed) y.threads, bins := y.bins.map bin }
  let s := s.modify fun m => { m with
    threads := updBy mine (·.resumed) m.threads
    hubs := m.hubs.map fun h => { h with bins := h.bins.map bin } }
  let s := if (s.context n).saved.isEmpty then s else s.resave n saved
  s.updContext n fun c => { c with halts := resumeHalts x c.halts }

/-- DEBUG_RESUME (R274): the threads of `ev.set` in the session's context. -/
def execDebugResume (s : State) : Out :=
  let e := s.m.ev
  .next (if s.inSession e.ctx then s.debugResume e.ctx e.set else s)

/-- A revocation makes a thread that the session halted READY at its program counter (R275; log entry 105). -/
def Thread.revoked (t : Thread) : Thread :=
  if t.halt.isSome then { t with halt := none, st := .ready, inHandler := false, wait := .none } else t

/-- The debug right of a context ends (R275). -/
def State.revokeDebug (s : State) (n : Nat) : State :=
  let mine := fun (t : Thread) => s.ctxOf t.ref.kid == n
  let bin : Bin → Bin := fun b => if s.ctxOf b.team.kid == n then b.resumed else b
  let saved : SavedTeam → SavedTeam := fun y => { y with threads := y.threads.map (·.revoked), bins := y.bins.map (·.resumed) }
  let s := s.modify fun m => { m with
    threads := updBy mine (·.revoked) m.threads
    hubs := m.hubs.map fun h => { h with bins := h.bins.map bin } }
  let s := if (s.context n).saved.isEmpty then s else s.resave n saved
  s.updContext n fun c =>
    { c with dbg := false, revoke := false, session := false, edits := [], breakpoints := [], takebrk := false, halts := [] }

/-- DEBUG_RIGHT_REVOKE (R275): the end of the cycle in which FLAGS [1] of context `ev.ctx` was cleared. -/
def execDebugRightRevoke (s : State) : Out :=
  let n := s.m.ev.ctx
  .next (if !(s.context n).revoke then s else s.revokeDebug n)

end Sys2Proof.Machine
end

