-- ==== Sys2Proof/Machine/Measure.lean ====
section
/-! DEFINITION. `mark`, the event counters, the sampler, the error log, the planner's epoch and the thermal cap (R157,
R158, R412, R416 to R419, R421 to R427). -/

namespace Sys2Proof.Machine

/-! ## mark (R419) -/

/-- mark in one thread: a record for the sessions that take source 1. -/
def State.marks (s : State) (c : Code) (t : Thread) : State :=
  let ctx := s.ctxOf t.ref.kid
  let k := s.kernel? t.ref.kid
  let r : TraceReq :=
    { key := s.recordKey t, ctx := ctx, bit := 0, src := 1, pc := addr57 t.pc, lineage := t.lineage,
      corr := (k.map fun k => lowHalf k.corr).getD 0, team := BitVec.ofNat 32 t.ref.team, knum := (k.map (·.knum)).getD 0,
      gang := t.ref.gang, lane := t.ref.lane, data0 := (s.lane c t).word c.fields.a, data1 := BitVec.allOnes 64,
      data2 := BitVec.allOnes 64, cycle := s.m.cycle }
  let s := if (s.context ctx).traces.any fun x => x.mask.getLsbD 0 then
      s.modify fun m => { m with traces := m.traces ++ [r] }
    else s
  s.setThread (t.finish c)

/-- MARK (R419). -/
def execMark (o : Base) (s : State) : Out := .next (s.run (.base 0x7D o) fun s t => s.marks (.base 0x7D o) t)
/-- MARK_EXT (R419). -/
def execMarkExt (o : Ext) (s : State) : Out := .next (s.run (.ext 0x7D o) fun s t => s.marks (.ext 0x7D o) t)

/-! ## Counters (R412) -/

/-- COUNTER_CLEAR (R412): counter `ev.index` of hub `ev.hub`. -/
def execCounterClear (s : State) : Out :=
  .next { s with hcnt := s.hcnt.filter (·.1 != (s.m.ev.hub, s.m.ev.index)) }

/-! ## The sampler (R416, R417) -/

/-- Every enabled hub of the module. -/
def allHubs : List Nat := (List.range 8).flatMap enabledHubs

/-- The next period for a number of taken entries. -/
def nextPeriod (p taken : Nat) : Nat :=
  if 48 < taken then Nat.min (2 * p) (2 ^ 20) else if taken < 16 then Nat.max (p / 2) 64 else p

/-- The records of a period change: one for each context with open sessions. -/
def State.tracePeriod (s : State) (hub old new : Nat) : State :=
  let ones : Dword := BitVec.allOnes 64
  let rs := (s.m.contexts.toList.filter fun c => c.traces.any fun x => x.mask.getLsbD 4).map fun c =>
    ({ key := [hub, 2], ctx := c.num, bit := 4, src := 8, pc := ones, lineage := ones, corr := BitVec.allOnes 32,
       team := BitVec.allOnes 32, knum := BitVec.allOnes 32, gang := 0xFFFF, lane := 0xFF, data0 := BitVec.ofNat 32 new,
       data1 := BitVec.ofNat 64 old, data2 := ones, cycle := s.m.cycle } : TraceReq)
  s.modify fun m => { m with traces := m.traces ++ rs }

/-- The test of one hub. -/
def State.testPeriod (s : State) (hub : Nat) : State :=
  let h := s.hub hub
  let p := nextPeriod h.samplePeriod h.samples.length
  if p == h.samplePeriod then s
  else (s.setHub { h with samplePeriod := p, sampleCount := 0 }).tracePeriod hub h.samplePeriod p

/-- SAMPLE_PERIOD_TEST (R417) in every hub. -/
def execSamplePeriodTest (s : State) : Out := .next (allHubs.foldl (fun s h => s.testPeriod h) s)

/-- An access stands at the input of its L1 slice: in its core's port, or held. -/
def Hub.waitsL1 (h : Hub) (a : Access) : Bool :=
  (h.ports.any fun p => p.2.any (·.tok == a.tok)) || h.held.any (·.tok == a.tok)

/-- The request of an access, or of the fill that it waits for, stands at the input of its L2 slice. -/
def State.waitsL2 (s : State) (h : Hub) (a : Access) : Bool :=
  s.m.l2held.any fun x => match x.req.back with
    | .access b => b.tok == a.tok
    | .fill hub _ => hub == h.hub && h.fills.any fun f => f.req == x.req.id && f.waiters.any (·.2.tok == a.tok)
    | _ => false

/-- A cycle of waiting, in a field that saturates (R416). -/
def oneMoreCycle (waits : Bool) (n : Nat) : Nat := if waits then Nat.min (n + 1) 65535 else n

/-- A cycle passes for the sampled accesses in flight: each adds it at the stage where it waits (R416). -/
def State.countStages (s : State) : State :=
  s.m.hubs.foldl (fun s h =>
    if h.samples.isEmpty then s
    else
      let add : SampleEntry → SampleEntry := fun e =>
        if e.finish.isSome then e
        else { e with l1 := oneMoreCycle (h.waitsL1 e.acc) e.l1, l2 := oneMoreCycle (s.waitsL2 h e.acc) e.l2 }
      s.updHub h.hub fun h => { h with samples := h.samples.map add }) s

/-- The record of a completed sample (R415, R416). The waits within the crossbar, the crossings between dies and the memory
controllers are a part of latencies that the spec leaves to the part, and free (log entry 4). -/
def State.traceSample (s : State) (e : SampleEntry) (done : Nat) : State :=
  let a := e.acc
  let k := s.kernel? a.thread.kid
  let (free, s) := s.freeBytes 6
  let total := Nat.min (done - a.issued) 65535
  let store := match a.op with
    | .load | .prefetch _ => 0
    | _ => 1
  let r : TraceReq :=
    { key := [a.hub, 0, a.core, a.quarter, a.thread.lane], ctx := s.ctxOf a.thread.kid, bit := 3, src := 7, pc := addr57 a.pc,
      lineage := a.lineage, corr := (k.map fun k => lowHalf k.corr).getD 0, team := BitVec.ofNat 32 a.thread.team,
      knum := (k.map (·.knum)).getD 0, gang := a.thread.gang, lane := a.thread.lane,
      data0 := BitVec.ofNat 32 (fieldAt free 0 2 + total * 65536),
      data1 := BitVec.ofNat 64 (e.l1 + fieldAt free 2 2 * 2 ^ 16 + e.l2 * 2 ^ 32 + fieldAt free 4 2 * 2 ^ 48),
      data2 := BitVec.ofNat 64 (store + if e.stale then 2 else 0), cycle := s.m.cycle }
  s.modify fun m => { m with traces := m.traces ++ [r] }

/-- SAMPLED_ACCESS_COMPLETE (R416): entry `ev.index` of hub `ev.hub`. -/
def execSampledAccessComplete (s : State) : Out :=
  let e := s.m.ev
  .next (match (s.hub e.hub).samples.find? fun x => x.index == e.index && x.finish.isSome with
    | some x =>
      (s.traceSample x (x.finish.getD 0)).updHub e.hub fun h => { h with samples := h.samples.filter (·.index != e.index) }
    | none => s)

/-! ## Errors (R157, R158, R418) -/

/-- A record of the error log: dropped and counted when the ring is full. -/
def State.logError (s : State) (addr array kind die hub : Nat) : State :=
  let g := s.mgmt
  if g.elogtail - g.eloghead == g.elogsize then
    { s with mgmt := { g with elogdrop := if g.elogdrop == 0xFFFFFFFF then g.elogdrop else g.elogdrop + 1 } }
  else
    let a := g.elogbase.toNat + 32 * (g.elogtail.toNat % Nat.max g.elogsize.toNat 1)
    let bs := bytesOfNat 8 s.m.cycle ++ bytesOfNat 8 addr ++ bytesOfNat 1 array ++ bytesOfNat 1 kind ++ bytesOfNat 1 die
      ++ bytesOfNat 1 hub ++ bytesOfNat 12 0
    let s := s.apart (·.paWrite a bs logHub)
    { s with mgmt := { s.mgmt with elogtail := s.mgmt.elogtail + 1 } }

/-- A record of a unit of a hub. -/
def State.logHub (s : State) (addr array kind hub : Nat) : State := s.logError addr array kind (dieOf hub) (hub % 32)

/-- The L1 line of an address in a hub, of whatever owner. -/
def Hub.anyLine (h : Hub) (pa : Nat) : Option L1Line := h.l1.find? (·.pa == lineOf pa)

/-- The write-backs of a sector by a hub that have not reached its home, in their order. -/
def State.backsOf (s : State) (hub line k : Nat) : List (List (Nat × Byte) × Bool) :=
  s.requests.filterMap fun r => match r.back, r.op with
    | .writeBack h .here l i, .write bs _ bad => if h == hub && l == line && i == k then some (bs, bad) else none
    | _, _ => none

/-- A clean sector as its home gives it again, behind the hub's own write-backs on their way (R142, R157). -/
def State.refetched (s : State) (hub : Nat) (l : L1Line) (k : Nat) : L1Sector :=
  let pa := l.pa + 32 * k
  let ws := s.backsOf hub l.pa k
  let data := ws.foldl (fun d w => w.1.foldl (fun d c => setSectorByte d (c.1 % 32) c.2) d) (sectorOfBytes (s.homeRead pa 32))
  let version := match s.l2Line? (homeSlice pa) l.pa with
    | some y => if y.tag == l.tag && ws.isEmpty then some (y.versions.toArray.getD k 0) else none
    | none => none
  { l.sector k with data := data, version := version
                    poison := ws.foldl (fun p w => w.2 || (p && w.1.length != 32)) (s.homePoison pa) }

/-- A clean L1 sector is fetched again from its home, with its version; a dirty one is poisoned (R157). A line of another
module leaves the slice, so that its next access fetches it again. -/
def State.l1DataError (s : State) (hub pa k : Nat) : State :=
  match (s.hub hub).anyLine pa with
  | none => s
  | some l =>
    let x := l.sector k
    let put := fun (x : L1Sector) => s.updHub hub (·.setLine { l with sectors := l.sectors.setIfInBounds k x })
    if x.mask != 0 then put { x with poison := true }
    else if l.place == .here then put (s.refetched hub l k)
    else (s.writeBackLine hub l).updHub hub (·.dropLine l.place l.pa)

/-- The unit's dirty sector. -/
def State.l1Dirty (s : State) (hub pa k : Nat) : Bool :=
  match (s.hub hub).anyLine pa with
  | some l => (l.sector k).mask != 0
  | none => false

/-- An L1 line with a bad tag is dropped; a dirty one is poisoned and written back (R157). -/
def State.l1TagError (s : State) (hub pa : Nat) : State :=
  match (s.hub hub).anyLine pa with
  | none => s
  | some l =>
    let bad : L1Line := { l with sectors := l.sectors.map fun x => { x with poison := x.poison || x.mask != 0 } }
    (s.writeBackLine hub bad).updHub hub (·.dropLine l.place l.pa)

/-- The array's code in a record (R418). -/
def arrayCode : ErrorUnit → Nat
  | .threadReg .. => 1
  | .gangReg .. => 2
  | .l1Data .. => 3
  | .l1Tag .. | .translation .. | .tack .. => 4
  | .hubScratch _ => 5
  | .coreScratch _ => 6
  | .accumulator _ => 7
  | .l2 .. => 8
  | .hbm _ => 9
  | .ddr _ => 10
  | .other .. => 0

/-- A 64-bit unit of a window is poisoned. -/
def State.poisonWindow (s : State) (w : Nat) : State :=
  s.modify fun m => { m with winPoison := if m.winPoison.contains (w / 8) then m.winPoison else w / 8 :: m.winPoison }

/-- A line of HBM4 or of the DDR-5 tier is poisoned, in each of its sectors. -/
def State.poisonLine (s : State) (pa : Nat) : State :=
  let units := (List.range 4).map fun k => lineOf pa + 32 * k
  { s with memPoison := units ++ s.memPoison.filter (!units.contains ·) }

/-- An uncorrectable error in a unit: its effect by the table of R157, and its record (R418). The array's code of any other
array, and which I/O die serves a line of the DDR-5 tier, are open (log entry 114). -/
def State.uncorrectable (s : State) (u : ErrorUnit) : State :=
  let n := arrayCode u
  match u with
  | .threadReg r k => match (s.thread? r).bind s.gangOf with
    | some g => (s.updThread r fun t => { t with poison := if t.poison.contains k then t.poison else k :: t.poison }).logHub
        (threadRegWindow g r.lane k) n 1 g.hub
    | none => s
  | .gangReg r k => match s.gang? r with
    | some g => (s.updGang r fun g => { g with poison := if g.poison.contains k then g.poison else k :: g.poison }).logHub
        (gangRegWindow g k) n 1 g.hub
    | none => s
  | .l1Data hub pa k => (s.l1DataError hub pa k).logHub (lineOf pa + 32 * k) n (if s.l1Dirty hub pa k then 1 else 2) hub
  | .l1Tag hub pa => (s.l1TagError hub pa).logHub (lineOf pa) n 1 hub
  | .translation hub ctx page =>
    let hit := fun (e : Tlb) => e.ctx == ctx && e.covers (page * 4096)
    match ((s.hub hub).tlb2 ++ (s.hub hub).cores.toList.flatMap (·.tlb)).find? hit with
    | some e => (s.updHub hub fun h => { h with tlb2 := h.tlb2.filter (!hit ·)
                                                cores := h.cores.map fun c => { c with tlb := c.tlb.filter (!hit ·) } }).logHub
        (e.target (page * 4096)) n 1 hub
    | none => s
  | .tack hub core i =>
    match ((s.hub hub).cores.toArray.getD core Core.fresh).tacks[i]? with
    | some e => (s.settleTack hub core e.tok false).logHub e.pa n 1 hub
    | none => s
  | .hubScratch w | .coreScratch w | .accumulator w => (s.poisonWindow w).logHub (w / 8 * 8) n 1 (w / 2 ^ 31)
  | .l2 slice pa k =>
    let bad : L2Line → L2Line := fun x => { x with poison := x.poison ||| (1#4 <<< k) }
    (s.modify fun m => { m with l2 := updBy (fun x => x.slice == slice && x.pa == lineOf pa) bad m.l2 }).logError
      (lineOf pa + 32 * k) n 1 (slice / 16) 0xFF
  | .hbm pa => (s.poisonLine pa).logError (lineOf pa) n 1 (homeSlice pa / 16) 0xFF
  | .ddr pa => (s.poisonLine pa).logError (lineOf pa) n 1 (if Config.ddrDie (lineOf pa) then 9 else 8) 0xFF
  | .other r addr => match s.thread? r with
    | some t =>
      let (free, s) := s.freeBytes 1
      let hub := ((s.gangOf t).map (·.hub)).getD 0
      (s.logHub addr (fieldAt free 0 1) 1 hub).fatal t Cause.memError t.pc (BitVec.ofNat 64 addr) false 0 0
    | none => s

/-- UNCORRECTABLE_ERROR (R157): the unit `ev.unit`. -/
def execUncorrectableError (s : State) : Out := .next (s.uncorrectable s.m.ev.unit)

/-- CLEAN_REFETCH (R158): a clean L1 sector that cannot be corrected is fetched again. -/
def execCleanRefetch (s : State) : Out :=
  .next (match s.m.ev.unit with
    | .l1Data hub pa k => if s.l1Dirty hub pa k then s else s.uncorrectable (.l1Data hub pa k)
    | _ => s)

/-! ## The planner (R422, R423, R427) -/

/-- The quarters of the module. -/
def allQuarters : List QRef :=
  allHubs.flatMap fun h => (List.range 16).map fun i => { hub := h, core := i / 4, quarter := i % 4 }

/-- Every quarter follows a new grant or cap. -/
def State.regrantAll (s : State) : State := allQuarters.foldl (·.regrant ·) s

/-- EPOCH_END (R422). -/
def execEpochEnd (s : State) : Out :=
  let total := (s.m.contexts.toList.map (·.epochEnergy)).sum / 10 ^ 9
  let budget := s.epochBudget
  let g := s.m.grant
  let new := if budget < total then Nat.max (g - 1) 1 else if total < 7 * budget / 8 then Nat.min (g + 1) 16 else g
  let s := s.modify fun m =>
    { m with eprev := BitVec.ofNat 64 total, grant := new, contexts := m.contexts.map fun c => { c with epochEnergy := 0 } }
  .next (if new == g then s else s.regrantAll)

/-- THERMAL_LIMIT (R427): the cap of the item. -/
def execThermalLimit (s : State) : Out :=
  let cap := s.m.ev.item.desc.toNat / 256 % 32
  .next ((s.modify fun m => { m with tcap := Nat.min (Nat.max cap 1) 16 }).regrantAll)

end Sys2Proof.Machine
end

