-- ==== Sys2Proof/Machine/Register.lean ====
section
/-! DEFINITION. The registers of BAR0 and of the management space, dword by dword: what a read gives, and what a write
stores in a register without an action of its own (R260, R277, R278, R382, R383, R390, R392, R394, R395, R398, R402,
R403, R421). -/

namespace Sys2Proof.Machine

/-! ## Dwords -/

/-- A field of a dword from a number. -/
def fieldWord (n lo : Nat) : Word := BitVec.ofNat 32 (n * 2 ^ lo)
/-- Bits [lo+n-1:lo] of a dword. -/
def wordBits (w : Word) (lo n : Nat) : Nat := w.toNat / 2 ^ lo % 2 ^ n
/-- The low or high dword of a 64-bit register. -/
def halfOf (x : Dword) (high : Bool) : Word := if high then highHalf x else lowHalf x
/-- A 64-bit register with one dword replaced. -/
def setHalf (x : Dword) (high : Bool) (w : Word) : Dword := if high then pair (lowHalf x) w else pair w (highHalf x)
/-- The enabled bytes of a write in the old dword. -/
def mergeWord (old new : Word) (mask : Nat) : Word :=
  BitVec.ofNat 32 (natOfBytes ((List.range 4).map fun i =>
    (if mask / 2 ^ i % 2 == 1 then new else old).extractLsb' (8 * i) 8))

/-- The aligned dwords that bytes at an address touch: offset, enabled bytes, and the word with the others zero. -/
def dwordPieces (a : Nat) (bs : List Byte) : List (Nat × Nat × Word) :=
  (List.range ((a + bs.length + 3) / 4 - a / 4)).map fun i =>
    let o := (a / 4 + i) * 4
    let on := fun (k : Nat) => decide (a ≤ o + k ∧ o + k < a + bs.length)
    (o, ((List.range 4).map fun k => if on k then 2 ^ k else 0).sum,
      BitVec.ofNat 32 (natOfBytes ((List.range 4).map fun k => if on k then bs.getD (o + k - a) 0 else 0)))

/-! ## State codes -/

/-- STATE of CTXCTL (R260). -/
def CtxState.code : CtxState → Nat
  | .free => 0
  | .active => 1
  | .saving => 2
  | .saved => 3
  | .restoring => 4
  | .draining => 5

/-- STATE of QCTL (R278). -/
def QueueState.code : QueueState → Nat
  | .disabled => 0
  | .idle => 1
  | .active => 2
  | .blocked => 3
  | .error => 4
  | .resetting => 5

/-- LINKST of a port (R394). -/
def LinkPort.word (l : LinkPort) : Word :=
  fieldWord l.errcnt 24 ||| fieldWord l.width 16 ||| fieldWord l.rate 8 ||| fieldWord l.st 2

/-- MST of PGMVCTL (R383). -/
def PageUnit.mst (p : PageUnit) : Nat :=
  match p.move with
  | none => 0
  | some v => if v.drained then 2 else 1

/-! ## The stamp log registers (R398) -/

/-- The dword at an offset from 0x4000, or 0x6000 in the management space. -/
def StampLog.word (g : StampLog) (x : Nat) : Word :=
  let high := x % 8 == 4
  match x / 8 with
  | 0 => if high then 0 else fieldWord (if g.ovf then 1 else 0) 7 ||| fieldWord g.mode 0
  | 1 => halfOf g.base high
  | 2 => halfOf g.size high
  | 3 => halfOf g.head high
  | 4 => halfOf g.tail high
  | 5 => halfOf g.horizon high
  | 6 => halfOf g.refused high
  | 7 => halfOf g.outsum high
  | _ => 0

/-- A write of SLOGBASE, SLOGSIZE or SLOGHEAD; the others are the device's. -/
def StampLog.store (g : StampLog) (x : Nat) (w : Word) : StampLog :=
  let high := x % 8 == 4
  match x / 8 with
  | 1 => { g with base := setHalf g.base high w }
  | 2 => { g with size := setHalf g.size high w }
  | 3 => { g with head := setHalf g.head high w }
  | _ => g

/-! ## Page registers (R382, R383) -/

/-- The dword at an offset from 0x3000. The reserved bits of PGMVADDR read as zero, as R4 has it; what was written in them is
kept, since a begin looks at it (R384). -/
def PageUnit.word (p : PageUnit) (x : Nat) : Word :=
  match x with
  | 0x00 => lowHalf p.pgmvaddr &&& 0xFFFF0000
  | 0x04 => highHalf p.pgmvaddr &&& 0x01FFFFFF
  | 0x08 => fieldWord p.err 24 ||| fieldWord p.ctx 16 ||| fieldWord p.mst 8
  | 0x10 => lowHalf p.hintbase
  | 0x14 => highHalf p.hintbase
  | 0x18 => fieldWord (if p.hinten then 1 else 0) 16 ||| fieldWord p.hintthr 0
  | 0x1C => p.hinthead
  | 0x20 => p.hinttail
  | 0x24 => p.hintdrop
  | _ => 0

/-- A write of a page register. -/
def PageUnit.store (p : PageUnit) (x : Nat) (w : Word) : PageUnit :=
  match x with
  | 0x00 => { p with pgmvaddr := setHalf p.pgmvaddr false w }
  | 0x04 => { p with pgmvaddr := setHalf p.pgmvaddr true w }
  | 0x08 => { p with ctx := wordBits w 16 6 }
  | 0x10 => { p with hintbase := setHalf p.hintbase false (w &&& 0xFFFFF00F) }
  | 0x14 => { p with hintbase := setHalf p.hintbase true w }
  | 0x18 => { p with hinten := w.getLsbD 16, hintthr := wordBits w 0 16 }
  | 0x1C => { p with hinthead := w }
  | _ => p

/-! ## Ethernet ports (R395) -/

/-- The dword at an offset of an Ethernet port's 64 bytes. -/
def EthPort.word (e : EthPort) (x : Nat) : Word :=
  match x with
  | 0x00 => fieldWord e.owner 0 ||| fieldWord e.rxdrop 8 ||| fieldWord e.rxlog2 16 ||| fieldWord e.txlog2 24
  | 0x08 => lowHalf e.rxbase
  | 0x0C => highHalf e.rxbase
  | 0x10 => lowHalf e.txbase
  | 0x14 => highHalf e.txbase
  | 0x18 => BitVec.ofNat 32 e.rxhead
  | 0x1C => BitVec.ofNat 32 e.rxtail
  | 0x20 => BitVec.ofNat 32 e.txhead
  | 0x24 => BitVec.ofNat 32 e.txtail
  | _ => 0

/-- A write of an Ethernet register; all but RXHEAD only while the port is DISABLED. -/
def EthPort.store (e : EthPort) (disabled : Bool) (x : Nat) (w : Word) : EthPort :=
  if x == 0x18 then { e with rxhead := w.toNat }
  else if !disabled then e
  else match x with
    | 0x00 => { e with owner := wordBits w 0 6, rxlog2 := wordBits w 16 8, txlog2 := wordBits w 24 8 }
    | 0x08 => { e with rxbase := setHalf e.rxbase false w }
    | 0x0C => { e with rxbase := setHalf e.rxbase true w &&& 0x01FFFFFFFFFFFFFF }
    | 0x10 => { e with txbase := setHalf e.txbase false w }
    | 0x14 => { e with txbase := setHalf e.txbase true w &&& 0x01FFFFFFFFFFFFFF }
    | _ => e

/-- The Ethernet port of an offset from 0x5000. -/
def State.eth? (s : State) (x : Nat) : Option EthPort := s.m.eth.find? (·.num == 37 + x / 64)
/-- A link port. -/
def State.link? (s : State) (port : Nat) : Option LinkPort := s.m.links.find? (·.num == port)

/-! ## BAR0 (R390) -/

/-- The four bytes at an offset of a byte table. -/
def tableWord (t : Memory) (x : Nat) : Word := BitVec.ofNat 32 (natOfBytes (Memory.readBytes t x 4))

/-- What a read of an aligned dword of BAR0 gives; an unassigned offset reads zero. -/
def State.barWord (s : State) (x : Nat) : Word :=
  if x == 0x800 then lowHalf s.m.qtbase
  else if x == 0x804 then highHalf s.m.qtbase
  else if 0x1000 ≤ x && x < 0x1100 then
    let c := s.context ((x - 0x1000) / 4)
    fieldWord c.err 24 ||| fieldWord c.st.code 16
  else if 0x2000 ≤ x && x < 0x3000 then
    let q := s.queue ((x - 0x2000) / 4)
    fieldWord q.err 24 ||| fieldWord q.st.code 16
  else if 0x3000 ≤ x && x < 0x3028 then s.m.page.word (x - 0x3000)
  else if 0x4000 ≤ x && x < 0x4040 then s.slog.word (x - 0x4000)
  else if 0x5000 ≤ x && x < 0x5200 then ((s.eth? (x - 0x5000)).map fun e => e.word (x % 64)).getD 0
  else if x == 0x6000 then BitVec.ofNat 32 s.modnum
  else if x == 0x6008 then lowHalf s.m.domofs
  else if x == 0x600C then highHalf s.m.domofs
  else if x == 0x6010 then lowHalf s.m.domdly
  else if x == 0x6014 then highHalf s.m.domdly
  else if x == 0x6018 then BitVec.ofNat 32 s.m.refmod
  else if 0x6040 ≤ x && x < 0x60F4 then ((s.link? ((x - 0x6040) / 4)).map (·.word)).getD 0
  else if 0x7000 ≤ x && x < 0x8000 then tableWord s.m.debugRegs (x - 0x7000)
  else if 0x8000 ≤ x && x < 0x8480 then tableWord s.routes (x - 0x8000)
  else 0

/-- The dword of BAR0 that stands behind a read: it differs where reserved bits are kept. -/
def State.barStored (s : State) (x : Nat) : Word :=
  if x == 0x3000 then lowHalf s.m.page.pgmvaddr
  else if x == 0x3004 then highHalf s.m.page.pgmvaddr
  else s.barWord x

/-- Bytes of BAR0. -/
def State.barBytes (s : State) (x n : Nat) : List Byte :=
  (List.range n).map fun i => (s.barWord ((x + i) / 4 * 4)).extractLsb' (8 * ((x + i) % 4)) 8

/-- Stores a dword in a register of BAR0 without an action of its own. -/
def State.storeBar (s : State) (x : Nat) (w : Word) : State :=
  if x == 0x800 then s.modify fun m => { m with qtbase := setHalf m.qtbase false (w &&& 0xFFFFF000) }
  else if x == 0x804 then s.modify fun m => { m with qtbase := setHalf m.qtbase true (w &&& 0x000FFFFF) }
  else if 0x3000 ≤ x && x < 0x3028 then s.modify fun m => { m with page := m.page.store (x - 0x3000) w }
  else if 0x4000 ≤ x && x < 0x4040 then { s with slog := s.slog.store (x - 0x4000) w }
  else if 0x5000 ≤ x && x < 0x5200 then
    let n := 37 + (x - 0x5000) / 64
    let off := ((s.link? n).map (·.st)).getD 0 == 0
    s.modify fun m => { m with eth := updBy (·.num == n) (fun e => e.store off (x % 64) w) m.eth }
  else if x == 0x6000 then { s with modnum := wordBits w 0 11 }
  else if x == 0x6018 then s.modify fun m => { m with refmod := wordBits w 0 11 }
  else if 0x8000 ≤ x && x < 0x8480 then
    { s with routes := Memory.writeBytes s.routes (x - 0x8000) ((bytesOfWord w).map (· &&& 0x3F)) }
  else s

/-! ## The management space (R402, R403, R421) -/

/-- FRZCTL. -/
def Management.frzctl (g : Management) : Word :=
  fieldWord g.frzerr 24 ||| fieldWord g.frzst 16 ||| fieldWord (if g.memimg then 1 else 0) 8

/-- Hub and counter of an offset from 0x1000. -/
def hcntOf (x : Nat) : Nat × Nat := (x / 64, x % 64 / 8)

/-- What a read of an aligned dword of the management space gives. -/
def State.managementWord (s : State) (x : Nat) : Word :=
  let g := s.mgmt
  let high := x % 8 == 4
  if 0x1000 ≤ x && x < 0x5000 then
    halfOf (((s.hcnt.find? (·.1 == hcntOf (x - 0x1000))).map (·.2)).getD 0) high
  else if 0x6000 ≤ x && x < 0x6040 then s.slog.word (x - 0x6000)
  else match x with
    | 0x00 | 0x04 => halfOf g.stopcyc high
    | 0x08 => g.frzctl
    | 0x10 | 0x14 => halfOf g.imgbase high
    | 0x18 | 0x1C => halfOf g.imgsize high
    | 0x20 | 0x24 => halfOf g.imgused high
    | 0x28 | 0x2C => halfOf g.elogbase high
    | 0x30 => g.elogsize
    | 0x34 => g.eloghead
    | 0x38 => g.elogtail
    | 0x3C => g.elogdrop
    | 0x40 | 0x44 => halfOf (BitVec.ofNat 64 g.csel) high
    | 0x5000 => BitVec.ofNat 32 s.m.pwrbud
    | 0x5004 => BitVec.ofNat 32 s.m.grant
    | 0x5008 => BitVec.ofNat 32 s.m.tcap
    | 0x5010 | 0x5014 => halfOf s.m.eprev high
    | _ => 0

/-- Stores a dword in a register of the management space without an action of its own; PWRBUD is clamped. -/
def State.storeManagement (s : State) (x : Nat) (w : Word) : State :=
  let g := s.mgmt
  let high := x % 8 == 4
  if 0x6000 ≤ x && x < 0x6040 then { s with slog := s.slog.store (x - 0x6000) w }
  else match x with
    | 0x08 => { s with mgmt := { g with memimg := w.getLsbD 8 } }
    | 0x10 | 0x14 => { s with mgmt := { g with imgbase := setHalf g.imgbase high w } }
    | 0x18 | 0x1C => { s with mgmt := { g with imgsize := setHalf g.imgsize high w } }
    | 0x28 | 0x2C => { s with mgmt := { g with elogbase := setHalf g.elogbase high w } }
    | 0x30 => { s with mgmt := { g with elogsize := w } }
    | 0x34 => { s with mgmt := { g with eloghead := w } }
    | 0x40 | 0x44 => { s with mgmt := { g with csel := (setHalf (BitVec.ofNat 64 g.csel) high w).toNat } }
    | 0x5000 => s.modify fun m => { m with pwrbud := Nat.min (Nat.max w.toNat 2400) 4000 }
    | _ => s

/-! ## REGISTER_WRITE (R2) -/

/-- The partition layout that a driver may set: die-aligned sets of 1, 2, 4 or 8 dies that cover the module (R15). -/
def layoutGood (l : List Nat) : Bool :=
  l.sum == 8 && (List.range l.length).all fun i =>
    let n := l.getD i 0
    (n == 1 || n == 2 || n == 4 || n == 8) && (l.take i).sum % n == 0

/-- What the host sets outside its two register spaces, by `ev.index`: the BARs (0, 2, 4), the base of the context table
(5), the partition layout of the next reset (6), one byte a partition, and the allocation of Page Requests (7) (R15, R258,
R369, R391; log entries 9, 11 and 111). -/
def State.driverWrite (s : State) : State :=
  let e := s.m.ev
  let l := e.item.payload.map (·.toNat)
  let pages := fun (s : State) => if e.index == 7 then s.sendPages else s
  pages <| s.modify fun m => match e.index with
    | 0 => { m with bar0 := e.x }
    | 2 => { m with bar2 := e.x }
    | 4 => { m with bar4 := e.x }
    | 5 => { m with ctxbase := e.x }
    | 6 => if layoutGood l then { m with nextLayout := l } else m
    | 7 => { m with page := { m.page with priAlloc := (lowHalf e.x).toNat } }
    | _ => m

/-- A debug command register takes the bytes written (R274, R390). -/
def State.debugStore (s : State) : State :=
  s.modify fun m => { m with debugRegs := Memory.writeBytes m.debugRegs (m.ev.addr.toNat - 0x7000) m.ev.item.payload }

/-- REGISTER_WRITE (R2): the enabled bytes `ev.size` of the dword `ev.x` at `ev.addr` of `ev.space`; with `ev.flag` a
write of the driver outside the two spaces. -/
def execRegisterWrite (s : State) : Out :=
  let e := s.m.ev
  let a := e.addr.toNat
  .next (if e.flag then s.driverWrite
    else match e.space with
      | .bar0 => if 0x7000 ≤ a && a < 0x8000 then s.debugStore else s.storeBar a (mergeWord (s.barStored a) (lowHalf e.x) e.size)
      | .management => s.storeManagement a (mergeWord (s.managementWord a) (lowHalf e.x) e.size))

end Sys2Proof.Machine
end

