-- ==== Sys2Proof/Machine/Replay.lean ====
section
/-! DEFINITION. The stamp log and its replay, the freeze, and the images (R396 to R399, R403 to R407). -/

namespace Sys2Proof.Machine

/-! ## Records (R397) -/

/-- The item carries no data: a read request or a link state change. -/
def dataless (it : Arrival) : Bool := it.kind == 2 || it.kind == 8
/-- The records an item of a kind and length makes. -/
def recordCount (kind len : Nat) : Nat := if kind == 2 || kind == 8 then 1 else Nat.max 1 ((len + 63) / 64)
/-- The records an item makes. -/
def recordsOf (it : Arrival) : Nat := recordCount it.kind it.payload.length

/-- Record i of an item: 96 bytes. -/
def itemRecord (it : Arrival) (cycle : Nat) (seq : Dword) (dropped : Bool) (i : Nat) : List Byte :=
  let n := recordsOf it
  let part := if it.kind == 8 then [] else (it.payload.drop (64 * i)).take 64
  bytesOfNat 8 cycle ++ bytesOfDword (seq + BitVec.ofNat 64 i) ++ bytesOfNat 2 it.port ++ bytesOfNat 1 it.kind
    ++ bytesOfNat 1 ((if 0 < i then 1 else 0) + (if i + 1 == n then 2 else 0) + (if dropped then 4 else 0))
    ++ bytesOfNat 4 (if dataless it then 0 else it.payload.length) ++ bytesOfDword it.desc ++ part
    ++ List.replicate (64 - part.length) 0

/-! ## The gate (R396, R399) -/

/-- The address of record i of the ring (R399). -/
def StampLog.slot (g : StampLog) (i : Dword) : Nat := g.base.toNat + 96 * (i.toNat % Nat.max g.size.toNat 1)

/-- An item is logged, or found to be the first that is not (R399). -/
def State.logItem (s : State) (it : Arrival) (dropped : Bool) : State :=
  let g := s.slog
  let n := recordsOf it
  if g.mode != 1 || g.ovf then s
  else if (g.tail - g.head).toNat + n ≤ g.size.toNat then
    let s := s.apart fun s => (List.range n).foldl (fun s i =>
      s.paWrite (g.slot (g.tail + BitVec.ofNat 64 i)) (itemRecord it s.m.cycle s.m.seq dropped i) Machine.logHub) s
    { s with slog := { s.slog with tail := g.tail + BitVec.ofNat 64 n } }
  else
    let s := s.modify fun m =>
      { m with contexts := m.contexts.map fun c => { c with span := c.span.map fun x => { x with horizon := true } } }
    { s with slog := { s.slog with ovf := true, horizon := BitVec.ofNat 64 s.m.cycle } }

/-- A port after a link state change (R394): the item's LINKST gives WIDTH and RATE when training completes. In REPLAY the item
is a record, and its LINKST is the port's (R399). -/
def LinkPort.changed (l : LinkPort) (w : Word) (replay : Bool) : LinkPort :=
  let new := wordBits w 2 2
  if replay then { l with st := new, width := wordBits w 16 5, rate := wordBits w 8 4, errcnt := wordBits w 24 8 }
  else if new == 2 && l.st == 1 then { l with st := 2, width := wordBits w 16 5, rate := wordBits w 8 4 }
  else if new != 2 && l.st == 2 then { l with st := 3 }
  else l

/-- A link state change takes effect. -/
def State.linkItem (s : State) (port : Nat) (it : Arrival) : State :=
  s.updLink port (·.changed (lowHalf it.desc) (s.slog.mode == 2))

/-- An item as its records hold it: the DESC of a link state change is the port's LINKST after the change (R397). -/
def State.asLogged (s : State) (it : Arrival) : Arrival :=
  if it.kind == 8 then
    { it with desc := (((s.linkItem it.port it).link? it.port).map fun l => l.word.zeroExtend 64).getD it.desc }
  else it

/-- An item is stamped: logged in RECORD, and counted (R396, R397). -/
def State.stamp (s : State) (it : Arrival) (dropped : Bool) : State :=
  (s.logItem (s.asLogged it) dropped).modify fun m => { m with seq := m.seq + BitVec.ofNat 64 (recordsOf it) }

/-- An external item is refused in REPLAY: a non-posted request is completed Unsupported Request, past OUTSUM (R399). -/
def State.refuseItem (s : State) (it : Arrival) : State :=
  let g := s.slog
  let s := { s with slog := { g with refused := if g.refused == BitVec.allOnes 64 then g.refused else g.refused + 1 } }
  if it.kind == 2 then
    { s with outbox := s.outbox ++
        [{ port := it.port, cycle := s.m.cycle, bytes := completion (fieldAt it.payload 2 2) 1 [] }] }
  else s

/-! ## SLOGCTL (R398) -/

/-- SLOG_MODE_OFF (R398). -/
def execSlogModeOff (s : State) : Out :=
  .next { s with slog := { s.slog with mode := 0, horizon := BitVec.allOnes 64 } }
/-- SLOG_MODE_RECORD (R398): the ring starts empty. -/
def execSlogModeRecord (s : State) : Out :=
  .next { s with slog := { s.slog with mode := 1, horizon := BitVec.allOnes 64, tail := s.slog.head } }
/-- SLOG_MODE_REPLAY (R398). -/
def execSlogModeReplay (s : State) : Out :=
  .next { s with slog := { s.slog with mode := 2, horizon := BitVec.allOnes 64 } }
/-- SLOG_OVF_CLEAR (R398). -/
def execSlogOvfClear (s : State) : Out := .next { s with slog := { s.slog with ovf := false } }

/-! ## The replay (R399) -/

/-- The record at a place of the ring. -/
def State.logRecord (s : State) (i : Dword) : List Byte := s.unitBytes (s.ownPa (s.slog.slot i)) 96

/-- The item whose first record stands at a place of the ring, its records, and its cycle. A dropped frame is dropped
again. -/
def State.loggedItem (s : State) (i : Dword) : Arrival × Nat × Nat :=
  let bs := s.logRecord i
  let kind := fieldAt bs 0x12 1
  let len := fieldAt bs 0x14 4
  let n := recordCount kind len
  let data := (List.range n).flatMap fun k => (s.logRecord (i + BitVec.ofNat 64 k)).drop 0x20
  let drop := fieldAt bs 0x13 1 / 4 % 2 == 1
  let desc := dwordField bs 0x18
  ({ port := fieldAt bs 0x10 2, kind := kind, desc := if drop then desc ||| 1 else desc,
     payload := if kind == 2 then data else data.take len }, n, fieldAt bs 0 8)

/-- The next item of a replay may be injected in this cycle. -/
def State.injectDue (s : State) (i : Dword) : Bool :=
  s.slog.mode == 2 && i != s.slog.tail && (s.loggedItem i).2.2 ≤ s.m.cycle

/-- The records from a place of the ring that are injected in this cycle: in SEQ order, while each port has stamped fewer
than four items; the fuel bounds the items of one cycle. -/
def State.injections (s : State) : Nat → Dword → List Nat → Nat
  | 0, _, _ => 0
  | fuel + 1, i, ports =>
    if !s.injectDue i then 0
    else
      let (it, n, _) := s.loggedItem i
      if 4 ≤ (ports.filter (· == it.port)).length then 0
      else 1 + s.injections fuel (i + BitVec.ofNat 64 n) (it.port :: ports)

/-! ## Stopping (R403, R404) -/

/-- The 64-bit cycle counter (R20; log entry 8). -/
def State.cycleCount (s : State) : Dword := BitVec.ofNat 64 s.m.cycle

/-- STOPCYC_WRITE (R404): the enabled bytes `ev.size` of the dword `ev.x` at the register's low or high half. -/
def execStopcycWrite (s : State) : Out :=
  let e := s.m.ev
  let high := e.addr.toNat % 8 == 4
  let w := mergeWord (halfOf s.mgmt.stopcyc high) (lowHalf e.x) e.size
  let c := setHalf s.mgmt.stopcyc high w
  .next { s with mgmt := { s.mgmt with stopcyc := c, stopnow := !s.frozen && decide (c ≤ s.cycleCount) } }

/-- The module freezes at the end of this cycle (R404); all ones means none (R398, R402). -/
def State.freezeDue (s : State) : Bool :=
  (s.mgmt.stopcyc != BitVec.allOnes 64 && s.mgmt.stopcyc == s.cycleCount) || s.mgmt.stopnow
    || (s.slog.mode == 2 && s.slog.horizon != BitVec.allOnes 64 && s.slog.horizon == s.cycleCount + 1)

/-- A port tells its partner to pause, or to go on (R393): no item, so it counts in no sum. -/
def State.sendPause (s : State) (port : Nat) (on : Bool) : State :=
  { s with outbox := s.outbox ++
      [{ port := port, cycle := s.m.cycle, bytes := packet Packet.pause 0 0 [if on then 1 else 0] }] }

/-- Every spoke port that is UP tells its partner to pause, or to go on (R404). -/
def State.sendPauses (s : State) (on : Bool) : State :=
  (s.m.links.filter fun l => 1 ≤ l.num && l.num ≤ 36 && l.st == 2).foldl (fun s l => s.sendPause l.num on) s

/-- FREEZE (R404): the end of the cycle; the module's state stands. -/
def execFreeze (s : State) : Out :=
  .next { (s.sendPauses true) with frozen := true, mgmt := { s.mgmt with frzst := 1, stopnow := false } }

/-- Locks that ended in this cycle apply no longer (R178). -/
def Hub.dropEnded (h : Hub) : Hub := { h with locks := h.locks.filter (·.ended.isNone) }

/-- The next cycle begins. -/
def State.nextCycle (s : State) : State :=
  s.modify fun m => { m with cycle := m.cycle + 1, phase := 0, agenda := [], before := [], ticked := [], registered := false, hubs := m.hubs.map (·.dropEnded) }

/-- A command of FRZCTL is refused. -/
def State.freezeErr (s : State) (e : Nat) : State := { s with mgmt := { s.mgmt with frzerr := e } }

/-- RESUME (R405): cycle c + 1 runs; every sampling period is 4,096 again (R417). -/
def execResume (s : State) : Out :=
  .next (if s.mgmt.frzst != 1 then s.freezeErr 3
    else
      let s := { s with frozen := false, mgmt := { s.mgmt with frzst := 0 } }
      let s := s.modify fun m => { m with hubs := m.hubs.map fun h => { h with samplePeriod := 4096 } }
      (s.sendPauses false).nextCycle)

end Sys2Proof.Machine

namespace Sys2Proof.Config

open Sys2Proof.Machine

/-- Byte i of section k of the image of a state: the scan map's layout is open (R406). -/
opaque scanByte : Nat → Nat → Image → Byte
/-- The state that sections hold which no scan of this run wrote; none: they hold none (R407). -/
opaque loadImage : List (List Byte) → Option Image

end Sys2Proof.Config

namespace Sys2Proof.Machine

/-! ## Images (R405 to R407; log entry 113) -/

/-- The fuse map of a die as a header holds it. -/
def fuseWord (d : Nat) : Nat := ((dieHubs d).map (2 ^ ·)).sum

/-- Sections of an image: the dies and, when MEMIMG, the stacks (R406). -/
def imageSections (memimg : Bool) : Nat := if memimg then 26 else 10

/-- Where section k starts within an image: each at a multiple of 4,096 bytes, after the header's 4,096 (R406). -/
def sectionStart (k : Nat) : Nat :=
  4096 + ((List.range k).map fun i => (Config.sectionSize i + 4095) / 4096 * 4096).sum

/-- The bytes of an image (R405). -/
def imageSize (memimg : Bool) : Nat := sectionStart (imageSections memimg)

/-- The bytes of section k of an image, wherever the image stands. -/
def Image.section_ (x : Image) (k : Nat) : List Byte :=
  (List.range (Config.sectionSize k)).map fun i => Config.scanByte k i { x with base := 0 }

/-- The header's entry of section k; its unit is the section's number (R406; log entry 113). -/
def Image.entry (x : Image) (k : Nat) : List Byte :=
  bytesOfNat 8 (sectionStart k) ++ bytesOfNat 8 (Config.sectionSize k) ++ bytesOfDword (wordSum (x.section_ k))
    ++ bytesOfNat 4 k ++ bytesOfNat 4 0

/-- The header of an image (R406). -/
def Image.header (x : Image) : List Byte :=
  let memimg := x.memory.isSome
  bytesOfNat 4 0x49524C42 ++ bytesOfNat 4 1 ++ bytesOfNat 8 x.module.cycle
    ++ (List.range 8).flatMap (fun d => bytesOfNat 8 (fuseWord d))
    ++ bytesOfNat 4 Config.scanMap ++ bytesOfNat 4 (imageSections memimg) ++ bytesOfNat 1 (if memimg then 1 else 0)
    ++ bytesOfNat 7 0 ++ (List.range (imageSections memimg)).flatMap x.entry

/-- SCAN (R405): refused when the region is too small, else the scan engine runs. -/
def execScan (s : State) : Out :=
  .next (if s.mgmt.frzst != 1 then s.freezeErr 3
    else if s.mgmt.imgsize.toNat < imageSize s.mgmt.memimg then s.freezeErr 1
    else { s with mgmt := { s.mgmt with frzst := 2 } })

/-- The items the ports hold at the gate. -/
def State.heldItems (s : State) : List InboxItem := s.inbox.filter fun i => i.at_ ≤ s.m.cycle && i.other.isNone

/-- The cells of HBM4 in memory, or of what is not HBM4. -/
def hbmCells (m : Memory) (hbm : Bool) : Memory := m.filter fun c => decide (c.1 < hbmSize) == hbm

/-- The poisoned units of HBM4, or of what is not HBM4. -/
def hbmPoison (l : List Nat) (hbm : Bool) : List Nat := l.filter fun a => decide (a < hbmSize) == hbm

/-- The image a scan takes now (R405, R406). -/
def State.scanned (s : State) : Image :=
  { base := s.mgmt.imgbase, module := s.m, held := s.heldItems,
    memory := if s.mgmt.memimg then some (hbmCells s.mem true) else none,
    poison := if s.mgmt.memimg then hbmPoison s.memPoison true else [] }

/-- The bytes of a line with some of an address range replaced. -/
def L2Line.patched (l : L2Line) (pa : Nat) (bs : List Byte) : L2Line :=
  if l.pa + 128 ≤ pa || pa + bs.length ≤ l.pa then l
  else
    let byte := fun (d : BitVec 256) (a : Nat) => if pa ≤ a && a < pa + bs.length then setSectorByte d (a % 32) (bs.getD (a - pa) 0) else d
    { l with sectors := .ofFn fun i => (List.range 32).foldl (fun d j => byte d (l.pa + 32 * i.val + j)) (l.sectors.toArray.getD i.val 0) }

/-- The scan engine writes bytes in memory; what a slice holds of them follows, and nothing else of the module changes (R405). -/
def State.scanWrite (s : State) (pa : Nat) (bs : List Byte) : State :=
  { s with mem := Memory.writeBytes s.mem pa bs, m := { s.m with l2 := s.m.l2.map (·.patched pa bs) }
           memPoison := s.memPoison.filter fun a => a + 32 ≤ pa || pa + bs.length ≤ a }

/-- An image is written: the header and each section. -/
def State.writeImage (s : State) (base : Nat) (x : Image) : State :=
  (List.range (imageSections x.memory.isSome)).foldl (fun s k => s.scanWrite (base + sectionStart k) (x.section_ k))
    (s.scanWrite base x.header)

/-- SCAN_DONE (R405): the image stands at IMGBASE. -/
def execScanDone (s : State) : Out :=
  let g := s.mgmt
  .next (if g.frzst != 2 then s
    else
      let s' := s.writeImage g.imgbase.toNat s.scanned
      { s' with
        images := s.scanned :: s.images
        mgmt := { g with frzst := 1, imgused := BitVec.ofNat 64 (imageSize g.memimg) } })

/-- Bytes of the image at IMGBASE. -/
def State.imageBytes (s : State) (offset n : Nat) : List Byte := s.homeRead (s.mgmt.imgbase.toNat + offset) n

/-- A field of the header at IMGBASE. -/
def State.imageField (s : State) (offset n : Nat) : Nat := fieldAt (s.imageBytes offset n) 0 n

/-- The bytes of section k, as the header at IMGBASE places them (R406). -/
def State.imageSection (s : State) (k : Nat) : List Byte :=
  s.imageBytes (s.imageField (0x60 + 32 * k) 8) (s.imageField (0x68 + 32 * k) 8)

/-- MEMIMG of the header at IMGBASE (R407). -/
def State.imageMemimg (s : State) : Bool := s.imageField 0x58 1 % 2 == 1

/-- The sections that the header at IMGBASE tells of. -/
def State.sectionsThere (s : State) : List (List Byte) := (List.range (imageSections s.imageMemimg)).map s.imageSection

/-- A memory in its canonical form: its cells written one by one. -/
def Memory.tidy (m : Memory) : Memory := m.foldl (fun t c => t.write c.1 c.2) []

/-- An image with its memories in canonical form, and HBM4's cells within HBM4 when its header has them (R391, R406). -/
def Image.tidy (x : Image) (memimg : Bool) : Image :=
  { x with module := { x.module with win := Memory.tidy x.module.win, debugRegs := Memory.tidy x.module.debugRegs }
           memory := if memimg then some (hbmCells (Memory.tidy (x.memory.getD [])) true) else none }

/-- The state that the image at IMGBASE holds: that of a scan that wrote these sections, or of one that ran elsewhere. -/
def State.image? (s : State) : Option Image :=
  match s.images.find? fun x => x.memory.isSome == s.imageMemimg
      && s.sectionsThere == (List.range (imageSections s.imageMemimg)).map x.section_ with
  | some x => some x
  | none => (Config.loadImage s.sectionsThere).map (·.tidy s.imageMemimg)

/-- The fuse maps in the header at IMGBASE are the module's own. -/
def State.imageFuses (s : State) : Bool := (List.range 8).all fun d => s.imageField (16 + 8 * d) 8 == fuseWord d

/-- MAGIC, VERSION and every SSUM hold, and the sections hold a state (R407). -/
def State.imageStands (s : State) : Bool :=
  s.imageField 0 4 == 0x49524C42 && s.imageField 4 4 == 1
    && ((List.range (s.imageField 0x54 4)).all fun k => s.imageField (0x70 + 32 * k) 8 == (wordSum (s.imageSection k)).toNat)
    && s.image?.isSome

/-- RESTART (R407): the image is checked, and the loading begins. -/
def execRestart (s : State) : Out :=
  .next (if s.mgmt.frzst != 1 then s.freezeErr 3
    else if !s.imageStands then s.freezeErr 4
    else if !s.imageFuses then s.freezeErr 2
    else { s with mgmt := { s.mgmt with frzst := 3 } })

/-- HBM4 as it stands: what the home slices hold of it has been written to it. -/
def State.hbmSettled (s : State) : State := (s.m.l2.filter fun l => l.home && l.pa < hbmSize).foldl (·.flushL2 ·) s

/-- A byte of the ring of the stamp log or of the error log, whose registers lie outside the image (R401, R402). -/
def State.inLogs (s : State) (a : Nat) : Bool :=
  let within := fun (base n : Nat) => decide (s.ownPa base ≤ a) && decide (a < s.ownPa base + n)
  within s.slog.base.toNat (96 * s.slog.size.toNat) || within s.mgmt.elogbase.toNat (32 * s.mgmt.elogsize.toNat)

/-- The sectors of a line that lie in these rings. -/
def State.logSectors (s : State) (line : Nat) : BitVec 4 :=
  (List.range 4).foldl (fun m k => if s.inLogs (line + 32 * k) then m ||| (1#4 <<< k) else m) 0

/-- The two logs as they stand: what the home slices hold of them, and what is on its way there, has been written to memory
(DEDUCED from R453, whose replay reads the records that the run after the image wrote; log entry 40). -/
def State.logsSettled (s : State) : State :=
  let due := (s.unitPending.flatMap (·.1)).filter fun c => s.inLogs c.1
  let s := (s.m.l2.filter (·.home)).foldl (fun s l => s.flushL2 { l with dirty := l.dirty &&& s.logSectors l.pa }) s
  { s with mem := due.foldl (fun m c => Memory.write m c.1 c.2) s.mem }

/-- A line of an image's slices with some sectors as memory stands: its tags and versions are the image's. -/
def State.overMemory (s : State) (mask : BitVec 4) (l : L2Line) : L2Line :=
  let now := s.memLine l.pa
  { l with
    sectors := Vector.ofFn fun k => if mask.getLsbD k.val then now.get k else l.sectors.get k
    poison := (s.memLinePoison l.pa &&& mask) ||| (l.poison &&& ~~~mask)
    dirty := l.dirty &&& ~~~mask }

/-- A line that an image's slices hold over memory that the restart leaves as it stands: the rings of the two logs in the DDR-5
tier, and HBM4 where the image does not hold it (DEDUCED from R449's row of MEMIMG 0 and from R453; log entry 40). -/
def State.overStanding (s : State) (hbm : Bool) (l : L2Line) : L2Line :=
  s.overMemory (if hbmSize ≤ l.pa then s.logSectors l.pa else if hbm then 15 else 0) l

/-- The sections of an image are loaded, with the HBM4 contents where the header says so (R407). -/
def State.loaded (s : State) (x : Image) : State :=
  let later := s.inbox.filter fun i => s.m.cycle < i.at_ || i.other.isSome
  let cycle := s.imageField 8 8
  let load := fun (s : State) (hbm : Bool) =>
    { s with
      m := { x.module with cycle := cycle, l2 := x.module.l2.map (s.overStanding hbm) }
      inbox := x.held ++ later
      mgmt := { s.mgmt with frzst := 1 } }
  let stands := s.logsSettled
  match s.imageMemimg, x.memory with
  | true, some h =>
    { load stands false with
      mem := h ++ hbmCells stands.mem false, memPoison := x.poison ++ hbmPoison stands.memPoison false }
  | _, _ => load stands.hbmSettled true

/-- RESTART_DONE (R407): every section is loaded, the cycle count is CYCLE, and FST is FROZEN again. Every cache, table and
replacement state is the module's and returns with it; the counters `State.hcnt` and the selectors `Management.csel` are
outside the image and stand, so that each pass over a run counts events of its own (R413). -/
def execRestartDone (s : State) : Out :=
  .next (if s.mgmt.frzst != 3 then s
    else match s.image? with
      | some x => s.loaded x
      | none => { s with mgmt := { s.mgmt with frzst := 1 } })

/-! ## CLEAN (R405) -/

/-- A kernel stands between ADMITTED and DRAINING. -/
def State.kernelRuns (s : State) : Bool :=
  s.m.kernels.any fun k => k.st == .admitted || k.st == .running || k.st == .draining

/-- A dirty sector of an L1 line goes to its home at once, or to the module that owns it. -/
def State.cleanSector (s : State) (hub : Nat) (l : L1Line) (k : Nat) : State :=
  let x := l.sector k
  let pa := l.pa + 32 * k
  if x.mask == 0 then s
  else match l.place with
    | .here => (s.homeWrite pa (x.dirtyBytes pa) none x.poison).2
    | _ => s.requestHome hub l.place pa 32 (.write (x.dirtyBytes pa) none x.poison) .none

/-- Caches and tables of a hub are empty, with CD, CM and OG at their reset values. -/
def Hub.cleaned (h : Hub) : Hub :=
  { h with l1 := [], operands := [], tlb2 := [], merges := [], mergeQueue := [], cd := 0, cm := 0, og := 0
           cores := Vector.replicate 4 Core.fresh }

/-- With the merge-table entries their requests go: none holds a host tag or waits to be sent (R369, R389, R405). -/
def Module.cleanTags (m : Module) : Module :=
  let asks := fun (id : Nat) => m.remote.any (·.id == id)
  { m with hostTags := m.hostTags.filter fun t => asks t.2, hostQueue := m.hostQueue.filter asks
           page := { m.page with priQueue := [] } }

/-- CLEAN (R405). -/
def execClean (s : State) : Out :=
  .next (if s.mgmt.frzst != 1 || s.kernelRuns then s.freezeErr 3
    else
      let s := s.m.hubs.foldl (fun s h =>
        h.l1.foldl (fun s l => (List.range 4).foldl (fun s k => s.cleanSector h.hub l k) s) s) s
      let s := (s.m.l2.filter (·.home)).foldl (fun s l => s.flushL2 l) s
      s.modify fun m => ({ m with hubs := m.hubs.map (·.cleaned), l2 := [] } : Module).cleanTags)

end Sys2Proof.Machine
end

