-- ==== Sys2Proof/Machine/Port.lean ====
section
/-! DEFINITION. Links, the host port, the fabric, the Ethernet ports and the alignment of cycle counts (R163, R194, R226,
R259, R389 to R395, R400). -/

namespace Sys2Proof.Machine

/-! ## Links (R394) -/

/-- The tack entry of a token. -/
def State.tackOf (s : State) (tok : Nat) : Option TackEntry :=
  s.m.hubs.findSome? fun h => h.cores.toList.findSome? fun c => c.tacks.find? (·.tok == tok)

/-- MEM_ERROR in a thread's team, at a physical or virtual address. -/
def State.lostThread (s : State) (t : ThreadRef) (addr : Nat) : State :=
  match s.thread? t with
  | some t => s.fatal t Cause.memError t.pc (BitVec.ofNat 64 addr) false 0 0
  | none => s

/-- MEM_ERROR in the team of what waits for a translation. -/
def State.lostWaiter (s : State) (page : Nat) (w : MergeWaiter) : State :=
  match w.who with
  | .packet ts _ => (ts.head?.map fun t => s.lostThread t (page * 4096)).getD s
  | .copy hub id => match (s.hub hub).copies.find? (·.id == id) with
    | some x => s.failCopy x Cause.memError (page * 4096)
    | none => s
  | .access a => s.accessError a a.va

/-- What needed a packet that is dropped ends with MEM_ERROR in its team: a request of an access or a copy, a Translation
Request or Page Request, or a tack check (R394). -/
def State.dropOwner (s : State) (id : Nat) : State :=
  match s.m.remote.find? (·.id == id), s.findMerge id, s.tackOf id with
  | some r, _, _ => ((s.modify fun m => { m with remote := m.remote.filter (·.id != id) }).hostDone id).unroutable r
  | none, some (hub, e), _ =>
    let s := ((s.updHub hub fun h => { h with merges := h.merges.filter (·.req != id) }).hostDone id).sendPages
    (e.records ++ e.overflow).foldl (·.lostWaiter e.page ·) s
  | none, none, some e => s.lostThread e.thread e.pa
  | none, none, none => s

/-- A port's held packets are dropped. -/
def State.dropHeld (s : State) (port : Nat) : State :=
  match s.link? port with
  | none => s
  | some l =>
    l.held.foldl (fun s a => if a.desc == 0 then s else s.dropOwner a.desc.toNat)
      (s.updLink port fun l => { l with held := [] })

/-- A held packet leaves. A request that goes through a translation whose lease is over is given up instead (R377); a write to
the host is performed when it leaves (R226). -/
def State.sendKept (s : State) (port : Nat) (a : Arrival) : State :=
  match s.m.remote.find? (·.id == a.desc.toNat) with
  | some r =>
    if s.outlived r then s.recall r
    else match port == 0, r.op with
      | true, .write .. =>
        ((s.transmit port a.payload).modify fun m => { m with remote := m.remote.filter (·.id != r.id) }).posted r
      | _, _ => s.transmit port a.payload
  | none => s.transmit port a.payload

/-- A port that sends gets rid of its held packets, the oldest first. -/
def State.sendHeld (s : State) (port : Nat) : State :=
  match s.link? port with
  | none => s
  | some l =>
    if !l.sends then s
    else l.held.foldl (·.sendKept port ·) (s.updLink port fun l => { l with held := [] })

/-- LINK_ENABLE (R394): port `ev.port`. -/
def execLinkEnable (s : State) : Out :=
  .next (s.updLink s.m.ev.port fun l => if l.st == 0 then { l with st := 1 } else l)
/-- LINK_DISABLE (R394): port `ev.port`. -/
def execLinkDisable (s : State) : Out :=
  .next ((s.updLink s.m.ev.port fun l => { l with st := 0 }).dropHeld s.m.ev.port)
/-- LINK_RETRAIN (R394): port `ev.port`. -/
def execLinkRetrain (s : State) : Out :=
  .next (s.updLink s.m.ev.port fun l => if l.st == 2 || l.st == 3 then { l with st := 1 } else l)
/-- LINK_ERRCNT_CLEAR (R394): the ones written to bits [31:24], `ev.x`, clear those bits of ERRCNT. -/
def execLinkErrcntClear (s : State) : Out :=
  let ones := wordBits (lowHalf s.m.ev.x) 24 8
  .next (s.updLink s.m.ev.port fun l =>
    { l with errcnt := (BitVec.ofNat 8 l.errcnt &&& ~~~(BitVec.ofNat 8 ones)).toNat })

/-- TRAINING_COMPLETE (R394): the item's LINKST gives WIDTH and RATE; the held packets are sent. -/
def execTrainingComplete (s : State) : Out := .next ((s.linkItem s.m.ev.port s.m.ev.item).sendHeld s.m.ev.port)
/-- LOSS_OF_LOCK (R394): port `ev.port`. -/
def execLossOfLock (s : State) : Out := .next (s.linkItem s.m.ev.port s.m.ev.item)

/-- LINK_LEVEL_RETRY (R394): ERRCNT of port `ev.port` advances; 255 retries within 2^20 cycles take an UP port DOWN, by an item
that the port's gate takes. In REPLAY a port's own changes do not reach LINKST, and its items are refused (R399). -/
def execLinkLevelRetry (s : State) : Out :=
  let p := s.m.ev.port
  let now := s.m.cycle
  let replay := s.slog.mode == 2
  let count : LinkPort → LinkPort := fun l =>
    { l with errcnt := if replay then l.errcnt else Nat.min (l.errcnt + 1) 255
             retries := now :: l.retries.filter fun c => now < c + 2 ^ 20 }
  let s := s.updLink p count
  .next (match s.link? p with
    | some l =>
      if l.st == 2 && 255 ≤ l.retries.length then
        let item : Arrival := { port := p, kind := 8, desc := ({ l with st := 3 } : LinkPort).word.zeroExtend 64, payload := [] }
        { s with inbox := s.inbox ++ [{ at_ := now, item := item, other := none }] }
      else s
    | none => s)

/-- SPOKE_PORT_PAUSE (R393): the partner of port `ev.port` pauses it, or with `ev.flag` false lets it go on. -/
def execSpokePortPause (s : State) : Out :=
  let e := s.m.ev
  .next ((s.updLink e.port fun l => { l with paused := e.flag }).sendHeld e.port)

/-! ## Requests that arrive (R226, R391) -/

/-- The number of a port's requests among the hubs: the I/O dies and the kinds of port. -/
def portHub (port : Nat) : Nat := if port == 0 then 256 else if port ≤ 18 then 257 else 258
/-- The link of a port's requests at a home (R153). -/
def portLink (port : Nat) : Nat := if port ≤ 18 then 8 else 9

/-- A request of a port travels to the home of an address of this module. -/
def State.portRequest (s : State) (port pa size : Nat) (op : HomeOp) (back : Back) (rmt : Bool := false) : State :=
  let (id, s) := s.newId
  s.send .toHome (.home { id := id, link := portLink port, hub := portHub port, pa := pa, size := size, op := op,
                          back := back, rmt := rmt, replica := none })

/-- Bytes that a port writes, with the version and the poison they carry: one request for each sector, in address order. -/
def State.portWrite (s : State) (port pa : Nat) (bs : List (Nat × Byte)) (last : Back)
    (carried : Option (BitVec 16) := none) (poisoned : Bool := false) : State :=
  let sectors := ((List.range 129).map fun i => pa / 32 + i).filter fun k => bs.any fun c => c.1 / 32 == k
  sectors.foldl (fun s k => s.portRequest port (32 * k) 32 (.write (bs.filter fun c => c.1 / 32 == k) carried poisoned)
    (if some k == sectors.getLast? then last else .none)) s

/-- A host write to FLAGS of a context that is not FREE takes its bit 1: a zero revokes the debug right (R259, R459). -/
def State.noteFlags (s : State) (bs : List (Nat × Byte)) : State :=
  (List.range 64).foldl (fun s n =>
    match bs.find? fun c => c.1 == s.descAddr n + 0x19 with
    | some c => s.updContext n fun x => { x with revoke := x.revoke || (x.dbg && x.st != .free && !c.2.getLsbD 1) }
    | none => s) s

/-- HOST_MEMORY_WRITE (R391): the item's bytes at its address. Bytes of the descriptor of a context or a queue in use change in
memory too, and the device heeds what create latched (DESIGN CHOICE, log entry 127: R277 does not say what such a write does). -/
def execHostMemoryWrite (s : State) : Out :=
  let it := s.m.ev.item
  let cells := fun (a : Nat) => (List.range it.payload.length).map fun i => (a + i, it.payload.getD i 0)
  .next (match (s.busPa? it.desc.toNat).map s.classifyPa with
    | some (.here, pa) => (s.noteFlags (cells pa)).portWrite it.port pa (cells pa) .none
    | some (.module n, pa) => if s.route n == 0 then s else s.emit (s.route n) (writePacket pa it.payload)
    | _ => s)

/-- The parts of a range that lie in one line each. -/
def lineParts (a n : Nat) : List (Nat × Nat) :=
  (List.range ((a + n + 127) / 128 - a / 128)).map fun i =>
    let l := (a / 128 + i) * 128
    (Nat.max a l, Nat.min (a + n) (l + 128) - Nat.max a l)

/-- The fields of a read request (R397): length, tag, and the model's own code and operands of an AtomicOp. -/
def requestLength (it : Arrival) : Nat := fieldAt it.payload 0 2 % 8192
def requestTag (it : Arrival) : Nat := fieldAt it.payload 2 2 % 1024
def requestAtomic (it : Arrival) : Nat := fieldAt it.payload 5 1

/-- A 64 KiB or 4 MiB window of a BAR holds the address. -/
def inWindow (base : Dword) (size a : Nat) : Bool := base.toNat ≤ a && a < base.toNat + size

/-- The item accesses the stamp log registers, in BAR0 or the management space (R396). -/
def State.slogAccess (s : State) (it : Arrival) : Bool :=
  let a := it.desc.toNat
  if it.kind == 7 then 0x6000 ≤ a % 2 ^ 32 && a % 2 ^ 32 < 0x6040
  else (it.kind == 1 || it.kind == 2) && inWindow (s.m.bar0 + 0x4000) 0x40 a

/-- The most a completion carries, and the most a read may ask for (R389). -/
abbrev maxPayload : Nat := 512
abbrev maxRead : Nat := 4096

/-- The completions of a read that is answered at once, each of at most one payload. -/
def readAnswers (tag : Nat) (bs : List Byte) : List (List Byte) :=
  (List.range (Nat.max 1 ((bs.length + maxPayload - 1) / maxPayload))).map fun i =>
    completion tag 0 ((bs.drop (maxPayload * i)).take maxPayload)

/-- Registers of BAR0 are read; a read of the stamp log registers is no item of the run, and its completion is none. -/
def State.readBar (s : State) (it : Arrival) : State :=
  let out := readAnswers (requestTag it) (s.barBytes (it.desc.toNat - s.m.bar0.toNat) (requestLength it))
  if s.slogAccess it then
    { s with outbox := s.outbox ++ out.map fun bs => { port := it.port, cycle := s.m.cycle, bytes := bs } }
  else out.foldl (fun s bs => s.emit it.port bs) s

/-- HOST_READ_REQUEST (R397): registers and doorbell pages answer at once; memory answers for each line in turn. What a
doorbell reads as is open. A request for more than the port supports is completed Unsupported Request (R389). -/
def execHostReadRequest (s : State) : Out :=
  let it := s.m.ev.item
  let a := it.desc.toNat
  let n := requestLength it
  let tag := requestTag it
  .next (if maxRead < n then s.emit it.port (completion tag 1 [])
    else if inWindow s.m.bar0 65536 a then s.readBar it
    else if inWindow s.m.bar2 (2 ^ 22) a then
      let (bs, s) := s.freeBytes n
      (readAnswers tag bs).foldl (fun s bs => s.emit it.port bs) s
    else match (s.busPa? a).map s.classifyPa with
      | some (.here, pa) => (lineParts pa n).foldl (fun s p => s.portRequest it.port p.1 p.2 .read (.host tag)) s
      | some (.module k, pa) => (lineParts pa n).foldl (fun s p =>
          let (id, s) := s.newId
          s.sendHome (.module k) { id := id, link := portLink it.port, hub := portHub it.port, pa := p.1, size := p.2, op := .read,
                                   back := .host tag, rmt := false, replica := none }) s
      | _ => s.emit it.port (completion tag 1 []))

/-- The operation of an AtomicOp: FetchAdd, Swap or CAS, and no other (R171, R389). -/
def hostAtomicOp (code : Nat) : Option Nat :=
  match code with
  | 1 => some 0
  | 2 => some 7
  | 3 => some 8
  | _ => none

/-- HOST_ATOMICOP (R389): performed at the home, with the old value in the completion; one that the port does not support is
completed Unsupported Request. -/
def execHostAtomicop (s : State) : Out :=
  let it := s.m.ev.item
  let n := requestLength it
  let at_ := fun (off : Nat) => BitVec.ofNat 64 (fieldAt it.payload off n)
  let code := requestAtomic it
  -- CAS carries the compare value first (PRESUMED, log entry 13)
  let op := HomeOp.atomic ((hostAtomicOp code).getD 0) (if n == 8 then Ty.n64 else Ty.n32) (if code == 3 then at_ (8 + n) else at_ 8)
    (at_ 8) .rne
  let good := (hostAtomicOp code).isSome && (n == 4 || n == 8) && it.desc.toNat % n == 0
  .next (match (s.busPa? it.desc.toNat).map s.classifyPa, good with
    | some (.here, pa), true => s.portRequest it.port pa n op (.host (requestTag it))
    | some (.module k, pa), true =>
      let (id, s) := s.newId
      s.sendHome (.module k) { id := id, link := portLink it.port, hub := portHub it.port, pa := pa, size := n, op := op,
                               back := .host (requestTag it), rmt := false, replica := none }
    | _, _ => s.emit it.port (completion (requestTag it) 1 []))

/-! ## Answers that arrive (R163, R226) -/

/-- The data of a line with the tag, versions and poison its home gives it. -/
def lineDataOf (bs : List Byte) : LineData where
  sectors := .ofFn fun i => sectorOfBytes ((bs.drop (32 * i.val)).take 32)
  tag := BitVec.ofNat 16 (fieldAt bs 128 2)
  versions := .ofFn fun i => BitVec.ofNat 16 (fieldAt bs (130 + 2 * i.val) 2)
  poison := BitVec.ofNat 4 (fieldAt bs 138 1)

/-- What another owner answers to a request: the bytes, a write's version, and whether a sector is poisoned. -/
structure RemoteAnswer where
  value : List Byte
  version : Option (BitVec 16) := none
  poisoned : Option Nat := none

/-- The answer of another module to a request, in the model's packet (log entry 13). -/
def answerOf (r : HomeReq) (body : List Byte) : RemoteAnswer :=
  match r.op with
  | .line => { value := body }
  | .write .. => { value := [], version := versionIn body }
  | _ =>
    let p := (body.getD 0 0).toNat
    { value := body.drop 1, poisoned := if p == 0 then none else some (lineOf r.pa + 32 * (p - 1)) }

/-- Another owner has added to the counter of a failed kernel: bit 63 is set by a second addition where it is not (R284). -/
def State.counterAnswered (s : State) (r : HomeReq) (job : CounterJob) (place : Place) (ctx va : Nat) (failed : Bool)
    (old : Nat) : State :=
  let added := match r.op with
    | .atomic _ _ x _ _ => (BitVec.ofNat 64 old + x).getLsbD 63
    | _ => true
  if !failed || added then s.counterDone job ctx va
  else
    let (id, s) := s.newId
    s.sendHome place { r with id := id, op := .atomic 0 Ty.n64 0x8000000000000000 0 .rne
                              back := .counter job place ctx va false }

/-- Another owner has answered a request; bad: without success, which ends the access's team (log entry 15). -/
def State.remoteAnswered (s : State) (r : HomeReq) (x : RemoteAnswer) (bad : Bool) : State :=
  if bad then s.unroutable r
  else match r.back with
    | .fill hub place => s.l1Fill hub place (lineOf r.pa) r.id (lineDataOf x.value)
    | .access a =>
      let s := if a.signals then s.notifyWaits a.ctx a.va else s
      s.accessAcked a (x.value.take a.size) x.version x.poisoned
    | .writeBack hub place line k => s.writeBackAcked hub place line k x.version
    | .copyRead hub id => s.copyReceived hub id x.value x.poisoned
    | .copyWrite hub id => s.writeLanded hub id
    | .host tag => s.emit 0 (completion tag 0 x.value)
    | .unit job _ => s.unitDone job
    | .unitRead queue _ => s.unitAnswer queue r.id (some x.value)
    | .counter job place ctx va failed => s.counterAnswered r job place ctx va failed (natOfBytes (x.value.take 8))
    | _ => s

/-- The oldest request that an answer may name is answered. -/
def State.answerRemote (s : State) (mine : HomeReq → Bool) (answer : HomeReq → RemoteAnswer) (bad : Bool) : State :=
  match s.m.remote.find? mine with
  | some r => (s.modify fun m => { m with remote := m.remote.filter (·.id != r.id) }).remoteAnswered r (answer r) bad
  | none => s

/-- HOST_COMPLETION (R226, R389, R397): DESC holds the tag and the status. -/
def execHostCompletion (s : State) : Out :=
  let it := s.m.ev.item
  let tag := it.desc.toNat % 1024
  .next (match s.m.hostTags.find? (·.1 == tag) with
    | some (_, id) =>
      (s.hostDone id).answerRemote (·.id == id) (fun _ => { value := it.payload }) (it.desc.toNat / 1024 % 8 != 0)
    | none => s)

/-! ## The fabric (R163, R194, R393) -/

/-- The source and the class of a packet in its DESC (R397; log entry 13). -/
def fabricSource (it : Arrival) : Nat := it.desc.toNat % 2048
def fabricClass (it : Arrival) : Nat := it.desc.toNat / 65536 % 65536

/-- A rounding mode from its code in a packet. -/
def roundingOf (n : Nat) : Rnd := Rnd.ofFmode (BitVec.ofNat 3 n)

/-- FABRIC_PACKET (R163, R393): a request of another module goes to its home here; an answer goes to what waits for it. -/
def execFabricPacket (s : State) : Out :=
  let it := s.m.ev.item
  let id := fieldAt it.payload 4 4
  let pa := fieldAt it.payload 8 8
  let body := it.payload.drop 16
  let src := fabricSource it
  let back := Back.fabric src id
  .next (match fabricClass it with
    | 0 => s.portRequest it.port (lineOf pa) 128 .line back
    | 1 => s.portRequest it.port pa (fieldAt body 0 2) .read back (body.getD 2 0 == 1)
    | 2 => s.portWrite it.port pa (writtenBytes pa (body.drop 4)) back (versionIn body) (body.getD 3 0 == 1)
    | 3 => s.portRequest it.port pa (fieldAt body 2 1) (.atomic (fieldAt body 0 1) (fieldAt body 1 1) (dwordField body 4)
        (dwordField body 12) (roundingOf (fieldAt body 3 1))) back (body.getD 20 0 == 1)
    | 4 | 5 => s.answerRemote (fun r => r.id % 2 ^ 32 == id) (answerOf · body) false
    | 16 => s.sendAt s.m.cycle (.check { hub := 512 + src, core := 0, tok := id, pa := pa, va := 0, ctx := 64, tag := BitVec.ofNat 16 (fieldAt body 0 2),
                                         version := BitVec.ofNat 16 (fieldAt body 2 2) })
    | 17 => match s.m.hubs.findSome? fun h => ((List.range 4).find? fun c =>
          ((h.cores.toArray.getD c Core.fresh).tacks.any (·.tok == id))).map fun c => (h.hub, c) with
      | some (hub, core) => s.settleTack hub core id (body.getD 0 0 == 1)
      | none => s
    | _ => s)

/-! ## Ethernet (R395) -/

/-- The RX ring is full. -/
def EthPort.full (e : EthPort) : Bool := (e.rxtail + 1) % 2 ^ e.rxlog2 == e.rxhead
/-- A slot of a ring. -/
def ethSlot (base : Dword) (i : Nat) : Nat := base.toNat + 16384 * i
/-- A frame in its slot: the header and the bytes. -/
def frameSlot (bs : List Byte) : List Byte := bytesOfNat 4 bs.length ++ bytesOfNat 4 0 ++ bs

/-- An arriving frame is dropped: DESC [0] marks a bad FCS or a frame dropped in the recorded run (log entry 13). -/
def State.frameDropped (s : State) (it : Arrival) : Bool :=
  it.desc.getLsbD 0 || (match s.m.eth.find? (·.num == it.port) with
    | some e => e.full || (match (s.unitPages e.owner (ethSlot e.rxbase e.rxtail) (it.payload.length + 8)).1 with
      | .error _ => true
      | .ok _ => false)
    | none => true)

/-- Changes an Ethernet port. -/
def State.updEth (s : State) (port : Nat) (f : EthPort → EthPort) : State :=
  s.modify fun m => { m with eth := updBy (·.num == port) f m.eth }

/-- ETHERNET_FRAME_RECEIVE (R395): the item's frame goes to the slot at RXTAIL, or is dropped and counted. -/
def execEthernetFrameReceive (s : State) : Out :=
  let it := s.m.ev.item
  .next (if s.frameDropped it then s.updEth it.port fun e => { e with rxdrop := Nat.min (e.rxdrop + 1) 255 }
    else match s.m.eth.find? (·.num == it.port) with
      | some e =>
        let (_, s) := s.unitWrite e.owner (ethSlot e.rxbase e.rxtail) (frameSlot it.payload)
        s.updEth it.port fun e => { e with rxtail := (e.rxtail + 1) % 2 ^ e.rxlog2 }
      | none => s)

/-- The port starts on its next frame when it has one. -/
def EthPort.start (e : EthPort) (now : Nat) : EthPort :=
  { e with sendAt := if e.txhead == e.txtail then none else some (now + 1 + Config.latency .frame e.num) }

/-- ETHERNET_TXTAIL_WRITE (R395): the enabled bytes `ev.size` of the dword `ev.x` at port `ev.port`; a value that is no
slot has no effect. -/
def execEthernetTxtailWrite (s : State) : Out :=
  let e := s.m.ev
  let now := s.m.cycle
  .next (s.updEth e.port fun x =>
    let t := (mergeWord (BitVec.ofNat 32 x.txtail) (lowHalf e.x) e.size).toNat
    if 2 ^ x.txlog2 ≤ t then x
    else
      let x := { x with txtail := t }
      if x.sendAt.isSome then x else x.start now)

/-- The next frame of a port leaves now. -/
def State.frameDue (s : State) (e : EthPort) : Bool :=
  (match e.sendAt with
    | some c => c ≤ s.m.cycle
    | none => false) && ((s.link? e.num).map (·.st)).getD 0 == 2

/-- ETHERNET_FRAME_SENT (R395): the frame at TXHEAD of port `ev.port` leaves; a slot whose page is denied sends nothing
(log entry 16). -/
def execEthernetFrameSent (s : State) : Out :=
  let p := s.m.ev.port
  let now := s.m.cycle
  .next (match s.m.eth.find? (·.num == p) with
    | none => s
    | some e =>
      if !s.frameDue e then s
      else
        let a := ethSlot e.txbase e.txhead
        let s := match s.unitRead e.owner a 8 with
          | (.error _, s) => s
          | (.ok h, s) => match s.unitRead e.owner (a + 8) (Nat.min (fieldAt h 0 4) 9216) with
            | (.error _, s) => s
            | (.ok bs, s) => s.emit p (packet Packet.frame 0 0 bs)
        s.updEth p fun e => ({ e with txhead := (e.txhead + 1) % 2 ^ e.txlog2 } : EthPort).start now)

/-! ## Aligning cycle counts (R400) -/

/-- ALIGNMENT_REQUEST_SEND (R400): toward REFMOD; a module that is its own reference has no offset. -/
def execAlignmentRequestSend (s : State) : Out :=
  let t1 : Dword := BitVec.ofNat 64 s.m.cycle
  .next (if s.m.refmod == s.modnum then s.modify fun m => { m with domofs := 0, domdly := 0 }
    else if s.route s.m.refmod == 0 then s
    else (s.modify fun m => { m with alignSent := some t1 }).emit (s.route s.m.refmod)
      (packet Packet.alignRequest 0 0 (bytesOfDword t1)))

/-- ALIGNMENT_REQUEST_RECEIVE (R400): the answer leaves in the cycle of the stamp, with t2 and t3 (log entry 17). -/
def execAlignmentRequestReceive (s : State) : Out :=
  let src := fabricSource s.m.ev.item
  let now := bytesOfNat 8 s.m.cycle
  .next (if s.route src == 0 then s else s.emit (s.route src) (packet Packet.alignAnswer 0 0 (now ++ now)))

/-- Half of a sum, by floor. -/
def halved (x : Int) : Dword := BitVec.ofInt 64 (x / 2)

/-- ALIGNMENT_ANSWER (R400): t2 and t3 of the packet, t1 as it was sent, and t4 the cycle of the stamp. -/
def execAlignmentAnswer (s : State) : Out :=
  let body := s.m.ev.item.payload.drop 16
  let t4 : Dword := BitVec.ofNat 64 s.m.cycle
  .next (match s.m.alignSent with
    | none => s
    | some t1 =>
      let there := (dwordField body 0 - t1).toInt
      let back := (t4 - dwordField body 8).toInt
      s.modify fun m => { m with domofs := halved (there - back), domdly := halved (there + back), alignSent := none })

end Sys2Proof.Machine
end

