-- ==== Sys2Proof/Machine/Trust.lean ====
section
/-! DEFINITION. Power-on, module reset and bring-up, the attestation report and the refresh tick (R20, R396, R398, R428,
R429, R460). -/

namespace Sys2Proof.Machine

/-- POWER_ON (R398): every register takes its value at reset; what waits at the pins stays. -/
def execPowerOn (s : State) : Out := .next { State.reset with inbox := s.inbox, outbox := s.outbox }

/-- The management registers after a module reset (R460). -/
def Management.afterReset (g : Management) : Management :=
  { Management.fresh with
    memimg := g.memimg, imgbase := g.imgbase, imgsize := g.imgsize, imgused := g.imgused, elogbase := g.elogbase,
    elogsize := g.elogsize, eloghead := g.eloghead, elogtail := g.elogtail, elogdrop := g.elogdrop, csel := g.csel }

/-- The ports are enabled (R429): they train. -/
def trainPorts (ls : List LinkPort) : List LinkPort := ls.map fun l => { l with st := 1 }

/-- The registers that a module reset returns to their values at reset; memory as its homes hold it, the stamp log
registers and the kept management registers stand (R398, R429, R460; log entry 2). -/
def State.resetRegisters (s : State) : State :=
  let s := (s.m.l2.filter (·.home)).foldl (fun s l => s.flushL2 l) s
  { s with m := Module.fresh s.m.nextLayout, mgmt := s.mgmt.afterReset, modnum := 0, routes := [], hcnt := [], nonce := [],
           report := [], frozen := false }

/-- Reset is asserted: the registers take their values, and the module is held in reset until a release (R398, R402). -/
def State.holdReset (s : State) : State := s.resetRegisters.modify fun m => { m with agenda := [], bringUp := 3 }

/-- MODULE_RESET (R429): reset is released, and bring-up runs to the idle module, or halts at an image that its check
refuses. With `ev.flag` reset is asserted, and stays so until the next one. -/
def execModuleReset (s : State) : Out :=
  if s.m.ev.flag then .next s.holdReset
  else
    let s := s.resetRegisters
    .next (match badFirmware with
      | some k => s.modify fun m => { m with agenda := [], bringUp := 2, failing := k }
      | none => s.modify fun m => { m with agenda := [], bringUp := 1, links := trainPorts m.links })

/-- What an attestation report says: the SHA-256 of each loaded image, the fuse maps, the coefficient table, the partition layout
and the nonce (R429), each at its own size and one after another (DESIGN CHOICE, log entry 132). -/
def State.reportBody (s : State) (nonce : List Byte) : List Byte :=
  Config.firmware.flatMap (fun f => sha256 f.body) ++ (List.range 8).flatMap (fun d => bytesOfNat 8 (fuseWord d))
    ++ Config.coefficients.toList.flatMap bytesOfWord ++ s.m.layout.map (BitVec.ofNat 8 ·) ++ nonce

/-- ATTESTATION_REPORT (R429): over the nonce that the host has written, the item's bytes, signed with the identity key. The
salt of a signature is open. -/
def execAttestationReport (s : State) : Out :=
  let nonce := s.m.ev.item.payload.take 32
  let body := s.reportBody nonce
  let (salt, s) := s.freeBytes saltBytes
  .next { s with nonce := nonce, report := body ++ pssSigned Config.identityN Config.identityD (sha256 body) salt }

/-- DRAM_REFRESH (R396): the tick changes no contents; it stands before the items of its cycle. -/
def execDramRefresh (s : State) : Out := .next s

end Sys2Proof.Machine
end

