-- ==== Sys2Proof/Machine/Gate.lean ====
section
/-! DEFINITION. The gate: the rows that an item stands for, the items of a cycle, and the injection of a replay (R259,
R274, R278, R279, R383, R390 to R399, R402, R403). -/

namespace Sys2Proof.Machine

/-- A row with its operands. -/
abbrev Row := Instr × Event

/-- No operands. -/
def noOperands : Event := {}

/-! ## Register writes -/

/-- The row of a register without an action of its own. -/
def plainRow (space : RegSpace) (o mask : Nat) (w : Word) : Row :=
  (.registerWrite, { space := space, addr := BitVec.ofNat 64 o, size := mask, x := w.zeroExtend 64 })
/-- An item without effect: the write of an unassigned offset. -/
def idleRow : Row := plainRow .bar0 0xFFFC 0 0

/-- Some rows, or the plain one. -/
def rowsOr (rows : List Row) (r : Row) : List Row := if rows.isEmpty then [r] else rows

/-- SLOGCTL (R398): OVF is cleared by a one, and MODE takes 0 to 2. -/
def slogRows (w : Word) : List Row :=
  (if w.getLsbD 7 then [(.slogOvfClear, noOperands)] else []) ++ (match wordBits w 0 2 with
    | 0 => [(.slogModeOff, noOperands)]
    | 1 => [(.slogModeRecord, noOperands)]
    | 2 => [(.slogModeReplay, noOperands)]
    | _ => [])

/-- CTXCTL (R260). -/
def ctxRows (ctx cmd : Nat) : List Row :=
  let e : Event := { ctx := ctx }
  match cmd with
  | 1 => [(.contextCreate, e)]
  | 2 => [(.contextSave, e)]
  | 3 => [(.contextRestore, e)]
  | 4 => [(.contextDestroy, e)]
  | _ => []

/-- QCTL (R278). -/
def queueRows (q cmd : Nat) : List Row :=
  let e : Event := { queue := q }
  match cmd with
  | 1 => [(.queueCreate, e)]
  | 2 => [(.queueReset, e)]
  | 3 => [(.queueDestroy, e)]
  | _ => []

/-- PGMVCTL (R383): CTX is stored, and the command follows. -/
def moveRows (cmd : Nat) (store : Row) : List Row :=
  match cmd with
  | 1 => [store, (.moveBegin, noOperands)]
  | 2 => [store, (.moveEnd, noOperands)]
  | _ => [store]

/-- LINKST (R394): the ones written to ERRCNT, and the command. -/
def linkRows (port mask : Nat) (w : Word) : List Row :=
  let e : Event := { port := port, x := w.zeroExtend 64 }
  (if 8 ≤ mask && wordBits w 24 8 != 0 then [(.linkErrcntClear, e)] else [])
    ++ (if mask % 2 == 0 then [] else match wordBits w 0 2 with
      | 1 => [(.linkEnable, e)]
      | 2 => [(.linkDisable, e)]
      | 3 => [(.linkRetrain, e)]
      | _ => [])

/-- FRZCTL (R403): MEMIMG is stored, and the command follows. -/
def freezeRows (cmd : Nat) (store : Row) : List Row :=
  match cmd with
  | 1 => [store, (.scan, noOperands)]
  | 2 => [store, (.restart, noOperands)]
  | 3 => [store, (.resume, noOperands)]
  | 4 => [store, (.clean, noOperands)]
  | _ => [store]

/-- The command of a write: its low four bits, when the write has the low byte. -/
def commandOf (mask : Nat) (w : Word) : Nat := if mask % 2 == 1 then wordBits w 0 4 else 0

/-- The rows of a dword written to BAR0 (R390). -/
def barRows (o mask : Nat) (w : Word) : List Row :=
  let store := plainRow .bar0 o mask w
  let cmd := commandOf mask w
  if 0x1000 ≤ o && o < 0x1100 then rowsOr (ctxRows ((o - 0x1000) / 4) cmd) store
  else if 0x2000 ≤ o && o < 0x3000 then rowsOr (queueRows ((o - 0x2000) / 4) cmd) store
  else if o == 0x3008 then moveRows cmd store
  else if o == 0x4000 then rowsOr (if mask % 2 == 1 then slogRows w else []) store
  else if 0x5000 ≤ o && o < 0x5200 && o % 64 == 0x24 then
    [(.ethernetTxtailWrite, { port := 37 + (o - 0x5000) / 64, size := mask, x := w.zeroExtend 64 })]
  else if 0x6040 ≤ o && o < 0x60F4 then rowsOr (linkRows ((o - 0x6040) / 4) mask w) store
  else [store]

/-- The rows of a dword written to the management space (R402, R421). -/
def managementRows (o mask : Nat) (w : Word) : List Row :=
  let store := plainRow .management o mask w
  if o == 0 || o == 4 then [(.stopcycWrite, { addr := BitVec.ofNat 64 o, size := mask, x := w.zeroExtend 64 })]
  else if o == 8 then freezeRows (commandOf mask w) store
  else if 0x1000 ≤ o && o < 0x5000 then
    [(.counterClear, { hub := (hcntOf (o - 0x1000)).1, index := (hcntOf (o - 0x1000)).2 })]
  else if o == 0x6000 then rowsOr (if mask % 2 == 1 then slogRows w else []) store
  else [store]

/-! ## Debug commands (R274; log entry 12) -/

/-- The thread that a command names: the kernel of the number in the session's context. -/
def State.debugTarget (s : State) (ctx : Nat) (p : List Byte) : ThreadRef :=
  let knum := wordField p 4
  let kid := ((s.m.kernels.find? fun k => k.ctx == ctx && k.knum == knum).map (·.kid)).getD s.m.nextKid
  { kid := kid, team := fieldAt p 8 4, gang := fieldAt p 12 2, lane := fieldAt p 14 1 }

/-- The set that a command names. -/
def setOf (kind ctx : Nat) (t : ThreadRef) : HaltSet :=
  match kind with
  | 0 => .thread t
  | 1 => .gang t.gangRef
  | 2 => .team t.teamRef
  | _ => .context ctx

/-- The edit that a command stages, by the command's kind, number and value; a word of a pending value takes its place from the
high half. -/
def editOf (kind n : Nat) (x : Dword) : EditWhat :=
  match kind with
  | 0 => .vreg n (lowHalf x)
  | 1 => .preds (x.extractLsb' 0 8)
  | 2 => .pc x
  | 3 => .fmode (x.extractLsb' 0 3)
  | 4 => .sptr (lowHalf x)
  | 5 => .lineage x
  | 6 => .rngctr x
  | 7 => .tackst (lowHalf x)
  | 8 => .popst (lowHalf x)
  | 9 => .spawns (x.toNat % 2 ^ 24)
  | 10 => .trapReg n x
  | 11 => .pending n (highHalf x).toNat (lowHalf x)
  | 12 => .nest (x.toNat % 4)
  | 13 => .pass (Nat.min x.toNat 256)
  | 14 => .state (x.toNat % 128)
  | 15 => .arrived n (x.getLsbD 0)
  | 16 => .phase n (x.toNat % 65536)
  | 17 => .pendingEntry n (x.toNat % 256) (x.toNat / 256 % 256) (x.toNat / 65536 % 65536)
  | _ => .greg n (lowHalf x)

/-- The row of a debug command, in the model's own layout of the command registers. -/
def State.debugRows (s : State) (p : List Byte) : List Row :=
  let b := fun (i : Nat) => fieldAt p i 1
  let ctx := b 2
  let t := s.debugTarget ctx p
  let e : Event := { ctx := ctx, thread := t, set := setOf (b 1) ctx t, index := b 15, addr := dwordField p 16,
                     flag := b 15 == 1, edit := editOf (b 24) (b 15) (dwordField p 16) }
  match b 0 with
  | 1 => [(.debugSessionOpen, e)]
  | 2 => [(.debugHalt, e)]
  | 3 => [(.debugRead, e)]
  | 4 => [(.debugStageEdit, e)]
  | 5 => [(.debugCommit, e)]
  | 6 => [(.debugSetBreakpoint, e)]
  | 7 => [(.debugSetTakebrk, e)]
  | 8 => [(.debugResume, e)]
  | _ => []

/-! ## The rows of an item -/

/-- A host write (R259, R279, R390, R391). -/
def State.writeRows (s : State) (it : Arrival) : List Row :=
  let a := it.desc.toNat
  if inWindow s.m.bar0 65536 a then
    let o := a - s.m.bar0.toNat
    if 0x7000 ≤ o && o < 0x8000 then
      (.registerWrite, { space := .bar0, addr := BitVec.ofNat 64 o }) :: (if o == 0x7000 then s.debugRows it.payload else [])
    else (dwordPieces o it.payload).flatMap fun (p, mask, w) => barRows p mask w
  else if inWindow s.m.bar2 (2 ^ 22) a then
    -- a doorbell takes a write of its whole dword
    (dwordPieces (a - s.m.bar2.toNat) it.payload).flatMap fun (p, mask, w) =>
      if p % 4096 == 0 && mask == 15 then [(.doorbell, { queue := p / 4096, x := w.zeroExtend 64 })] else []
  else [(.hostMemoryWrite, noOperands)]

/-- A message of the IOMMU (R375, R378; log entry 13). -/
def atsRows (p : List Byte) : List Row :=
  let b := fun (i : Nat) => fieldAt p i 1
  match b 0 with
  | 1 =>
    let perm := fun (i : Nat) => b 17 / 2 ^ i % 2 == 1
    let reply : AtsReply := match b 18 with
      | 0 => .done (fieldAt p 8 8) (b 16) (perm 0) (perm 1) (perm 2) (perm 3)
      | 1 => .unsupported
      | _ => .abort
    [(.translationCompletion, { id := fieldAt p 4 4, ats := reply })]
  | 2 => [(.prgResponse, { id := fieldAt p 4 4, flag := b 16 == 0 })]
  | 3 => [(.invalidateRequest, { id := fieldAt p 4 4, size := fieldAt p 8 4 })]
  | _ => []

/-- A fabric packet (R393). -/
def fabricRows (it : Arrival) : List Row :=
  match fabricClass it with
  | 6 => [(.gridsyncArrivalPacket,
      { id := fieldAt it.payload 4 4, index := fabricSource it, x := dwordField it.payload 16,
        flag := fieldAt it.payload 24 1 == 1 })]
  | 7 => [(.alignmentRequestReceive, noOperands)]
  | 8 => [(.alignmentAnswer, noOperands)]
  | _ => [(.fabricPacket, noOperands)]

/-- The rows an item stands for, by its KIND (R397). -/
def State.rowsOf (s : State) (it : Arrival) : List Row :=
  match it.kind with
  | 1 => s.writeRows it
  | 2 => if requestAtomic it == 0 then [(.hostReadRequest, noOperands)] else [(.hostAtomicop, noOperands)]
  | 3 => [(.hostCompletion, noOperands)]
  | 4 => atsRows it.payload
  | 5 => fabricRows it
  | 6 => [(.ethernetFrameReceive, noOperands)]
  | 7 => (dwordPieces (it.desc.toNat % 2 ^ 32) it.payload).flatMap fun (p, mask, w) => managementRows p mask w
  | 8 => [(if wordBits (lowHalf it.desc) 2 2 == 2 then .trainingComplete else .lossOfLock, { port := it.port })]
  | 9 => [(.thermalLimit, noOperands)]
  | _ => []

/-- The rows of an item; the first one carries it. -/
def State.itemRows (s : State) (it : Arrival) : List Row :=
  match rowsOr (s.rowsOf it) idleRow with
  | (i, e) :: rest => (i, { e with item := it }) :: rest
  | [] => []

/-- The item of a row is stamped: it is one of the run (R396, R402). -/
def State.stamps (s : State) (it : Arrival) : Bool :=
  it.kind != 0 && !s.slogAccess it && !s.frozen && s.m.bringUp == 1

/-- A row stands as the next one to act: its item is stamped, and its operands stand ready. -/
def State.admitRow (s : State) (e : Event) : State :=
  let s := if s.stamps e.item then s.stamp e.item (e.item.kind == 6 && s.frameDropped e.item) else s
  s.modify fun m => { m with ev := e }

/-! ## The items of a cycle (R396, R399) -/

/-- An item has reached the gate. -/
def State.atGate (s : State) (i : InboxItem) : Bool := i.at_ ≤ s.m.cycle && i.other.isNone

/-- The items the gate takes in this cycle, and what stays: four of a port, with accesses of the stamp log registers
uncounted, and in REPLAY all. -/
def State.takeItems (s : State) : List Arrival × List InboxItem :=
  s.inbox.foldl (fun (got, rest) i =>
    let port := i.item.port
    let counted := (got.filter fun a => a.port == port && !s.slogAccess a).length
    let behind := rest.any fun r => s.atGate r && r.item.port == port
    if s.atGate i && !behind && (s.slog.mode == 2 || s.slogAccess i.item || counted < 4) then (got ++ [i.item], rest)
    else (got, rest ++ [i])) ([], [])

/-- The items that wait at a port for a later cycle. -/
def State.waitingAt (s : State) (port : Nat) : Nat := (s.inbox.filter fun i => s.atGate i && i.item.port == port).length

/-- A spoke port that is UP tells its partner to pause when its receive buffer passes three-quarters full, and to go on when
it falls below one quarter (R393). -/
def State.portPauses (s : State) : State :=
  s.m.links.foldl (fun s l =>
    let n := s.waitingAt l.num
    let tell := fun (on : Bool) => (s.updLink l.num fun l => { l with pausing := on }).sendPause l.num on
    if l.num == 0 || 36 < l.num || l.st != 2 then s
    else if !l.pausing && 3 * Config.portBuffer < 4 * n then tell true
    else if l.pausing && 4 * n < Config.portBuffer then tell false
    else s) s

/-- The happenings that the pins may bring. -/
def pinAllowed (r : Row) : Bool :=
  match r.1 with
  | .powerOn | .moduleReset | .attestationReport | .uncorrectableError | .cleanRefetch | .linkLevelRetry | .spokePortPause =>
    true
  | .registerWrite => r.2.flag
  | _ => false

/-- A pin's row, due in this cycle. -/
def State.pinOf (s : State) (i : InboxItem) : Option Row :=
  if i.at_ ≤ s.m.cycle then i.other.filter pinAllowed else none

/-- The pin resets the module or powers it on. -/
def resets (r : Row) : Bool :=
  match r.1 with
  | .powerOn | .moduleReset => true
  | _ => false

/-- What the pins bring in this cycle; a reset stands alone. -/
def State.pinRows (s : State) : List Row × State :=
  match s.inbox.findSome? fun i => (s.pinOf i).filter resets with
  | some r =>
    let first := s.inbox.findIdx fun i => ((s.pinOf i).filter resets).isSome
    ([r], { s with inbox := s.inbox.eraseIdx first })
  | none => (s.inbox.filterMap s.pinOf, { s with inbox := s.inbox.filter fun i => (s.pinOf i).isNone })

/-- The items of a cycle become rows, by port, and in REPLAY the injections in place of the external items. -/
def State.gateRows (s : State) : List Row × State :=
  let (items, rest) := s.takeItems
  let s := { s with inbox := rest }
  let items := sortKey (fun (a : Arrival) => [a.port]) items
  if s.slog.mode == 2 then
    let s := (items.filter (!s.slogAccess ·)).foldl (·.refuseItem ·) s
    ((items.filter (s.slogAccess ·)).flatMap s.itemRows
      ++ List.replicate (s.injections 192 s.slog.head []) (.replayInject, noOperands), s)
  else (items.flatMap s.itemRows, s)

/-- REPLAY_INJECT (R399): the item at SLOGHEAD arrives as if from its port. -/
def execReplayInject (s : State) : Out :=
  .next (if !s.injectDue s.slog.head then s
    else
      let (it, n, _) := s.loggedItem s.slog.head
      let s := { s with slog := { s.slog with head := s.slog.head + BitVec.ofNat 64 n } }
      let rows := s.itemRows it
      s.modify fun m => { m with agenda := rows ++ m.agenda })

end Sys2Proof.Machine
end

