-- ==== Sys2Proof/Machine/Cycle.lean ====
section
/-! DEFINITION. The parts of a package cycle and what a step does next (R18, R19, R20, R167, R183, R214, R396; log entry
6). A part yields rows, which the following steps act on in order, and a state in which the units without a row of their
own have done their work. -/

namespace Sys2Proof.Machine

/-- What a part of a cycle yields. -/
abbrev Part := List Row × State

/-- Rows only. -/
def State.rows (s : State) (l : List Row) : Part := (l, s)
/-- Work only. -/
def State.work (s : State) : Part := ([], s)

/-- One row for each hub that stands in the state. -/
def State.hubRows (s : State) (i : Instr) (want : Hub → Bool) : List Row :=
  (sortKey (fun (h : Hub) => [h.hub]) (s.m.hubs.filter want)).map fun h => (i, { hub := h.hub })

/-- One row for each quarter. -/
def quarterRows (i : Instr) (qs : List QRef) : List Row :=
  qs.map fun q => (i, { hub := q.hub, core := q.core, quarter := q.quarter })

/-- A row, when something holds. -/
def rowIf (b : Bool) (i : Instr) : List Row := if b then [(i, noOperands)] else []

/-- Quarters in (hub, core, quarter) order. -/
def sortQuarters (qs : List QRef) : List QRef := sortKey (fun (q : QRef) => [quarterNumber q]) qs.eraseDups

/-! ## Timers (R396) -/

/-- Some lease ends (R377). -/
def State.leaseDue (s : State) : Bool :=
  s.m.hubs.any fun h => h.tlb2.any (·.leaseEnd ≤ s.m.cycle) || h.cores.toList.any fun c => c.tlb.any (·.leaseEnd ≤ s.m.cycle)

/-- The bins of a hub whose timers have run out (R321). -/
def State.binRows (s : State) (h : Hub) : List Row :=
  (sortKey (fun (b : Bin) => [b.num]) (h.bins.filter fun b => !b.expired && (match s.launch? b.team.kid with
    | some l => b.since + l.timer < s.m.cycle
    | none => false))).map fun b => (.binTimerExpiry, { hub := h.hub, index := b.num })

/-- The internal timer events of a cycle. -/
def State.timerPart (s : State) : Part :=
  let c := s.m.cycle
  let each := fun (n : Nat) => c % n == 0 && 0 < c
  let polls := if c % 4096 == 0 then s.m.queues.filter s.blockedWait else []
  s.rows (rowIf (Config.refresh c) .dramRefresh
    ++ (if c % 16 == 0 then quarterRows .cadenceTakesEffect
          (sortQuarters ((s.m.quarters.filter (·.pending.isSome)).map (·.q))) else [])
    ++ rowIf (each 65536) .epochEnd
    ++ rowIf (each (2 ^ 20)) .regionCounterZeroing
    ++ rowIf s.leaseDue .leaseEnd
    ++ rowIf (s.m.page.history.any fun e => e.newer + moveWindow ≤ c) .moveHistoryFree
    ++ rowIf (s.m.page.settled.any fun x => x.2.2.1 ≤ c) .settledEnd
    ++ s.m.hubs.flatMap s.binRows
    ++ rowIf (c % 1024 == 0) .samplePeriodTest
    ++ polls.map (fun q => (.waitCounterRead, { queue := q.num }))
    ++ rowIf (each (2 ^ 24)) .alignmentRequestSend)

/-! ## The gate, the contexts, the messages -/

/-- The items of the cycle; what stays fills the receive buffers. -/
def State.gatePart (s : State) : Part :=
  let (rows, s) := s.gateRows
  (rows, s.portPauses)

/-- What the pins bring stands before the items. -/
def State.pinPart (s : State) : Part := s.pinRows

/-- Bumps of context generations, and the moves of populations (R336, R378). -/
def State.contextPart (s : State) : Part :=
  s.rows (((s.m.contexts.toList.filter fun c => c.bumpWaits && c.bumpReady s.m.cycle).map fun c =>
      (.contextGenerationBump, { ctx := c.num }))
    ++ (s.m.kernels.filter fun k => k.rsmp == .arrived).map fun k => (.resample, { kernel := k.kid }))

/-- Invalidations that complete, in ITag order (R379). -/
def State.invalidatePart (s : State) : Part :=
  let done := s.m.contexts.toList.flatMap fun c =>
    (c.invalidates.filter fun i => s.invalidateReady c i).map fun i => (i.itag, c.num, 0)
  let none_ := s.m.page.orphans.map fun o => (o.1, 64, o.2)
  s.rows ((sortKey (fun (x : Nat × Nat × Nat) => [x.1]) (done ++ none_)).map fun x =>
    (.invalidateCompletion, { id := x.1, ctx := x.2.1, size := x.2.2 }))

/-- The messages that are due. -/
def State.dueMessages (s : State) : List Flight := sortKey (fun (f : Flight) => [f.id]) (s.m.flight.filter (·.due ≤ s.m.cycle))

/-- The row of a message to a hub. -/
def hubRow (f : Flight) : List Row :=
  match f.msg with
  | .result .. => [(.deferredResultReturn, { id := f.id })]
  | .l1Fill .. => [(.l1FillReturn, { id := f.id })]
  | .wbAck .. | .fabricAck .. => [(.writeBackAck, { id := f.id })]
  | .accessAck .. => [(.releaseAccessAck, { id := f.id })]
  | .promoteReq .. => [(.promotionRequest, { id := f.id })]
  | .preempt .. => [(.preemptionReachesQuarter, { id := f.id })]
  | .rsmpDone _ => [(.resampleComplete, { id := f.id })]
  | .copyData hub .. => [(.copySourceRead, { id := f.id, hub := hub })]
  | _ => []

/-- The row of a sector that has landed beyond the hub: the engine's decrement comes after the thread operations of the cycle
(R362, R368). -/
def landedRow (f : Flight) : List Row :=
  match f.msg with
  | .copyLanded hub _ => [(.copySectorLand, { id := f.id, hub := hub })]
  | _ => []

/-- Messages that arrive at hubs. -/
def State.hubPart (s : State) : Part := s.rows (s.dueMessages.flatMap hubRow)

/-- The place of a second-level lookup among those of its cycle: threads by hub, core and quarter, then the copies (R373). -/
def State.probeKey (s : State) (f : Flight) : List Nat :=
  match f.msg with
  | .probe hub _ _ { who := .packet (t :: _) _, core := c, .. } => [0, hub, c, ((s.gang? t.gangRef).map (·.quarter)).getD 4, f.id]
  | .pfProbe a => [0, a.hub, a.core, a.quarter, f.id]
  | _ => [1, 0, 0, 0, f.id]

/-- Second-level lookups end (R372). -/
def State.probePart (s : State) : Part :=
  ((sortKey s.probeKey s.dueMessages).foldl (fun s f => match f.msg with
    | .probe hub ctx va w => (s.takeFlight f.id).2.probed hub ctx va w
    | .pfProbe a => (s.takeFlight f.id).2.prefetchProbed a
    | _ => s) s).work

/-! ## The matrix engine, the bins, the dispatcher -/

/-- Starts of the engine (R176, R245, R248, R251). -/
def State.enginePart (s : State) : Part :=
  let bumps := (s.m.threads.filter fun t => t.sfenceWait == some []).map fun t =>
    ((.operandGenerationBump, { thread := t.ref }) : Row)
  let busy := fun (h : Hub) => !h.reservations.isEmpty
  s.rows (bumps ++ s.hubRows .passGrant busy ++ s.hubRows .portOperationStart busy ++ s.hubRows .operandFetch busy)

/-- Gangs are formed before teams are dispatched (R322). -/
def State.formPart (s : State) : Part := (s.hubRows .gangFormation fun h => h.bins.any (·.due), s.kernelMoves)

/-- Teams are dispatched, and blocks granted; exits whose results have returned come before the thread operations of the cycle
(R298, R318, R368). -/
def State.dispatchPart (s : State) : Part :=
  let hubs := if s.dispatchable.isEmpty then [] else allHubs.filter fun h => (s.pickTeam h).isSome
  let waits := (s.m.gangs.filter fun g => match g.xacq with
    | some x => x.complete
    | none => false).map fun g => ({ hub := g.hub, core := g.core, quarter := g.quarter } : QRef)
  let exits := s.m.threads.filter fun t => t.wait == .exit && s.wakeable t
  s.rows (hubs.map (fun h => (.teamDispatch, { hub := h })) ++ quarterRows .xacqGrant (sortQuarters waits)
    ++ exits.map fun t => (.threadWake, { thread := t.ref }))

/-! ## Issue (R21, R183, R311) -/

/-- The operation of an instruction. -/
def opOf (i : Instr) : Option (BitVec 7) := i.code.map (·.fields.op)

/-- The operation that a quarter's next packet holds, when it can be told. -/
def State.nextOp (s : State) (q : QRef) : Option (BitVec 7) :=
  let s := s.breakHalts q
  match s.leader (s.readyGangs q) with
  | some (lead, ts) => (s.peek lead (packetStart ts).toNat).bind opOf
  | none => none

/-- The hubs in which a copy or a matrix operation may register in this cycle (R177, R183). -/
def State.registering (s : State) : List Nat :=
  let pieces := (s.m.teams.filter (!·.pieces.isEmpty)).map (·.hub)
  let held := (s.m.hubs.filter fun h => !(s.heldWork h.hub).isEmpty).map (·.hub)
  sortKey (fun (h : Nat) => [h]) (pieces ++ held).eraseDups

/-- The rank among a cycle's packets of one that holds an operation: exits (R368), releases of pieces, posts of copies, posts of
matrix operations, and the others. Registrations stand between those that release and those that post (R178, R183, R188). -/
def issueRank : Option (BitVec 7) → Nat
  | some op => match op.toNat with
    | 0x45 => 0
    | 0x61 => 1
    | 0x60 => 2
    | 0x75 | 0x76 | 0x77 | 0x78 | 0x79 | 0x7A => 3
    | _ => 4
  | none => 4

/-- The rank at which the registrations of a cycle stand. -/
abbrev registerRank : Nat := 2

/-- A packet that goes on after its translation: its place and its row. -/
def State.resumeRow (s : State) (r : Resume) : List Nat × Row :=
  let q : QRef := match (r.threads.head?.bind s.thread?).bind s.gangOf with
    | some g => { hub := g.hub, core := g.core, quarter := g.quarter }
    | none => { hub := 0, core := 0, quarter := 0 }
  ([issueRank none, quarterNumber q, 0], .pickerTick,
    { hub := q.hub, core := q.core, quarter := q.quarter, flag := true, thread := r.threads.headD noOperands.thread })

/-- The packets that have still to issue in the cycle, with their places: those that go on, and those of the quarters whose tick
it is. Within a rank the quarters follow in ascending order (R167). -/
def State.packetRows (s : State) : List (List Nat × Row) :=
  let qs := (sortQuarters (s.m.gangs.map fun g => { hub := g.hub, core := g.core, quarter := g.quarter })).filter fun q =>
    issueTick s.m.cycle (s.quarter q).cadence && !s.m.ticked.contains q
  s.dueResumes.map s.resumeRow ++ qs.map fun q =>
    ([issueRank (s.nextOp q), quarterNumber q, 1], .pickerTick, { hub := q.hub, core := q.core, quarter := q.quarter })

/-- What issues next in the cycle, as the state stands after what has issued: one packet, or the registrations that released
pieces and held work ask for. Threads whose fetch has been served are READY first (R375). -/
def State.issuePart (s : State) : Part :=
  let s := (s.dueResumes.filter (·.fetch)).foldl (·.takeResume ·) s
  let regs : List Row := if s.m.registered then [] else s.registering.map fun h => (.copyRegister, { hub := h })
  let registered := fun (b : Bool) => s.modify fun m => { m with registered := b }
  match leastBy (fun (x : List Nat × Row) => x.1) s.packetRows with
  | some x =>
    let rank := x.1.headD 0
    if rank < registerRank then ([x.2], registered false) else if regs.isEmpty then ([x.2], s) else (regs, registered true)
  | none => (regs, registered true)

/-! ## Scratchpads and L1 slices (R146, R156, R167) -/

/-- A load whose lines are present is performed, and its thread's park reason becomes 1 (R156). -/
def State.loadPresent (s : State) (a : Access) : State :=
  match s.team? a.thread.teamRef with
  | some t =>
    if t.present a.ea a.size then
      (s.updHub a.hub fun h => { h with absent := h.absent.filter (·.tok != a.tok) }).performScratch a
    else s
  | none => s

/-- Loads whose lines have come are performed, each port gives its oldest packet, and fences go on. -/
def State.scratchWork (s : State) : State :=
  let s := (s.m.hubs.flatMap (·.absent)).foldl (·.loadPresent ·) s
  let hubs := sortKey (fun (h : Nat) => [h]) (s.m.hubs.map (·.hub))
  (hubs.foldl (·.mergeHub ·) s).fenceSteps

/-- Accesses enter their units; then the copy engine, with its sectors that have landed, the joins and the matrix engine go on. -/
def State.unitPart (s : State) : Part :=
  let s := s.scratchWork
  let copying := fun (h : Hub) => !h.copies.isEmpty
  (s.hubRows .copySourceRead copying ++ s.dueMessages.flatMap landedRow ++ s.hubRows .copySectorLand copying
    ++ s.hubRows .joinReturn (!·.joins.isEmpty)
    ++ s.hubRows .operandFetchComplete (·.fetch.isSome) ++ s.hubRows .passWrite (·.pass.isSome)
    ++ s.hubRows .portOperationComplete (·.port.isSome), s)

/-- Releases that have their acknowledgements (R148). -/
def Hub.releaseRows (h : Hub) : List Row :=
  (h.releases.filter fun r => r.taken && r.waits.isEmpty).map fun r => (.releaseWriteBackComplete, { hub := h.hub, id := r.id })

/-- Releases end (R148). -/
def State.releasePart (s : State) : Part := s.rows (s.m.hubs.flatMap (·.releaseRows))

/-- The grid barriers, which may ask for bumps; and the bumps are made (R151, R364). -/
def State.bumpPart (s : State) : Part :=
  let s := s.gridStep
  (s.m.hubs.flatMap fun h => List.replicate (3 * h.bumps.length) (.currentGenerationBump, { hub := h.hub }), s)

/-- The releases asked for in this cycle take their sectors (R148). -/
def State.takePart (s : State) : Part := ((s.m.hubs.map (·.hub)).foldl (·.takeReleases ·) s).work

/-! ## Home slices (R153, R214) -/

/-- The place of a request among a cycle's arrivals: loads first, then the others by link, and within a compute die's link by
hub; within a link in the order of sending (R153, R214). -/
def HomeReq.place (r : HomeReq) (id : Nat) : List Nat :=
  [if r.writes then 1 else 0, r.link, if r.link < 8 then r.hub else 0, id]

/-- The place of an arrival at the home slices, with its row: requests and notices, then the acknowledgements, then the tack
checks. -/
def homeRow (f : Flight) : Option (List Nat × Row) :=
  let e : Event := { id := f.id }
  match f.msg with
  | .home r => some (r.place f.id, .homeSliceAccess, e)
  | .notice hub _ => some ([1, dieOf hub, hub, f.id], .writerNotice, e)
  | .invAck .. => some ([3, f.id], .replicaInvalidationAck, e)
  | .promoteAck .. => some ([4, f.id], .promotionAcknowledgement, e)
  | .check _ => some ([5, f.id], .tackCheck, e)
  | _ => none

/-- A request that its slice held and that need wait no longer, with the arrivals of the cycle. -/
def heldRow (h : HeldReq) : Option (List Nat × Row) :=
  if h.why == .ready then some (h.req.place h.req.id, .homeSliceAccess, { id := h.req.id }) else none

/-- The slice that a fill fills. -/
def fillOf : Msg → Option Nat
  | .l2Fill slice _ | .replicaFill slice .. => some slice
  | _ => none

/-- The fills of L2 slices that complete, at most one in each slice (R191, R457). -/
def fillRows (fs : List Flight) : List (List Nat × Row) :=
  (fs.foldl (fun (p : List Nat × List (List Nat × Row)) f => match fillOf f.msg with
    | some slice =>
      if p.1.contains slice then p
      else (slice :: p.1, p.2 ++ [([2, slice, f.id], .l2Fill, { id := f.id })])
    | none => p) ([], [])).2

/-- Arrivals at the home slices. -/
def State.homePart (s : State) : Part :=
  let s := s.resumeBehind
  let fs := s.dueMessages
  let rows := fs.filterMap homeRow ++ s.m.l2held.filterMap heldRow ++ fillRows fs
  ((sortKey (fun (x : List Nat × Row) => x.1) rows).map (·.2), s)

/-- Tack replies, and after them the entries at the end of their life (R196). -/
def State.tackPart (s : State) : Part :=
  let replies := (s.dueMessages.filter fun f => match f.msg with
    | .tackReply .. => true
    | _ => false).map fun f => ((.tackReply, { id := f.id }) : Row)
  let old := s.m.hubs.flatMap fun h => (List.range 4).flatMap fun c =>
    (((h.cores.toArray.getD c Core.fresh).tacks.filter fun e => e.issued + tackLife ≤ s.m.cycle).map fun e =>
      ((.tackEntryExpiry, { hub := h.hub, core := c, id := e.tok }) : Row))
  s.rows (replies ++ old)

/-! ## The ends of a cycle -/

/-- Collectives, and the threads that wake (R305, R336). -/
def State.wakePart (s : State) : Part :=
  let s := s.gatherStep
  ((s.m.threads.filter fun t => s.wakeable t && t.wait != .exit).map fun t => (.threadWake, { thread := t.ref }), s)

/-- The joins whose counters an exit of this cycle has brought to 0 (R325). -/
def State.joinPart (s : State) : Part := s.rows (s.hubRows .joinReturn (!·.joins.isEmpty))

/-- Saves and restores, drained moves, samples, revoked rights, and the ports (R261, R271, R272, R275, R384, R416). -/
def State.settlePart (s : State) : Part :=
  let s := s.moveSweep.countStages
  let samples := s.m.hubs.flatMap fun h => (h.samples.filter (·.finish.isSome)).map fun x =>
    ((.sampledAccessComplete, { hub := h.hub, index := x.index }) : Row)
  let cs := s.m.contexts.toList
  s.rows (((s.m.teams.filter s.teamDrained).map fun t =>
      (.teamSave, { thread := { kid := t.ref.kid, team := t.ref.team, gang := 0, lane := 0 } }))
    ++ (cs.filter fun c => c.st == .restoring && !c.saved.isEmpty).flatMap (fun c =>
      List.replicate c.saved.length (.teamRestore, { ctx := c.num }))
    ++ rowIf s.moveDrainReady .moveDrained ++ samples
    ++ (cs.filter (·.revoke)).map (fun c => (.debugRightRevoke, { ctx := c.num }))
    ++ (s.m.eth.filter s.frameDue).map fun e => (.ethernetFrameSent, { port := e.num }))

/-- Contexts settle, disabled ports drop what they hold, and the records of the cycle are written (R269, R303, R394). -/
def State.recordWork (s : State) : State :=
  let s := (s.m.contexts.toList.filter s.contextDone).foldl (fun s c => s.contextSettles c.num) s
  let off := s.m.links.filter fun l => l.st == 0 && !l.held.isEmpty
  let s := ((off.foldl (fun s l => s.dropHeld l.num) s).carryKills.spreadFaults).writeRecords
  (List.range 64).foldl (·.publishTail ·) s

/-- Records are written; kernels, queues and contexts end. -/
def State.endPart (s : State) : Part :=
  let s := s.recordWork
  ((s.m.kernels.filter fun k => s.drainDue k || s.completionDue k).map (fun k => (.kernelDrainEnd, { kernel := k.kid }))
    ++ (s.m.queues.filter s.resetDone).map (fun q => (.queueReset, { queue := q.num, flag := true }))
    ++ (s.m.contexts.toList.filter s.contextDrained).map fun c => (.contextDestroy, { ctx := c.num, flag := true }), s)

/-! ## Queues and admission (R283, R292, R424) -/

/-- The row of the packet that begins in this cycle, by its type. -/
def State.packetRow (s : State) : List Row :=
  match s.nextQueue with
  | none => []
  | some q =>
    let i : Instr := match (s.headPacket q).1 with
      | .bytes bs => (match fieldAt bs 0 1 with
        | 1 => .launchPacket
        | 2 => .waitPacket
        | 3 => .signalPacket
        | 4 => .snapshotPacket
        | 5 => .traceOpenPacket
        | 6 => .traceClosePacket
        | _ => .nopPacket)
      | _ => .nopPacket
    [(i, { queue := q.num })]

/-- The row in which a SNAPSHOT or TRACE_CLOSE retires, its writes performed (R282). -/
def State.writtenRow (s : State) (q : Queue) : List Row :=
  if s.written q then
    [(if (q.begun.map fun bs => fieldAt bs 0 1) == some 4 then .snapshotPacket else .traceClosePacket, { queue := q.num, flag := true })]
  else []

/-- Admission steps and the queue processor. A kernel is checked in a cycle after it was POSTED, and granted in one after
that. -/
def State.queuePart (s : State) : Part :=
  let now := s.m.cycle
  let s := s.m.queues.foldl (·.askHead ·) s
  s.rows ((s.m.kernels.filter fun k => k.st == .posted && k.postedAt < now).map (fun k => (.admissionSnapshot, { kernel := k.kid }))
    ++ (s.grantable.filter fun k => k.postedAt + 1 < now).map (fun k => (.energyGrant, { kernel := k.kid }))
    ++ (s.m.queues.filter (·.signalled)).map (fun q => (.signalPacket, { queue := q.num, flag := true }))
    ++ s.m.queues.flatMap s.writtenRow
    ++ (s.m.queues.filter s.waitDue).map (fun q => (.waitCounterRead, { queue := q.num }))
    ++ s.packetRow)

/-! ## The order of the parts -/

/-- The part in which packets issue. -/
abbrev issuePhase : Nat := 10
/-- The last part. -/
abbrev lastPhase : Nat := 22

/-- The parts of a cycle. Wakes that end a thread release those who waited for it in the same cycle, so the wakes come
twice (R354, R358). -/
def State.part (s : State) : Nat → Part
  | 0 => s.timerPart
  | 1 => s.pinPart
  | 2 => s.gatePart
  | 3 => s.contextPart
  | 4 => s.invalidatePart
  | 5 => s.hubPart
  | 6 => s.probePart
  | 7 => s.enginePart
  | 8 => s.formPart
  | 9 => s.dispatchPart
  | 10 => s.issuePart
  | 11 => s.unitPart
  | 12 => s.homePart
  | 13 => s.tackPart
  | 14 => s.releasePart
  | 15 => s.bumpPart
  | 16 => s.takePart
  | 17 => s.wakePart
  | 18 => s.joinPart
  | 19 => s.wakePart
  | 20 => s.settlePart
  | 21 => s.endPart
  | _ => s.queuePart

/-- The next part of the cycle begins; the last part ends it, with a freeze where one is due (R404). The part in which packets
issue goes on while it yields one. -/
def State.advance (s : State) : State :=
  let p := s.m.phase
  if p ≤ lastPhase then
    let (rows, s) := s.part p
    s.modify fun m => { m with agenda := rows, phase := if p == issuePhase && !rows.isEmpty then p else p + 1 }
  else if s.freezeDue then s.modify fun m => { m with agenda := [(.freeze, noOperands)] }
  else s.nextCycle

/-! ## What a step does -/

/-- What the next step does. -/
inductive Due where
  /-- bring-up has halted (R428) -/
  | halt
  /-- an instruction of the standing packet -/
  | instr (i : Instr) (s : State)
  /-- a row of the agenda -/
  | event (i : Instr) (s : State)
  /-- work without a row -/
  | move (s : State)

/-- The first thing in the inbox that acts while no cycle passes: a JTAG access, an access of the stamp log registers, or
a reset (R396, R402). -/
def State.outsideItem (s : State) : Option (Nat × List Row) :=
  let rowsOf := fun (i : InboxItem) => match i.other with
    | some r => if resets r then [r] else []
    | none => if i.item.port == 46 || s.slogAccess i.item then s.itemRows i.item else []
  let n := s.inbox.findIdx fun i => !(rowsOf i).isEmpty
  (s.inbox[n]?).map fun i => (n, rowsOf i)

/-- The rows of an outside item go before what stands on the agenda. -/
def State.takeOutside (s : State) (n : Nat) (rows : List Row) : State :=
  { s with inbox := s.inbox.eraseIdx n, m := { s.m with agenda := rows ++ s.m.agenda } }

/-- The head of the agenda becomes the event. -/
def State.nextRow (s : State) : Option Due :=
  match s.m.agenda with
  | (i, e) :: rest => some (.event i ((s.modify fun m => { m with agenda := rest }).admitRow e))
  | [] => none

/-- What a frozen module does (R402, R404 to R407). -/
def State.frozenDue (s : State) : Due :=
  match s.nextRow with
  | some d => d
  | none =>
    if s.mgmt.frzst == 2 then .event .scanDone s
    else if s.mgmt.frzst == 3 then .event .restartDone s
    else match s.outsideItem with
      | some (n, rows) => .move (s.takeOutside n rows)
      | none => .move s

/-- The pin that ends a halted bring-up. -/
def State.haltedDue (s : State) : Due :=
  match s.inbox.findSome? fun i => i.other.filter resets with
  | some (i, e) =>
    .event i (({ s with inbox := s.inbox.eraseIdx (s.inbox.findIdx fun x => (x.other.filter resets).isSome) } : State).admitRow e)
  | none => .halt

/-- What a module in reset does: the accesses that are no items of the run, in their order, and then bring-up, which a held reset
awaits from its pin (R396, R402, R429). -/
def State.resetDue (s : State) : Due :=
  let held := s.m.bringUp == 3
  let wanted := fun (x : Nat × List Row) => (s.inbox[x.1]?).any fun i => i.at_ == 0 && (held || i.other.isNone)
  match s.nextRow with
  | some d => d
  | none => match s.outsideItem.filter wanted with
    | some (n, rows) => .move (s.takeOutside n rows)
    | none => .move (if held then s else s.modify fun m => { m with agenda := [(.moduleReset, noOperands)] })

/-- What a running module does: the standing packet, the agenda, or the next part. -/
def State.runningDue (s : State) : Due :=
  if !s.m.packet.isEmpty then match s.decodePacket with
    | .ok (i, s) => .instr i s
    | .error s => .move s
  else match s.nextRow with
    | some d => d
    | none => .move s.advance

/-- What the next step does. -/
def State.due (s : State) : Due :=
  if s.m.bringUp == 2 then s.haltedDue
  else if s.frozen then s.frozenDue
  else if s.m.bringUp != 1 then s.resetDue
  else s.runningDue

end Sys2Proof.Machine
end

