-- ==== Sys2Proof/Machine/Float.lean ====
section
/-! DEFINITION. FP32, conversion, packed-pair and transcendental instructions (R111 to R119). -/

namespace Sys2Proof.Machine

/-- A result for each element: four for .x4, one otherwise (R101, R111). -/
def floatUnary (fn : Rnd → Word → Word) (l : Lane) : Calc :=
  let n := Ty.regs l.ty
  { words := (l.opnd n l.f.a).map (fn l.rnd) }
def floatBinary (fn : Rnd → Word → Word → Word) (l : Lane) : Calc :=
  let n := Ty.regs l.ty
  { words := List.zipWith (fn l.rnd) (l.opnd n l.f.a) (l.opnd n l.f.b) }

def faddCalc : Lane → Calc := floatBinary faddF32
def fsubCalc : Lane → Calc := floatBinary fsubF32
def fmulCalc : Lane → Calc := floatBinary fmulF32
/-- ffma: one rounding of a × b + c, in each element. -/
def ffmaCalc (l : Lane) : Calc :=
  let n := Ty.regs l.ty
  let ab := List.zip (l.opnd n l.f.a) (l.opnd n l.f.b)
  { words := List.zipWith (fun (x : Word × Word) c => ffmaF32 l.rnd x.1 x.2 c) ab (l.opnd n l.f.third) }
def fminCalc : Lane → Calc := floatBinary fun _ => fminF32
def fmaxCalc : Lane → Calc := floatBinary fun _ => fmaxF32
def fabsCalc : Lane → Calc := floatUnary fun _ => fabsF32
def fnegCalc : Lane → Calc := floatUnary fun _ => fnegF32
def frndCalc : Lane → Calc := floatUnary frndF32
def fscaleCalc : Lane → Calc := floatBinary fscaleF32
def fclassCalc : Lane → Calc := floatUnary fun _ => fclassF32
/-- fcmp (R113). -/
def fcmpCalc (l : Lane) : Calc :=
  { preds := [l.combined (predOf l.f.d) (fpCond (condOf l.f) (f32 (l.word l.f.a)) (f32 (l.word l.f.b)))] }
/-- fcvt (R116): only the narrowing pairs round stochastically (R34, R88). -/
def fcvtCalc (l : Lane) : Calc :=
  let st := cvtSrc l.f
  let r := if cvtNarrow l.ty then l.rnd else l.rnd.noStochastic
  let (x, s) := convert l.ty r 0 l.stream (cvtValue st (dwordOf (l.opnd (Ty.regs st) l.f.a)))
  { words := wordsOf (Ty.regs l.ty) x, ctr := some s.ctr }
/-- fdp4 (R115). -/
def fdp4Calc (l : Lane) : Calc :=
  { words := [fdp4F32 l.rnd (l.quad l.f.a) (l.quad l.f.b) (l.word l.f.third)] }

/-- A packed operation with its draws (R117). -/
def packed (op : PairOp) (l : Lane) : Calc :=
  let (x, s) := pairOp (halfFmt l.ty) op l.rnd l.stream (l.word l.f.a) (l.word l.f.b) (l.word l.f.third)
  { words := [x], ctr := some s.ctr }
def hadd2Calc : Lane → Calc := packed .add
def hmul2Calc : Lane → Calc := packed .mul
def hfma2Calc : Lane → Calc := packed .fma
def hmin2Calc : Lane → Calc := packed .min
def hmax2Calc : Lane → Calc := packed .max
/-- hcmp2 (R118): element 0 into pN and element 1 into pN+1. -/
def hcmp2Calc (l : Lane) : Calc :=
  let f := halfFmt l.ty
  let a := l.word l.f.a
  let b := l.word l.f.b
  let n := predOf l.f.d
  { preds := [l.combined n (fpCond (condOf l.f) (f.value (loElem a)) (f.value (loElem b))),
              l.combined (n + 1) (fpCond (condOf l.f) (f.value (hiElem a)) (f.value (hiElem b)))] }

/-- A transcendental of one FP32 source (R119). -/
def transCalc (fn : Trans) (l : Lane) : Calc := { words := [transF32 fn l.rnd (l.word l.f.a)] }

/-! ## Meanings -/

/-- FADD (R111). -/
def execFadd (o : Base) (s : State) : Out := .next (s.compute (.base 0x20 o) faddCalc)
/-- FADD_EXT (R111). -/
def execFaddExt (o : Ext) (s : State) : Out := .next (s.compute (.ext 0x20 o) faddCalc)
/-- FSUB (R111). -/
def execFsub (o : Base) (s : State) : Out := .next (s.compute (.base 0x21 o) fsubCalc)
/-- FSUB_EXT (R111). -/
def execFsubExt (o : Ext) (s : State) : Out := .next (s.compute (.ext 0x21 o) fsubCalc)
/-- FMUL (R111). -/
def execFmul (o : Base) (s : State) : Out := .next (s.compute (.base 0x22 o) fmulCalc)
/-- FMUL_EXT (R111). -/
def execFmulExt (o : Ext) (s : State) : Out := .next (s.compute (.ext 0x22 o) fmulCalc)
/-- FFMA (R111). -/
def execFfma (o : Base) (s : State) : Out := .next (s.compute (.base 0x23 o) ffmaCalc)
/-- FFMA_EXT (R111). -/
def execFfmaExt (o : Ext) (s : State) : Out := .next (s.compute (.ext 0x23 o) ffmaCalc)
/-- FMIN (R112). -/
def execFmin (o : Base) (s : State) : Out := .next (s.compute (.base 0x24 o) fminCalc)
/-- FMIN_EXT (R112). -/
def execFminExt (o : Ext) (s : State) : Out := .next (s.compute (.ext 0x24 o) fminCalc)
/-- FMAX (R112). -/
def execFmax (o : Base) (s : State) : Out := .next (s.compute (.base 0x25 o) fmaxCalc)
/-- FMAX_EXT (R112). -/
def execFmaxExt (o : Ext) (s : State) : Out := .next (s.compute (.ext 0x25 o) fmaxCalc)
/-- FABS (R112). -/
def execFabs (o : Base) (s : State) : Out := .next (s.compute (.base 0x26 o) fabsCalc)
/-- FABS_EXT (R112). -/
def execFabsExt (o : Ext) (s : State) : Out := .next (s.compute (.ext 0x26 o) fabsCalc)
/-- FNEG (R112). -/
def execFneg (o : Base) (s : State) : Out := .next (s.compute (.base 0x27 o) fnegCalc)
/-- FNEG_EXT (R112). -/
def execFnegExt (o : Ext) (s : State) : Out := .next (s.compute (.ext 0x27 o) fnegCalc)
/-- FCMP (R113). -/
def execFcmp (o : Base) (s : State) : Out := .next (s.compute (.base 0x28 o) fcmpCalc)
/-- FCMP_EXT (R113). -/
def execFcmpExt (o : Ext) (s : State) : Out := .next (s.compute (.ext 0x28 o) fcmpCalc)
/-- FRND (R111). -/
def execFrnd (o : Base) (s : State) : Out := .next (s.compute (.base 0x29 o) frndCalc)
/-- FRND_EXT (R111). -/
def execFrndExt (o : Ext) (s : State) : Out := .next (s.compute (.ext 0x29 o) frndCalc)
/-- FCLASS (R114). -/
def execFclass (o : Base) (s : State) : Out := .next (s.compute (.base 0x2A o) fclassCalc)
/-- FCLASS_EXT (R114). -/
def execFclassExt (o : Ext) (s : State) : Out := .next (s.compute (.ext 0x2A o) fclassCalc)
/-- FSCALE (R111). -/
def execFscale (o : Base) (s : State) : Out := .next (s.compute (.base 0x2B o) fscaleCalc)
/-- FSCALE_EXT (R111). -/
def execFscaleExt (o : Ext) (s : State) : Out := .next (s.compute (.ext 0x2B o) fscaleCalc)
/-- FCVT (R116). -/
def execFcvt (o : Base) (s : State) : Out := .next (s.compute (.base 0x2C o) fcvtCalc)
/-- FCVT_EXT (R116). -/
def execFcvtExt (o : Ext) (s : State) : Out := .next (s.compute (.ext 0x2C o) fcvtCalc)
/-- FDP4 (R115). -/
def execFdp4 (o : Base) (s : State) : Out := .next (s.compute (.base 0x2D o) fdp4Calc)
/-- FDP4_EXT (R115). -/
def execFdp4Ext (o : Ext) (s : State) : Out := .next (s.compute (.ext 0x2D o) fdp4Calc)
/-- HADD2 (R117). -/
def execHadd2 (o : Base) (s : State) : Out := .next (s.compute (.base 0x30 o) hadd2Calc)
/-- HADD2_EXT (R117). -/
def execHadd2Ext (o : Ext) (s : State) : Out := .next (s.compute (.ext 0x30 o) hadd2Calc)
/-- HMUL2 (R117). -/
def execHmul2 (o : Base) (s : State) : Out := .next (s.compute (.base 0x31 o) hmul2Calc)
/-- HMUL2_EXT (R117). -/
def execHmul2Ext (o : Ext) (s : State) : Out := .next (s.compute (.ext 0x31 o) hmul2Calc)
/-- HFMA2 (R117). -/
def execHfma2 (o : Base) (s : State) : Out := .next (s.compute (.base 0x32 o) hfma2Calc)
/-- HFMA2_EXT (R117). -/
def execHfma2Ext (o : Ext) (s : State) : Out := .next (s.compute (.ext 0x32 o) hfma2Calc)
/-- HMIN2 (R117). -/
def execHmin2 (o : Base) (s : State) : Out := .next (s.compute (.base 0x33 o) hmin2Calc)
/-- HMIN2_EXT (R117). -/
def execHmin2Ext (o : Ext) (s : State) : Out := .next (s.compute (.ext 0x33 o) hmin2Calc)
/-- HMAX2 (R117). -/
def execHmax2 (o : Base) (s : State) : Out := .next (s.compute (.base 0x34 o) hmax2Calc)
/-- HMAX2_EXT (R117). -/
def execHmax2Ext (o : Ext) (s : State) : Out := .next (s.compute (.ext 0x34 o) hmax2Calc)
/-- HCMP2 (R118). -/
def execHcmp2 (o : Base) (s : State) : Out := .next (s.compute (.base 0x35 o) hcmp2Calc)
/-- HCMP2_EXT (R118). -/
def execHcmp2Ext (o : Ext) (s : State) : Out := .next (s.compute (.ext 0x35 o) hcmp2Calc)
/-- EX2 (R119). -/
def execEx2 (o : Base) (s : State) : Out := .next (s.computeLater (.base 0x38 o) .trans (transCalc .ex2))
/-- EX2_EXT (R119). -/
def execEx2Ext (o : Ext) (s : State) : Out := .next (s.computeLater (.ext 0x38 o) .trans (transCalc .ex2))
/-- LG2 (R119). -/
def execLg2 (o : Base) (s : State) : Out := .next (s.computeLater (.base 0x39 o) .trans (transCalc .lg2))
/-- LG2_EXT (R119). -/
def execLg2Ext (o : Ext) (s : State) : Out := .next (s.computeLater (.ext 0x39 o) .trans (transCalc .lg2))
/-- RCP (R119). -/
def execRcp (o : Base) (s : State) : Out := .next (s.computeLater (.base 0x3A o) .trans (transCalc .rcp))
/-- RCP_EXT (R119). -/
def execRcpExt (o : Ext) (s : State) : Out := .next (s.computeLater (.ext 0x3A o) .trans (transCalc .rcp))
/-- RSQ (R119). -/
def execRsq (o : Base) (s : State) : Out := .next (s.computeLater (.base 0x3B o) .trans (transCalc .rsq))
/-- RSQ_EXT (R119). -/
def execRsqExt (o : Ext) (s : State) : Out := .next (s.computeLater (.ext 0x3B o) .trans (transCalc .rsq))
/-- SQRT (R119). -/
def execSqrt (o : Base) (s : State) : Out := .next (s.computeLater (.base 0x3C o) .trans (transCalc .sqrt))
/-- SQRT_EXT (R119). -/
def execSqrtExt (o : Ext) (s : State) : Out := .next (s.computeLater (.ext 0x3C o) .trans (transCalc .sqrt))
/-- SIN (R119). -/
def execSin (o : Base) (s : State) : Out := .next (s.computeLater (.base 0x3D o) .trans (transCalc .sin))
/-- SIN_EXT (R119). -/
def execSinExt (o : Ext) (s : State) : Out := .next (s.computeLater (.ext 0x3D o) .trans (transCalc .sin))
/-- COS (R119). -/
def execCos (o : Base) (s : State) : Out := .next (s.computeLater (.base 0x3E o) .trans (transCalc .cos))
/-- COS_EXT (R119). -/
def execCosExt (o : Ext) (s : State) : Out := .next (s.computeLater (.ext 0x3E o) .trans (transCalc .cos))

end Sys2Proof.Machine
end

