-- ==== Sys2Proof/Machine/Integer.lean ====
section
/-! DEFINITION. Integer, move and compare instructions (R104 to R110). Values are 64 bits wide with the value of
a 32-bit type in the low half. -/

namespace Sys2Proof.Machine

/-- w of R104. -/
def widthOf (ty : Nat) : Nat := 32 * Ty.regs ty

/-- s(x) at the width of the type (R104). -/
def signedOf (ty : Nat) (x : Dword) : Int := if Ty.regs ty == 2 then x.toInt else (lowHalf x).toInt

/-- An integer mod m. -/
def wrap (ty : Nat) (n : Int) : Dword := cut ty (BitVec.ofInt 64 n)

def mulHigh (ty : Nat) (a b : Dword) : Dword := wrap ty (valOf ty a * valOf ty b / (2 ^ widthOf ty : Nat))
def negate (ty : Nat) (a : Dword) : Dword := cut ty (0 - a)
def absolute (ty : Nat) (a : Dword) : Dword := cut ty (BitVec.ofNat 64 (signedOf ty a).natAbs)
def minimum (ty : Nat) (a b : Dword) : Dword := if valOf ty a ≤ valOf ty b then a else b
def maximum (ty : Nat) (a b : Dword) : Dword := if valOf ty a ≥ valOf ty b then a else b
def invert (ty : Nat) (a : Dword) : Dword := cut ty (~~~a)

/-- shl: a count of w or more gives 0. -/
def shiftLeft (ty : Nat) (a : Dword) (n : Nat) : Dword := if n ≥ widthOf ty then 0 else cut ty (a <<< n)
/-- shr: a count of w or more gives 0. -/
def shiftRight (ty : Nat) (a : Dword) (n : Nat) : Dword := if n ≥ widthOf ty then 0 else a >>> n
/-- sar: a count of w or more acts as w - 1. -/
def shiftArith (ty : Nat) (a : Dword) (n : Nat) : Dword :=
  wrap ty (signedOf ty a / (2 ^ Nat.min n (widthOf ty - 1) : Nat))
/-- rot: left, by n mod w. -/
def rotateLeft (ty : Nat) (a : Dword) (n : Nat) : Dword :=
  let w := widthOf ty
  let n := n % w
  cut ty (a <<< n) + a >>> (w - n)

def popCount (ty : Nat) (a : Dword) : Nat := ((List.range (widthOf ty)).filter fun i => a.getLsbD i).length
/-- clz: w when a = 0. -/
def leadingZeros (ty : Nat) (a : Dword) : Nat :=
  ((List.range (widthOf ty)).find? fun i => a.getLsbD (widthOf ty - 1 - i)).getD (widthOf ty)
/-- ctz: w when a = 0. -/
def trailingZeros (ty : Nat) (a : Dword) : Nat :=
  ((List.range (widthOf ty)).find? fun i => a.getLsbD i).getD (widthOf ty)
def bitReverse (ty : Nat) (a : Dword) : Dword :=
  BitVec.ofNat 64 ((List.range (widthOf ty)).foldl (fun x i => 2 * x + (a.getLsbD i).toNat) 0)

/-- Position and length of a bit-field specifier, limited to the width (R105). -/
def fieldLimits (w : Nat) (spec : Word) : Nat × Nat :=
  let pos := spec.toNat % 256
  let len := spec.toNat / 256 % 256
  if pos ≥ w then (pos, 0) else (pos, Nat.min len (w - pos))

/-- bfe (R105). -/
def bitExtract (ty : Nat) (a : Dword) (spec : Word) : Dword :=
  let (pos, len) := fieldLimits (widthOf ty) spec
  if len == 0 then 0
  else
    let f := a.toNat / 2 ^ pos % 2 ^ len
    if Ty.signed ty && f ≥ 2 ^ (len - 1) then wrap ty ((f : Int) - (2 ^ len : Nat)) else BitVec.ofNat 64 f

/-- bfi (R105): the low bits of a into c. -/
def bitInsert (ty : Nat) (a c : Dword) (spec : Word) : Dword :=
  let (pos, len) := fieldLimits (widthOf ty) spec
  let mask : Dword := BitVec.ofNat 64 ((2 ^ len - 1) * 2 ^ pos)
  (c &&& ~~~mask) ||| ((a <<< pos) &&& mask)

/-- movk (R106): halfword h of c becomes a[15:0]. -/
def moveHalf (ty : Nat) (a c : Dword) (spec : Word) : Dword :=
  let h := spec.toNat % (widthOf ty / 16)
  let mask : Dword := 0xFFFF#64 <<< (16 * h)
  (c &&& ~~~mask) ||| ((a &&& 0xFFFF) <<< (16 * h))

/-- div (R110): toward zero; a zero divisor gives all ones. -/
def quotient (ty : Nat) (a b : Dword) : Dword :=
  if b == 0 then cut ty (BitVec.allOnes 64) else wrap ty ((valOf ty a).tdiv (valOf ty b))
/-- rem (R110): the sign of the dividend; a zero divisor gives a. -/
def remainder (ty : Nat) (a b : Dword) : Dword :=
  if b == 0 then a else wrap ty ((valOf ty a).tmod (valOf ty b))

/-! ## Operand shapes -/

/-- A result at the width of the type. -/
def Lane.result (l : Lane) (x : Dword) : Calc := { words := wordsOf (Ty.regs l.ty) x }
def unary (fn : Nat → Dword → Dword) (l : Lane) : Calc := l.result (fn l.ty (l.val l.f.a))
def binary (fn : Nat → Dword → Dword → Dword) (l : Lane) : Calc := l.result (fn l.ty (l.val l.f.a) (l.val l.f.b))
/-- The second operand is one 32-bit register (R101). -/
def counted (fn : Nat → Dword → Nat → Dword) (l : Lane) : Calc :=
  l.result (fn l.ty (l.val l.f.a) (l.word l.f.b).toNat)
/-- A third operand and a 32-bit specifier (R105, R106). -/
def specified (fn : Nat → Dword → Dword → Word → Dword) (l : Lane) : Calc :=
  l.result (fn l.ty (l.val l.f.a) (l.val l.f.third) (l.word l.f.b))

def addCalc : Lane → Calc := binary fun ty a b => cut ty (a + b)
def subCalc : Lane → Calc := binary fun ty a b => cut ty (a - b)
def mulCalc : Lane → Calc := binary fun ty a b => cut ty (a * b)
def mulhCalc : Lane → Calc := binary mulHigh
def madCalc (l : Lane) : Calc := l.result (cut l.ty (l.val l.f.a * l.val l.f.b + l.val l.f.third))
def negCalc : Lane → Calc := unary negate
def absCalc : Lane → Calc := unary absolute
def minCalc : Lane → Calc := binary minimum
def maxCalc : Lane → Calc := binary maximum
def andCalc : Lane → Calc := binary fun _ a b => a &&& b
def orCalc : Lane → Calc := binary fun _ a b => a ||| b
def xorCalc : Lane → Calc := binary fun _ a b => a ^^^ b
def notCalc : Lane → Calc := unary invert
def andnCalc : Lane → Calc := binary fun _ a b => a &&& ~~~b
def shlCalc : Lane → Calc := counted shiftLeft
def shrCalc : Lane → Calc := counted shiftRight
def sarCalc : Lane → Calc := counted shiftArith
def rotCalc : Lane → Calc := counted rotateLeft
def bfeCalc (l : Lane) : Calc := l.result (bitExtract l.ty (l.val l.f.a) (l.word l.f.b))
def bfiCalc : Lane → Calc := specified bitInsert
def popcCalc : Lane → Calc := unary fun ty a => BitVec.ofNat 64 (popCount ty a)
def clzCalc : Lane → Calc := unary fun ty a => BitVec.ofNat 64 (leadingZeros ty a)
def ctzCalc : Lane → Calc := unary fun ty a => BitVec.ofNat 64 (trailingZeros ty a)
def brevCalc : Lane → Calc := unary bitReverse
/-- sel (R107): a when pC is true, else b; bits only. -/
def selCalc (l : Lane) : Calc := l.result (if l.t.pred (predOf l.f.c) then l.val l.f.a else l.val l.f.b)
def movCalc : Lane → Calc := unary fun _ a => a
def movkCalc : Lane → Calc := specified moveHalf
/-- lea (R108): the index is sign-extended for .i32; the shift is 0 in the base form. -/
def leaCalc (l : Lane) : Calc :=
  let b := l.word l.f.b
  let x : Dword := if l.ty == Ty.i32 then b.signExtend 64 else b.zeroExtend 64
  { words := wordsOf 2 (l.dword l.f.a + x <<< (l.f.imm.toNat % 8)) }
/-- cmp (R109). -/
def cmpCalc (l : Lane) : Calc :=
  { preds := [l.combined (predOf l.f.d)
      (intCond (condOf l.f) (valOf l.ty (l.val l.f.a)) (valOf l.ty (l.val l.f.b)))] }
def divCalc : Lane → Calc := binary quotient
def remCalc : Lane → Calc := binary remainder

/-! ## Meanings -/

/-- ADD (R104). -/
def execAdd (o : Base) (s : State) : Out := .next (s.compute (.base 0x00 o) addCalc)
/-- ADD_EXT (R104). -/
def execAddExt (o : Ext) (s : State) : Out := .next (s.compute (.ext 0x00 o) addCalc)
/-- SUB (R104). -/
def execSub (o : Base) (s : State) : Out := .next (s.compute (.base 0x01 o) subCalc)
/-- SUB_EXT (R104). -/
def execSubExt (o : Ext) (s : State) : Out := .next (s.compute (.ext 0x01 o) subCalc)
/-- MUL (R104). -/
def execMul (o : Base) (s : State) : Out := .next (s.compute (.base 0x02 o) mulCalc)
/-- MUL_EXT (R104). -/
def execMulExt (o : Ext) (s : State) : Out := .next (s.compute (.ext 0x02 o) mulCalc)
/-- MULH (R104). -/
def execMulh (o : Base) (s : State) : Out := .next (s.compute (.base 0x03 o) mulhCalc)
/-- MULH_EXT (R104). -/
def execMulhExt (o : Ext) (s : State) : Out := .next (s.compute (.ext 0x03 o) mulhCalc)
/-- MAD (R104). -/
def execMad (o : Base) (s : State) : Out := .next (s.compute (.base 0x04 o) madCalc)
/-- MAD_EXT (R104). -/
def execMadExt (o : Ext) (s : State) : Out := .next (s.compute (.ext 0x04 o) madCalc)
/-- NEG (R104). -/
def execNeg (o : Base) (s : State) : Out := .next (s.compute (.base 0x05 o) negCalc)
/-- NEG_EXT (R104). -/
def execNegExt (o : Ext) (s : State) : Out := .next (s.compute (.ext 0x05 o) negCalc)
/-- ABS (R104). -/
def execAbs (o : Base) (s : State) : Out := .next (s.compute (.base 0x06 o) absCalc)
/-- ABS_EXT (R104). -/
def execAbsExt (o : Ext) (s : State) : Out := .next (s.compute (.ext 0x06 o) absCalc)
/-- MIN (R104). -/
def execMin (o : Base) (s : State) : Out := .next (s.compute (.base 0x07 o) minCalc)
/-- MIN_EXT (R104). -/
def execMinExt (o : Ext) (s : State) : Out := .next (s.compute (.ext 0x07 o) minCalc)
/-- MAX (R104). -/
def execMax (o : Base) (s : State) : Out := .next (s.compute (.base 0x08 o) maxCalc)
/-- MAX_EXT (R104). -/
def execMaxExt (o : Ext) (s : State) : Out := .next (s.compute (.ext 0x08 o) maxCalc)
/-- AND (R104). -/
def execAnd (o : Base) (s : State) : Out := .next (s.compute (.base 0x09 o) andCalc)
/-- AND_EXT (R104). -/
def execAndExt (o : Ext) (s : State) : Out := .next (s.compute (.ext 0x09 o) andCalc)
/-- OR (R104). -/
def execOr (o : Base) (s : State) : Out := .next (s.compute (.base 0x0A o) orCalc)
/-- OR_EXT (R104). -/
def execOrExt (o : Ext) (s : State) : Out := .next (s.compute (.ext 0x0A o) orCalc)
/-- XOR (R104). -/
def execXor (o : Base) (s : State) : Out := .next (s.compute (.base 0x0B o) xorCalc)
/-- XOR_EXT (R104). -/
def execXorExt (o : Ext) (s : State) : Out := .next (s.compute (.ext 0x0B o) xorCalc)
/-- NOT (R104). -/
def execNot (o : Base) (s : State) : Out := .next (s.compute (.base 0x0C o) notCalc)
/-- NOT_EXT (R104). -/
def execNotExt (o : Ext) (s : State) : Out := .next (s.compute (.ext 0x0C o) notCalc)
/-- ANDN (R104). -/
def execAndn (o : Base) (s : State) : Out := .next (s.compute (.base 0x0D o) andnCalc)
/-- ANDN_EXT (R104). -/
def execAndnExt (o : Ext) (s : State) : Out := .next (s.compute (.ext 0x0D o) andnCalc)
/-- SHL (R104). -/
def execShl (o : Base) (s : State) : Out := .next (s.compute (.base 0x0E o) shlCalc)
/-- SHL_EXT (R104). -/
def execShlExt (o : Ext) (s : State) : Out := .next (s.compute (.ext 0x0E o) shlCalc)
/-- SHR (R104). -/
def execShr (o : Base) (s : State) : Out := .next (s.compute (.base 0x0F o) shrCalc)
/-- SHR_EXT (R104). -/
def execShrExt (o : Ext) (s : State) : Out := .next (s.compute (.ext 0x0F o) shrCalc)
/-- SAR (R104). -/
def execSar (o : Base) (s : State) : Out := .next (s.compute (.base 0x10 o) sarCalc)
/-- SAR_EXT (R104). -/
def execSarExt (o : Ext) (s : State) : Out := .next (s.compute (.ext 0x10 o) sarCalc)
/-- ROT (R104). -/
def execRot (o : Base) (s : State) : Out := .next (s.compute (.base 0x11 o) rotCalc)
/-- ROT_EXT (R104). -/
def execRotExt (o : Ext) (s : State) : Out := .next (s.compute (.ext 0x11 o) rotCalc)
/-- BFE (R105). -/
def execBfe (o : Base) (s : State) : Out := .next (s.compute (.base 0x12 o) bfeCalc)
/-- BFE_EXT (R105). -/
def execBfeExt (o : Ext) (s : State) : Out := .next (s.compute (.ext 0x12 o) bfeCalc)
/-- BFI (R105). -/
def execBfi (o : Base) (s : State) : Out := .next (s.compute (.base 0x13 o) bfiCalc)
/-- BFI_EXT (R105). -/
def execBfiExt (o : Ext) (s : State) : Out := .next (s.compute (.ext 0x13 o) bfiCalc)
/-- POPC (R104). -/
def execPopc (o : Base) (s : State) : Out := .next (s.compute (.base 0x14 o) popcCalc)
/-- POPC_EXT (R104). -/
def execPopcExt (o : Ext) (s : State) : Out := .next (s.compute (.ext 0x14 o) popcCalc)
/-- CLZ (R104). -/
def execClz (o : Base) (s : State) : Out := .next (s.compute (.base 0x15 o) clzCalc)
/-- CLZ_EXT (R104). -/
def execClzExt (o : Ext) (s : State) : Out := .next (s.compute (.ext 0x15 o) clzCalc)
/-- CTZ (R104). -/
def execCtz (o : Base) (s : State) : Out := .next (s.compute (.base 0x16 o) ctzCalc)
/-- CTZ_EXT (R104). -/
def execCtzExt (o : Ext) (s : State) : Out := .next (s.compute (.ext 0x16 o) ctzCalc)
/-- BREV (R104). -/
def execBrev (o : Base) (s : State) : Out := .next (s.compute (.base 0x17 o) brevCalc)
/-- BREV_EXT (R104). -/
def execBrevExt (o : Ext) (s : State) : Out := .next (s.compute (.ext 0x17 o) brevCalc)
/-- SEL (R107). -/
def execSel (o : Ext) (s : State) : Out := .next (s.compute (.ext 0x18 o) selCalc)
/-- MOV (R106). -/
def execMov (o : Base) (s : State) : Out := .next (s.compute (.base 0x19 o) movCalc)
/-- MOV_EXT (R106). -/
def execMovExt (o : Ext) (s : State) : Out := .next (s.compute (.ext 0x19 o) movCalc)
/-- MOVK (R106). -/
def execMovk (o : Base) (s : State) : Out := .next (s.compute (.base 0x1A o) movkCalc)
/-- MOVK_EXT (R106). -/
def execMovkExt (o : Ext) (s : State) : Out := .next (s.compute (.ext 0x1A o) movkCalc)
/-- LEA (R108). -/
def execLea (o : Base) (s : State) : Out := .next (s.compute (.base 0x1B o) leaCalc)
/-- LEA_EXT (R108). -/
def execLeaExt (o : Ext) (s : State) : Out := .next (s.compute (.ext 0x1B o) leaCalc)
/-- CMP (R109). -/
def execCmp (o : Base) (s : State) : Out := .next (s.compute (.base 0x1C o) cmpCalc)
/-- CMP_EXT (R109). -/
def execCmpExt (o : Ext) (s : State) : Out := .next (s.compute (.ext 0x1C o) cmpCalc)
/-- DIV (R110). -/
def execDiv (o : Base) (s : State) : Out := .next (s.computeLater (.base 0x1D o) .divide divCalc)
/-- DIV_EXT (R110). -/
def execDivExt (o : Ext) (s : State) : Out := .next (s.computeLater (.ext 0x1D o) .divide divCalc)
/-- REM (R110). -/
def execRem (o : Base) (s : State) : Out := .next (s.computeLater (.base 0x1E o) .divide remCalc)
/-- REM_EXT (R110). -/
def execRemExt (o : Ext) (s : State) : Out := .next (s.computeLater (.ext 0x1E o) .divide remCalc)

end Sys2Proof.Machine
end

