-- ==== Sys2Proof/Machine/Special.lean ====
section
/-! DEFINITION. `srd` and `swr` over every special register of R32 (R34 to R41, R135). -/

namespace Sys2Proof.Machine

/-- The value of a special register in a thread, at 64 bits (R32). RP registers read zero without privilege
(R39). -/
def State.special (s : State) (t : Thread) (n : Nat) : Dword :=
  let ctx := s.ctxOf t.ref.kid
  let priv := (s.context ctx).priv
  let k := s.kernel? t.ref.kid
  let word := fun (x : Nat) => (BitVec.ofNat 64 x : Dword)
  let ofGang := fun (f : Gang → Nat) => match s.gangOf t with
    | some g => word (f g)
    | none => 0
  match n with
  | 0x00 => word t.ref.lane
  | 0x01 => word t.ref.gang
  | 0x02 => word t.ref.team
  | 0x03 => word t.rank
  | 0x04 => word (lowHalf t.grank).toNat
  | 0x05 => t.lineage
  | 0x06 => ofGang (·.vcore)
  | 0x07 => ofGang (·.vslot)
  | 0x08 => ofGang (·.role)
  | 0x09 => word ctx
  | 0x0A => if priv then 1 else 0
  | 0x0B => word (highHalf t.grank).toNat
  | 0x10 => word s.m.cycle
  | 0x11 => t.fmode.zeroExtend 64
  | 0x12 => s.seedOf t.ref.kid
  | 0x13 => t.rngctr
  | 0x14 => t.sptr.zeroExtend 64
  | 0x15 => t.tackst.zeroExtend 64
  | 0x16 => t.popst.zeroExtend 64
  | 0x17 => ofGang (·.blocks.length)
  | 0x18 => match k with
    | some k => word (k.energy / 10 ^ 9)
    | none => 0
  | 0x20 => t.x.cause.zeroExtend 64
  | 0x21 => t.x.pc
  | 0x22 => t.x.addr
  | 0x23 => t.x.word0.zeroExtend 64
  | 0x24 => t.x.word1.zeroExtend 64
  | 0x25 => t.x.word2.zeroExtend 64
  | 0x26 => t.x.word3
  | 0x27 => t.x.fld
  | 0x30 => if priv then ofGang fun g => 4 * g.hub + g.core else 0
  | 0x31 => if priv then ofGang fun g => 32 * g.quarter + g.slot else 0
  | 0x32 => if priv then ofGang fun g => (s.quarter { hub := g.hub, core := g.core, quarter := g.quarter }).cadence
      else 0
  | _ => 0

/-- Width in registers of a special register. -/
def srWidth (n : Nat) : Nat :=
  match srInfo n with
  | some (w, _, _) => w
  | none => 1

/-- srd (R39, R135). -/
def State.srdCalc (s : State) (l : Lane) : Calc :=
  let n := l.f.a.toNat
  { words := wordsOf (srWidth n) (s.special l.t n) }

/-- A special register written in a thread (R34 to R36, R40, R41). -/
def Thread.writeSpecial (t : Thread) (n : Nat) (x : Dword) : Thread :=
  let w := lowHalf x
  match n with
  | 0x11 => { t with fmode := w.truncate 3 }
  | 0x14 => { t with sptr := w }
  | 0x15 => { t with tackst := tackstWritten t.tackst w }
  | 0x16 => { t with popst := popstWritten t.popst w }
  | 0x21 => { t with x := { t.x with pc := x } }
  | _ => t

/-- The access of a special register is RP (R32). -/
def srPrivileged (n : Nat) : Bool :=
  match srInfo n with
  | some (_, .rp, _) => true
  | _ => false

/-- swr (R39, R135): an RP register raises PRIV, or ILLEGAL_FIELD with privilege; a reserved bit or code in the
value raises ILLEGAL_FIELD with BADF 9. -/
def State.writesSpecial (s : State) (c : Code) (t : Thread) : State :=
  let n := c.fields.a.toNat
  let l := s.lane c t
  let x := if srWidth n == 2 then l.dword c.fields.b else (l.word c.fields.b).zeroExtend 64
  if srPrivileged n then
    if (s.context (s.ctxOf t.ref.kid)).priv then s.raiseAt t c { cause := Cause.illegalField, badf := 4 }
    else s.raiseAt t c { cause := Cause.priv }
  else if swrBad n x then s.raiseAt t c { cause := Cause.illegalField, badf := 9 }
  else s.setThread ((t.writeSpecial n x).finish c)

/-! ## Meanings -/

/-- SRD (R135). -/
def execSrd (o : Base) (s : State) : Out := .next (s.compute (.base 0x55 o) s.srdCalc)
/-- SRD_EXT (R135). -/
def execSrdExt (o : Ext) (s : State) : Out := .next (s.compute (.ext 0x55 o) s.srdCalc)
/-- SWR (R135). -/
def execSwr (o : Base) (s : State) : Out :=
  .next (s.run (.base 0x56 o) fun s t => s.writesSpecial (.base 0x56 o) t)
/-- SWR_EXT (R135). -/
def execSwrExt (o : Ext) (s : State) : Out :=
  .next (s.run (.ext 0x56 o) fun s t => s.writesSpecial (.ext 0x56 o) t)

end Sys2Proof.Machine
end

