-- ==== Sys2Proof/Machine/Dispatch.lean ====
section
/-! DEFINITION. The dispatch: one arm for each row of the table of operations and events. -/

namespace Sys2Proof.Machine

/-- What an instruction or event does at a state. -/
def exec (i : Instr) (s : State) : Host.Outcome State Fault Refusal :=
  match i with
  | .add o => Sys2Proof.Machine.execAdd o s
  | .addExt o => Sys2Proof.Machine.execAddExt o s
  | .sub o => Sys2Proof.Machine.execSub o s
  | .subExt o => Sys2Proof.Machine.execSubExt o s
  | .mul o => Sys2Proof.Machine.execMul o s
  | .mulExt o => Sys2Proof.Machine.execMulExt o s
  | .mulh o => Sys2Proof.Machine.execMulh o s
  | .mulhExt o => Sys2Proof.Machine.execMulhExt o s
  | .mad o => Sys2Proof.Machine.execMad o s
  | .madExt o => Sys2Proof.Machine.execMadExt o s
  | .neg o => Sys2Proof.Machine.execNeg o s
  | .negExt o => Sys2Proof.Machine.execNegExt o s
  | .abs o => Sys2Proof.Machine.execAbs o s
  | .absExt o => Sys2Proof.Machine.execAbsExt o s
  | .min o => Sys2Proof.Machine.execMin o s
  | .minExt o => Sys2Proof.Machine.execMinExt o s
  | .max o => Sys2Proof.Machine.execMax o s
  | .maxExt o => Sys2Proof.Machine.execMaxExt o s
  | .and o => Sys2Proof.Machine.execAnd o s
  | .andExt o => Sys2Proof.Machine.execAndExt o s
  | .or o => Sys2Proof.Machine.execOr o s
  | .orExt o => Sys2Proof.Machine.execOrExt o s
  | .xor o => Sys2Proof.Machine.execXor o s
  | .xorExt o => Sys2Proof.Machine.execXorExt o s
  | .not o => Sys2Proof.Machine.execNot o s
  | .notExt o => Sys2Proof.Machine.execNotExt o s
  | .andn o => Sys2Proof.Machine.execAndn o s
  | .andnExt o => Sys2Proof.Machine.execAndnExt o s
  | .shl o => Sys2Proof.Machine.execShl o s
  | .shlExt o => Sys2Proof.Machine.execShlExt o s
  | .shr o => Sys2Proof.Machine.execShr o s
  | .shrExt o => Sys2Proof.Machine.execShrExt o s
  | .sar o => Sys2Proof.Machine.execSar o s
  | .sarExt o => Sys2Proof.Machine.execSarExt o s
  | .rot o => Sys2Proof.Machine.execRot o s
  | .rotExt o => Sys2Proof.Machine.execRotExt o s
  | .bfe o => Sys2Proof.Machine.execBfe o s
  | .bfeExt o => Sys2Proof.Machine.execBfeExt o s
  | .bfi o => Sys2Proof.Machine.execBfi o s
  | .bfiExt o => Sys2Proof.Machine.execBfiExt o s
  | .popc o => Sys2Proof.Machine.execPopc o s
  | .popcExt o => Sys2Proof.Machine.execPopcExt o s
  | .clz o => Sys2Proof.Machine.execClz o s
  | .clzExt o => Sys2Proof.Machine.execClzExt o s
  | .ctz o => Sys2Proof.Machine.execCtz o s
  | .ctzExt o => Sys2Proof.Machine.execCtzExt o s
  | .brev o => Sys2Proof.Machine.execBrev o s
  | .brevExt o => Sys2Proof.Machine.execBrevExt o s
  | .sel o => Sys2Proof.Machine.execSel o s
  | .mov o => Sys2Proof.Machine.execMov o s
  | .movExt o => Sys2Proof.Machine.execMovExt o s
  | .movk o => Sys2Proof.Machine.execMovk o s
  | .movkExt o => Sys2Proof.Machine.execMovkExt o s
  | .lea o => Sys2Proof.Machine.execLea o s
  | .leaExt o => Sys2Proof.Machine.execLeaExt o s
  | .cmp o => Sys2Proof.Machine.execCmp o s
  | .cmpExt o => Sys2Proof.Machine.execCmpExt o s
  | .div o => Sys2Proof.Machine.execDiv o s
  | .divExt o => Sys2Proof.Machine.execDivExt o s
  | .rem o => Sys2Proof.Machine.execRem o s
  | .remExt o => Sys2Proof.Machine.execRemExt o s
  | .fadd o => Sys2Proof.Machine.execFadd o s
  | .faddExt o => Sys2Proof.Machine.execFaddExt o s
  | .fsub o => Sys2Proof.Machine.execFsub o s
  | .fsubExt o => Sys2Proof.Machine.execFsubExt o s
  | .fmul o => Sys2Proof.Machine.execFmul o s
  | .fmulExt o => Sys2Proof.Machine.execFmulExt o s
  | .ffma o => Sys2Proof.Machine.execFfma o s
  | .ffmaExt o => Sys2Proof.Machine.execFfmaExt o s
  | .fmin o => Sys2Proof.Machine.execFmin o s
  | .fminExt o => Sys2Proof.Machine.execFminExt o s
  | .fmax o => Sys2Proof.Machine.execFmax o s
  | .fmaxExt o => Sys2Proof.Machine.execFmaxExt o s
  | .fabs o => Sys2Proof.Machine.execFabs o s
  | .fabsExt o => Sys2Proof.Machine.execFabsExt o s
  | .fneg o => Sys2Proof.Machine.execFneg o s
  | .fnegExt o => Sys2Proof.Machine.execFnegExt o s
  | .fcmp o => Sys2Proof.Machine.execFcmp o s
  | .fcmpExt o => Sys2Proof.Machine.execFcmpExt o s
  | .frnd o => Sys2Proof.Machine.execFrnd o s
  | .frndExt o => Sys2Proof.Machine.execFrndExt o s
  | .fclass o => Sys2Proof.Machine.execFclass o s
  | .fclassExt o => Sys2Proof.Machine.execFclassExt o s
  | .fscale o => Sys2Proof.Machine.execFscale o s
  | .fscaleExt o => Sys2Proof.Machine.execFscaleExt o s
  | .fcvt o => Sys2Proof.Machine.execFcvt o s
  | .fcvtExt o => Sys2Proof.Machine.execFcvtExt o s
  | .fdp4 o => Sys2Proof.Machine.execFdp4 o s
  | .fdp4Ext o => Sys2Proof.Machine.execFdp4Ext o s
  | .hadd2 o => Sys2Proof.Machine.execHadd2 o s
  | .hadd2Ext o => Sys2Proof.Machine.execHadd2Ext o s
  | .hmul2 o => Sys2Proof.Machine.execHmul2 o s
  | .hmul2Ext o => Sys2Proof.Machine.execHmul2Ext o s
  | .hfma2 o => Sys2Proof.Machine.execHfma2 o s
  | .hfma2Ext o => Sys2Proof.Machine.execHfma2Ext o s
  | .hmin2 o => Sys2Proof.Machine.execHmin2 o s
  | .hmin2Ext o => Sys2Proof.Machine.execHmin2Ext o s
  | .hmax2 o => Sys2Proof.Machine.execHmax2 o s
  | .hmax2Ext o => Sys2Proof.Machine.execHmax2Ext o s
  | .hcmp2 o => Sys2Proof.Machine.execHcmp2 o s
  | .hcmp2Ext o => Sys2Proof.Machine.execHcmp2Ext o s
  | .ex2 o => Sys2Proof.Machine.execEx2 o s
  | .ex2Ext o => Sys2Proof.Machine.execEx2Ext o s
  | .lg2 o => Sys2Proof.Machine.execLg2 o s
  | .lg2Ext o => Sys2Proof.Machine.execLg2Ext o s
  | .rcp o => Sys2Proof.Machine.execRcp o s
  | .rcpExt o => Sys2Proof.Machine.execRcpExt o s
  | .rsq o => Sys2Proof.Machine.execRsq o s
  | .rsqExt o => Sys2Proof.Machine.execRsqExt o s
  | .sqrt o => Sys2Proof.Machine.execSqrt o s
  | .sqrtExt o => Sys2Proof.Machine.execSqrtExt o s
  | .sin o => Sys2Proof.Machine.execSin o s
  | .sinExt o => Sys2Proof.Machine.execSinExt o s
  | .cos o => Sys2Proof.Machine.execCos o s
  | .cosExt o => Sys2Proof.Machine.execCosExt o s
  | .bra o => Sys2Proof.Machine.execBra o s
  | .brx o => Sys2Proof.Machine.execBrx o s
  | .brxExt o => Sys2Proof.Machine.execBrxExt o s
  | .call o => Sys2Proof.Machine.execCall o s
  | .callx o => Sys2Proof.Machine.execCallx o s
  | .callxExt o => Sys2Proof.Machine.execCallxExt o s
  | .ret o => Sys2Proof.Machine.execRet o s
  | .retExt o => Sys2Proof.Machine.execRetExt o s
  | .exit o => Sys2Proof.Machine.execExit o s
  | .exitExt o => Sys2Proof.Machine.execExitExt o s
  | .nop o => Sys2Proof.Machine.execNop o s
  | .nopExt o => Sys2Proof.Machine.execNopExt o s
  | .yield o => Sys2Proof.Machine.execYield o s
  | .yieldExt o => Sys2Proof.Machine.execYieldExt o s
  | .brk o => Sys2Proof.Machine.execBrk o s
  | .brkExt o => Sys2Proof.Machine.execBrkExt o s
  | .plog o => Sys2Proof.Machine.execPlog o s
  | .pmov o => Sys2Proof.Machine.execPmov o s
  | .pmovExt o => Sys2Proof.Machine.execPmovExt o s
  | .shfl o => Sys2Proof.Machine.execShfl o s
  | .vote o => Sys2Proof.Machine.execVote o s
  | .rdfl o => Sys2Proof.Machine.execRdfl o s
  | .rdflExt o => Sys2Proof.Machine.execRdflExt o s
  | .redux o => Sys2Proof.Machine.execRedux o s
  | .scanInstr o => Sys2Proof.Machine.execScanInstr o s
  | .srd o => Sys2Proof.Machine.execSrd o s
  | .srdExt o => Sys2Proof.Machine.execSrdExt o s
  | .swr o => Sys2Proof.Machine.execSwr o s
  | .swrExt o => Sys2Proof.Machine.execSwrExt o s
  | .ld o => Sys2Proof.Machine.execLd o s
  | .ldExt o => Sys2Proof.Machine.execLdExt o s
  | .st o => Sys2Proof.Machine.execSt o s
  | .stExt o => Sys2Proof.Machine.execStExt o s
  | .atom o => Sys2Proof.Machine.execAtom o s
  | .red o => Sys2Proof.Machine.execRed o s
  | .fence o => Sys2Proof.Machine.execFence o s
  | .pf o => Sys2Proof.Machine.execPf o s
  | .pres o => Sys2Proof.Machine.execPres o s
  | .presExt o => Sys2Proof.Machine.execPresExt o s
  | .sfence o => Sys2Proof.Machine.execSfence o s
  | .sfenceExt o => Sys2Proof.Machine.execSfenceExt o s
  | .dcopy o => Sys2Proof.Machine.execDcopy o s
  | .pstep o => Sys2Proof.Machine.execPstep o s
  | .pstepExt o => Sys2Proof.Machine.execPstepExt o s
  | .lkwait o => Sys2Proof.Machine.execLkwait o s
  | .lkwaitExt o => Sys2Proof.Machine.execLkwaitExt o s
  | .tackLd o => Sys2Proof.Machine.execTackLd o s
  | .tackLdExt o => Sys2Proof.Machine.execTackLdExt o s
  | .tackOpen o => Sys2Proof.Machine.execTackOpen o s
  | .tackOpenExt o => Sys2Proof.Machine.execTackOpenExt o s
  | .tackChk o => Sys2Proof.Machine.execTackChk o s
  | .tackDrop o => Sys2Proof.Machine.execTackDrop o s
  | .tackDropExt o => Sys2Proof.Machine.execTackDropExt o s
  | .gsync o => Sys2Proof.Machine.execGsync o s
  | .gsyncExt o => Sys2Proof.Machine.execGsyncExt o s
  | .barArr o => Sys2Proof.Machine.execBarArr o s
  | .barWait o => Sys2Proof.Machine.execBarWait o s
  | .barSync o => Sys2Proof.Machine.execBarSync o s
  | .tbInit o => Sys2Proof.Machine.execTbInit o s
  | .tbArr o => Sys2Proof.Machine.execTbArr o s
  | .tbExp o => Sys2Proof.Machine.execTbExp o s
  | .tbWait o => Sys2Proof.Machine.execTbWait o s
  | .tbTest o => Sys2Proof.Machine.execTbTest o s
  | .join o => Sys2Proof.Machine.execJoin o s
  | .joinExt o => Sys2Proof.Machine.execJoinExt o s
  | .gridsync o => Sys2Proof.Machine.execGridsync o s
  | .gridsyncExt o => Sys2Proof.Machine.execGridsyncExt o s
  | .spawn o => Sys2Proof.Machine.execSpawn o s
  | .xacq o => Sys2Proof.Machine.execXacq o s
  | .xacqExt o => Sys2Proof.Machine.execXacqExt o s
  | .xrel o => Sys2Proof.Machine.execXrel o s
  | .xrelExt o => Sys2Proof.Machine.execXrelExt o s
  | .rsmp o => Sys2Proof.Machine.execRsmp o s
  | .bkdecl o => Sys2Proof.Machine.execBkdecl o s
  | .mma o => Sys2Proof.Machine.execMma o s
  | .mzero o => Sys2Proof.Machine.execMzero o s
  | .mld o => Sys2Proof.Machine.execMld o s
  | .mldRegs o => Sys2Proof.Machine.execMldRegs o s
  | .mst o => Sys2Proof.Machine.execMst o s
  | .mstRegs o => Sys2Proof.Machine.execMstRegs o s
  | .mcvt o => Sys2Proof.Machine.execMcvt o s
  | .qblk o => Sys2Proof.Machine.execQblk o s
  | .qpost o => Sys2Proof.Machine.execQpost o s
  | .qsig o => Sys2Proof.Machine.execQsig o s
  | .mark o => Sys2Proof.Machine.execMark o s
  | .markExt o => Sys2Proof.Machine.execMarkExt o s
  | .sysTrap o => Sys2Proof.Machine.execSysTrap o s
  | .sysTrapExt o => Sys2Proof.Machine.execSysTrapExt o s
  | .sysTret o => Sys2Proof.Machine.execSysTret o s
  | .sysTretExt o => Sys2Proof.Machine.execSysTretExt o s
  | .sysTkill o => Sys2Proof.Machine.execSysTkill o s
  | .sysTkillExt o => Sys2Proof.Machine.execSysTkillExt o s
  | .sysHalt o => Sys2Proof.Machine.execSysHalt o s
  | .sysHaltExt o => Sys2Proof.Machine.execSysHaltExt o s
  | .sysCad o => Sys2Proof.Machine.execSysCad o s
  | .sysCadExt o => Sys2Proof.Machine.execSysCadExt o s
  | .sysIdle o => Sys2Proof.Machine.execSysIdle o s
  | .sysIdleExt o => Sys2Proof.Machine.execSysIdleExt o s
  | .powerOn => Sys2Proof.Machine.execPowerOn s
  | .moduleReset => Sys2Proof.Machine.execModuleReset s
  | .attestationReport => Sys2Proof.Machine.execAttestationReport s
  | .dramRefresh => Sys2Proof.Machine.execDramRefresh s
  | .pickerTick => Sys2Proof.Machine.execPickerTick s
  | .cadenceTakesEffect => Sys2Proof.Machine.execCadenceTakesEffect s
  | .deferredResultReturn => Sys2Proof.Machine.execDeferredResultReturn s
  | .threadWake => Sys2Proof.Machine.execThreadWake s
  | .l1FillReturn => Sys2Proof.Machine.execL1FillReturn s
  | .writeBackAck => Sys2Proof.Machine.execWriteBackAck s
  | .l2Fill => Sys2Proof.Machine.execL2Fill s
  | .currentGenerationBump => Sys2Proof.Machine.execCurrentGenerationBump s
  | .releaseWriteBackComplete => Sys2Proof.Machine.execReleaseWriteBackComplete s
  | .releaseAccessAck => Sys2Proof.Machine.execReleaseAccessAck s
  | .writerNotice => Sys2Proof.Machine.execWriterNotice s
  | .replicaInvalidationAck => Sys2Proof.Machine.execReplicaInvalidationAck s
  | .promotionAcknowledgement => Sys2Proof.Machine.execPromotionAcknowledgement s
  | .tackCheck => Sys2Proof.Machine.execTackCheck s
  | .tackReply => Sys2Proof.Machine.execTackReply s
  | .tackEntryExpiry => Sys2Proof.Machine.execTackEntryExpiry s
  | .copyRegister => Sys2Proof.Machine.execCopyRegister s
  | .copySourceRead => Sys2Proof.Machine.execCopySourceRead s
  | .copySectorLand => Sys2Proof.Machine.execCopySectorLand s
  | .copyFault => Sys2Proof.Machine.execCopyFault s
  | .operandFetch => Sys2Proof.Machine.execOperandFetch s
  | .operandFetchComplete => Sys2Proof.Machine.execOperandFetchComplete s
  | .passGrant => Sys2Proof.Machine.execPassGrant s
  | .passWrite => Sys2Proof.Machine.execPassWrite s
  | .portOperationStart => Sys2Proof.Machine.execPortOperationStart s
  | .portOperationComplete => Sys2Proof.Machine.execPortOperationComplete s
  | .operandGenerationBump => Sys2Proof.Machine.execOperandGenerationBump s
  | .binTimerExpiry => Sys2Proof.Machine.execBinTimerExpiry s
  | .gangFormation => Sys2Proof.Machine.execGangFormation s
  | .xacqGrant => Sys2Proof.Machine.execXacqGrant s
  | .joinReturn => Sys2Proof.Machine.execJoinReturn s
  | .gridsyncArrivalPacket => Sys2Proof.Machine.execGridsyncArrivalPacket s
  | .resample => Sys2Proof.Machine.execResample s
  | .resampleComplete => Sys2Proof.Machine.execResampleComplete s
  | .preemptionRequest => Sys2Proof.Machine.execPreemptionRequest s
  | .preemptionReachesQuarter => Sys2Proof.Machine.execPreemptionReachesQuarter s
  | .teamSave => Sys2Proof.Machine.execTeamSave s
  | .teamRestore => Sys2Proof.Machine.execTeamRestore s
  | .contextCreate => Sys2Proof.Machine.execContextCreate s
  | .contextSave => Sys2Proof.Machine.execContextSave s
  | .contextRestore => Sys2Proof.Machine.execContextRestore s
  | .contextDestroy => Sys2Proof.Machine.execContextDestroy s
  | .debugRightRevoke => Sys2Proof.Machine.execDebugRightRevoke s
  | .debugSessionOpen => Sys2Proof.Machine.execDebugSessionOpen s
  | .debugHalt => Sys2Proof.Machine.execDebugHalt s
  | .debugRead => Sys2Proof.Machine.execDebugRead s
  | .debugStageEdit => Sys2Proof.Machine.execDebugStageEdit s
  | .debugCommit => Sys2Proof.Machine.execDebugCommit s
  | .debugSetBreakpoint => Sys2Proof.Machine.execDebugSetBreakpoint s
  | .debugSetTakebrk => Sys2Proof.Machine.execDebugSetTakebrk s
  | .debugResume => Sys2Proof.Machine.execDebugResume s
  | .queueCreate => Sys2Proof.Machine.execQueueCreate s
  | .queueReset => Sys2Proof.Machine.execQueueReset s
  | .queueDestroy => Sys2Proof.Machine.execQueueDestroy s
  | .doorbell => Sys2Proof.Machine.execDoorbell s
  | .nopPacket => Sys2Proof.Machine.execNopPacket s
  | .launchPacket => Sys2Proof.Machine.execLaunchPacket s
  | .waitPacket => Sys2Proof.Machine.execWaitPacket s
  | .signalPacket => Sys2Proof.Machine.execSignalPacket s
  | .snapshotPacket => Sys2Proof.Machine.execSnapshotPacket s
  | .traceOpenPacket => Sys2Proof.Machine.execTraceOpenPacket s
  | .traceClosePacket => Sys2Proof.Machine.execTraceClosePacket s
  | .waitCounterRead => Sys2Proof.Machine.execWaitCounterRead s
  | .admissionSnapshot => Sys2Proof.Machine.execAdmissionSnapshot s
  | .energyGrant => Sys2Proof.Machine.execEnergyGrant s
  | .teamDispatch => Sys2Proof.Machine.execTeamDispatch s
  | .kernelDrainEnd => Sys2Proof.Machine.execKernelDrainEnd s
  | .translationCompletion => Sys2Proof.Machine.execTranslationCompletion s
  | .prgResponse => Sys2Proof.Machine.execPrgResponse s
  | .invalidateRequest => Sys2Proof.Machine.execInvalidateRequest s
  | .contextGenerationBump => Sys2Proof.Machine.execContextGenerationBump s
  | .invalidateCompletion => Sys2Proof.Machine.execInvalidateCompletion s
  | .leaseEnd => Sys2Proof.Machine.execLeaseEnd s
  | .regionCounterZeroing => Sys2Proof.Machine.execRegionCounterZeroing s
  | .moveBegin => Sys2Proof.Machine.execMoveBegin s
  | .moveDrained => Sys2Proof.Machine.execMoveDrained s
  | .moveEnd => Sys2Proof.Machine.execMoveEnd s
  | .moveHistoryFree => Sys2Proof.Machine.execMoveHistoryFree s
  | .settledEnd => Sys2Proof.Machine.execSettledEnd s
  | .linkEnable => Sys2Proof.Machine.execLinkEnable s
  | .linkDisable => Sys2Proof.Machine.execLinkDisable s
  | .linkRetrain => Sys2Proof.Machine.execLinkRetrain s
  | .linkErrcntClear => Sys2Proof.Machine.execLinkErrcntClear s
  | .trainingComplete => Sys2Proof.Machine.execTrainingComplete s
  | .lossOfLock => Sys2Proof.Machine.execLossOfLock s
  | .hostMemoryWrite => Sys2Proof.Machine.execHostMemoryWrite s
  | .hostReadRequest => Sys2Proof.Machine.execHostReadRequest s
  | .hostAtomicop => Sys2Proof.Machine.execHostAtomicop s
  | .hostCompletion => Sys2Proof.Machine.execHostCompletion s
  | .fabricPacket => Sys2Proof.Machine.execFabricPacket s
  | .ethernetFrameReceive => Sys2Proof.Machine.execEthernetFrameReceive s
  | .ethernetTxtailWrite => Sys2Proof.Machine.execEthernetTxtailWrite s
  | .ethernetFrameSent => Sys2Proof.Machine.execEthernetFrameSent s
  | .alignmentRequestSend => Sys2Proof.Machine.execAlignmentRequestSend s
  | .alignmentRequestReceive => Sys2Proof.Machine.execAlignmentRequestReceive s
  | .alignmentAnswer => Sys2Proof.Machine.execAlignmentAnswer s
  | .slogModeOff => Sys2Proof.Machine.execSlogModeOff s
  | .slogModeRecord => Sys2Proof.Machine.execSlogModeRecord s
  | .slogModeReplay => Sys2Proof.Machine.execSlogModeReplay s
  | .slogOvfClear => Sys2Proof.Machine.execSlogOvfClear s
  | .replayInject => Sys2Proof.Machine.execReplayInject s
  | .stopcycWrite => Sys2Proof.Machine.execStopcycWrite s
  | .freeze => Sys2Proof.Machine.execFreeze s
  | .scan => Sys2Proof.Machine.execScan s
  | .scanDone => Sys2Proof.Machine.execScanDone s
  | .restart => Sys2Proof.Machine.execRestart s
  | .restartDone => Sys2Proof.Machine.execRestartDone s
  | .resume => Sys2Proof.Machine.execResume s
  | .clean => Sys2Proof.Machine.execClean s
  | .counterClear => Sys2Proof.Machine.execCounterClear s
  | .uncorrectableError => Sys2Proof.Machine.execUncorrectableError s
  | .cleanRefetch => Sys2Proof.Machine.execCleanRefetch s
  | .samplePeriodTest => Sys2Proof.Machine.execSamplePeriodTest s
  | .sampledAccessComplete => Sys2Proof.Machine.execSampledAccessComplete s
  | .epochEnd => Sys2Proof.Machine.execEpochEnd s
  | .thermalLimit => Sys2Proof.Machine.execThermalLimit s
  | .registerWrite => Sys2Proof.Machine.execRegisterWrite s
  | .homeSliceAccess => Sys2Proof.Machine.execHomeSliceAccess s
  | .promotionRequest => Sys2Proof.Machine.execPromotionRequest s
  | .linkLevelRetry => Sys2Proof.Machine.execLinkLevelRetry s
  | .spokePortPause => Sys2Proof.Machine.execSpokePortPause s

end Sys2Proof.Machine
end

