-- ==== Sys2Proof/Machine/Step.lean ====
section
/-! DEFINITION. One step of the machine (log entry 6): an instruction of the standing packet, a row of the agenda, or
work that no row of the table names. -/

namespace Sys2Proof.Machine

/-- The packet of an outcome has issued. -/
def afterPacket : Host.Outcome State Fault Refusal → Host.Outcome State Fault Refusal
  | .next s => .next s.endPacket
  | .fault r => .fault r
  | .refused r => .refused r

/-- One step. -/
def step (s : State) : Host.Outcome State Fault Refusal :=
  match s.due with
  | .halt => .fault .bringUpHalted
  | .instr i s => afterPacket (exec i s)
  | .event i s => exec i s
  | .move s => .next s

/-! ## A program placed from outside (log entry 5) -/

/-- The address that the placed instruction stands at, virtual and physical. -/
abbrev placeAddr : Nat := 0x10000

/-- The 20 bytes of an instruction numbered as the table numbers it. -/
def placedBytes (nbits w : Nat) : List Byte :=
  (List.range 20).map fun k => BitVec.ofNat 8 ((w % 2 ^ nbits) >>> (8 * k))

/-- The launch record of the kernel that stands in for a load: one team of one gang, with 64 KiB of scratch. -/
def placedLaunch : LaunchRec :=
  { launchOf [] with
    entry := BitVec.ofNat 64 placeAddr, teams := 1, gangs := 1, hsBytes := 65536,
    roles := [{ gangs := 1, prio := 0, blocks := 0, ginit := [] }] }

/-- The placed kernel, RUNNING with its one team dispatched. -/
def placedKernel (kid cycle : Nat) : Kernel :=
  { newKernel kid cycle (Queue.fresh 0) [] with
    st := .running, knum := 0, launch := some placedLaunch, dispatched := 1, hubs := [0] }

/-- The placed page: code at its own address, with every permission. -/
def placedTlb (cycle : Nat) (gen : BitVec 8) : Tlb :=
  { ctx := 0, vbase := placeAddr, logSize := 12, place := .here, pbase := placeAddr, r := true, w := true, x := true, u := false,
    gen := gen, leaseEnd := cycle + leaseCycles, use := 0 }

/-- The state with an instruction stored where the next step fetches: memory, a running kernel of one thread at the
instruction, a translation of its page, and the standing packet of that thread. -/
def State.withFetchWord (s : State) (nbits w : Nat) : State :=
  let kid := s.m.nextKid
  let team := newTeam { kid := kid, team := 0 } 0 placedLaunch { seats := [(0, 0, 0, 0)], hsBase := 0, acc := [], budgets := [] } 0 0
  let ref : ThreadRef := { kid := kid, team := 0, gang := 0, lane := 0 }
  let gang := s.newGang ref.gangRef 0 0 0 0 0 (0, 0)
  let h := s.hub 0
  let e := placedTlb s.m.cycle (s.context 0).gen
  let c := h.cores.toArray.getD 0 Core.fresh
  let s := s.setHub { h with cores := h.cores.setIfInBounds 0 { c with tlb := e :: c.tlb } }
  { s with
    mem := Memory.writeBytes s.mem placeAddr (placedBytes nbits w)
    frozen := false
    m := { s.m with
      bringUp := 1
      phase := issuePhase + 1
      agenda := []
      packet := [ref]
      packetPc := BitVec.ofNat 64 placeAddr
      packetDenied := none
      nextKid := kid + 1
      kernels := s.m.kernels ++ [placedKernel kid s.m.cycle]
      teams := s.m.teams ++ [team]
      gangs := s.m.gangs ++ [gang]
      threads := s.m.threads ++ [Thread.fresh ref (BitVec.ofNat 64 placeAddr) 0 0 0]
      l2 := s.m.l2.filter (·.pa != placeAddr)
      page := { s.m.page with move := none } } }

end Sys2Proof.Machine
end

