-- ==== Sys2Proof/Machine/Biras.lean ====
section
/-! DEFINITION. The assembler `biras`: a line of source text to the words of an instruction (R49, R52, R53, R65, R68,
R72 to R76, R102, R159, R201 and the entries). An answer none is a rejected line. -/

namespace Sys2Proof.Biras
open Sys2Proof.Machine

/-! ## Words of a line (R72) -/

/-- A part of a source line. -/
inductive Token where
  | word (cs : List Char)
  | punct (c : Char)
deriving DecidableEq, Repr

def sameChar (a b : Char) : Bool := Nat.beq a.toNat b.toNat
def between (lo hi : Nat) (c : Char) : Bool := Nat.ble lo c.toNat && Nat.ble c.toNat hi
def isDigit (c : Char) : Bool := between 48 57 c
def isLetter (c : Char) : Bool := between 97 122 c || between 65 90 c
def oneOf (cs : List Char) (c : Char) : Bool := cs.any (sameChar c)
/-- A letter, a digit or an underscore: what continues an identifier. -/
def isIdentChar (c : Char) : Bool := isLetter c || isDigit c || sameChar c '_'
def isWordChar (c : Char) : Bool := isIdentChar c || sameChar c '.'
/-- The same characters. -/
def sameWord : List Char → List Char → Bool
  | [], [] => true
  | a :: as, b :: bs => if sameChar a b then sameWord as bs else false
  | _, _ => false

/-- A sign that belongs to the exponent of the number being read; word is reversed. -/
def signInNumber (word : List Char) (c : Char) : Bool :=
  oneOf ['+', '-'] c &&
  match word with
  | 'e' :: rest | 'E' :: rest => rest.all (fun x => isDigit x || sameChar x '.') && !rest.isEmpty
  | _ => false

def flush (word : List Char) : List Token := if word.isEmpty then [] else [.word word.reverse]

/-- The parts of a line without its comment; none: a character of no statement. -/
def lex : List Char → List Char → Option (List Token)
  | word, [] => some (flush word)
  | word, c :: cs =>
    if isWordChar c || signInNumber word c then lex (c :: word) cs
    else if sameChar c '/' then (if cs.head?.any (sameChar '/') then some (flush word) else none)
    else if oneOf [' ', '\t', '\r'] c then (lex [] cs).map (flush word ++ ·)
    else if oneOf ['(', ')', '!', ',', '[', ']', ':', '+', '-', '='] c then
      (lex [] cs).map (flush word ++ .punct c :: ·)
    else none

/-- The lines of a text. -/
def splitAt (sep : Char) : List Char → List (List Char)
  | [] => [[]]
  | c :: cs =>
    match splitAt sep cs with
    | l :: ls => if sameChar c sep then [] :: l :: ls else (c :: l) :: ls
    | [] => [[c]]

/-! ## Names -/

/-- The word is the text. -/
def isText (w : List Char) (s : String) : Bool := String.ofList w == s

/-- The number of a word in a table of names. -/
def find (names : List (String × Nat)) (w : List Char) : Option Nat :=
  (names.find? fun p => isText w p.1).map (·.2)

/-- Names numbered from k. -/
def number (k : Nat) : List String → List (String × Nat)
  | [] => []
  | n :: ns => (n, k) :: number (k + 1) ns

/-- The special registers (R32). -/
def specials : List (String × Nat) :=
  number 0x00 ["lane", "gangid", "teamid", "rank", "grank", "lineage", "vcore", "vslot", "role", "ctxid", "priv", "grankh"]
    ++ number 0x10 ["cycle", "fmode", "seed", "rngctr", "sptr", "tackst", "popst", "xheld", "energy"]
    ++ number 0x20 ["xcause", "xpc", "xaddr", "xword0", "xword1", "xword2", "xword3", "xfld"]
    ++ number 0x30 ["pcore", "pslot", "cadence"]

/-- Type suffixes (R56). -/
def typeNames : List (String × Nat) :=
  number 0 ["i32", "n32", "i64", "n64", "f32", "f16", "bf16", "i8", "n8", "l6", "x4"]

/-- Address spaces (R136). -/
def spaceNames : List (String × Nat) := number 0 ["gl", "hs", "ks", "pv", "kc"]

/-- Mnemonics and their opcodes (R63). The four `tack` instructions are found by their second word. -/
def mnemonics : List (String × Nat) :=
  number 0x00 ["add", "sub", "mul", "mulh", "mad", "neg", "abs", "min", "max", "and", "or", "xor", "not", "andn", "shl",
    "shr", "sar", "rot", "bfe", "bfi", "popc", "clz", "ctz", "brev", "sel", "mov", "movk", "lea", "cmp", "div", "rem"]
    ++ number 0x20 ["fadd", "fsub", "fmul", "ffma", "fmin", "fmax", "fabs", "fneg", "fcmp", "frnd", "fclass", "fscale",
      "fcvt", "fdp4"]
    ++ number 0x30 ["hadd2", "hmul2", "hfma2", "hmin2", "hmax2", "hcmp2"]
    ++ number 0x38 ["ex2", "lg2", "rcp", "rsq", "sqrt", "sin", "cos"]
    ++ number 0x40 ["bra", "brx", "call", "callx", "ret", "exit", "nop", "yield", "brk", "plog", "pmov"]
    ++ number 0x50 ["shfl", "vote", "rdfl", "redux", "scan", "srd", "swr"]
    ++ number 0x58 ["ld", "st", "atom", "red", "fence", "pf", "pres", "sfence", "dcopy", "pstep", "lkwait"]
    ++ number 0x68 ["gsync", "bar", "tb", "join", "gridsync", "spawn", "xacq", "xrel", "rsmp"]
    ++ number 0x74 ["bkdecl", "mma", "mzero", "mld", "mst", "mcvt", "qblk", "qpost", "qsig", "mark", "sys"]
def tackNames : List (String × Nat) := number 0x63 ["ld", "open", "chk", "drop"]

def digit (c : Char) : Option Nat := if isDigit c then some (c.toNat - 48) else none
def hexDigit (c : Char) : Option Nat :=
  if isDigit c then some (c.toNat - 48)
  else if between 97 102 c then some (c.toNat - 87)
  else if between 65 70 c then some (c.toNat - 55)
  else none
def binDigit (c : Char) : Option Nat := if sameChar c '0' then some 0 else if sameChar c '1' then some 1 else none

/-- The number that digits of a base write after n; none: no digit of the base. -/
def digits (base : Nat) (value : Char → Option Nat) : Nat → List Char → Option Nat
  | n, [] => some n
  | n, c :: cs => match value c with
    | some d => digits base value (base * n + d) cs
    | none => none
/-- A number of at least one digit. -/
def digits1 (base : Nat) (value : Char → Option Nat) (cs : List Char) : Option Nat :=
  if cs.isEmpty then none else digits base value 0 cs

/-- A register (R74). -/
inductive Reg where
  | v (n : Nat)
  | g (n : Nat)
  | p (n : Nat)
  | bk (n : Nat)
  | z (n : Nat)
deriving DecidableEq, Repr

/-- A register's number: decimal, without a leading zero, below the limit. -/
def regNumber (limit : Nat) (cs : List Char) : Option Nat :=
  if 1 < cs.length && cs.head?.any (sameChar '0') then none
  else (digits1 10 digit cs).bind fun n => if n < limit then some n else none

/-- The register a word names (R74). -/
def register : List Char → Option Reg
  | 'b' :: 'k' :: cs => (regNumber 16 cs).map .bk
  | 'v' :: cs => (regNumber 96 cs).map .v
  | 'g' :: cs => (regNumber 128 cs).map .g
  | 'p' :: cs => (regNumber 8 cs).map .p
  | 'z' :: cs => (regNumber 64 cs).map .z
  | _ => none

/-- An identifier that a label or a constant may bear (R72). -/
def isName (w : List Char) : Bool :=
  match w with
  | c :: cs =>
    isIdentChar c && !isDigit c && cs.all isIdentChar
      && (register w).isNone && (find specials w).isNone && !isText w "RND"
  | [] => false

/-! ## Values (R74) -/

/-- A value: an integer, with the multiples of the code base and of the global data base that the loader adds
(R78); or the exact decimal (-1)^neg × m × 10^e. hex: every number in it is written in hexadecimal or binary. -/
inductive Val where
  | int (hex : Bool) (n code data : Int)
  | fp (neg : Bool) (m : Nat) (e : Int)
deriving DecidableEq, Repr

/-- The signed multiple of 10^f that a decimal is, f at most its exponent. -/
def atTen (neg : Bool) (m : Nat) (e f : Int) : Int := signed neg (m * 10 ^ (e - f).toNat)

/-- A sum or a difference of two values. -/
def Val.plus (minus : Bool) : Val → Val → Option Val
  | .int h n c d, .int h' n' c' d' =>
    let k : Int := if minus then -1 else 1
    some (.int (h && h') (n + k * n') (c + k * c') (d + k * d'))
  | .fp neg m e, .fp neg' m' e' =>
    let f := min e e'
    let x := atTen neg m e f + atTen (neg' != minus) m' e' f
    some (.fp (x < 0) x.natAbs f)
  | _, _ => none

/-- The parts of a decimal with a point: digits before it, digits after it. -/
def splitPoint : List Char → List Char × Option (List Char)
  | [] => ([], none)
  | '.' :: cs => ([], some cs)
  | c :: cs => let (a, b) := splitPoint cs; (c :: a, b)

/-- The parts of a decimal with an exponent. -/
def splitExponent : List Char → List Char × Option (List Char)
  | [] => ([], none)
  | c :: cs => if oneOf ['e', 'E'] c then ([], some cs) else let (a, b) := splitExponent cs; (c :: a, b)

/-- A signed decimal exponent. -/
def exponent : List Char → Option Int
  | '-' :: cs => (digits1 10 digit cs).map fun n => -(n : Int)
  | '+' :: cs => (digits1 10 digit cs).map Int.ofNat
  | cs => (digits1 10 digit cs).map Int.ofNat

/-- A decimal with a point or an exponent: m × 10^e. -/
def decimal (cs : List Char) : Option (Nat × Int) :=
  let (mant, ex) := splitExponent cs
  let (whole, frac) := splitPoint mant
  if ex.isNone && frac.isNone then none
  else
    let fs := frac.getD []
    match digits1 10 digit (whole ++ fs), (match ex with
      | some x => exponent x
      | none => some 0) with
    | some m, some e => some (m, e - fs.length)
    | _, _ => none

/-- A number as written, without its sign. bare: the trailing `f` may be left out, and a decimal integer is the
FP32 number of its value, with a trailing `f` too: R74 asks of an FP number a point or an exponent, and R77 speaks only of leaving
the `f` out, so that `.float 1f` is open, and accepted as the number 1 (DESIGN CHOICE, log entry 129). -/
def numeral (bare : Bool) (w : List Char) : Option Val :=
  match w with
  | '0' :: 'x' :: cs => (digits1 16 hexDigit cs).map fun n => .int true n 0 0
  | '0' :: 'b' :: cs => (digits1 2 binDigit cs).map fun n => .int true n 0 0
  | _ =>
    match digits1 10 digit w with
    | some n => if bare then some (.fp false n 0) else some (.int false n 0 0)
    | none =>
      let body := if w.getLast?.any (sameChar 'f') then some w.dropLast else if bare then some w else none
      match body with
      | some cs => match decimal cs with
        | some (m, e) => some (.fp false m e)
        | none => if bare then (digits1 10 digit cs).map (fun n => .fp false n 0) else none
      | none => none

/-- Where a label stands: in the code, in the constant bank of its kernel, or in the global data. -/
inductive Place where
  | code (n : Nat)
  | bank (n : Nat)
  | data (n : Nat)
deriving DecidableEq, Repr

/-- A label as a number: an offset, from a base that the loader adds, or in the constant bank itself. -/
def Place.val : Place → Val
  | .code n => .int false n 1 0
  | .bank n => .int false n 0 0
  | .data n => .int false n 0 1

/-- What names stand for. -/
structure Names where
  labels : List (List Char × Place)
  consts : List (List Char × Val)
deriving DecidableEq, Repr

def lookup (l : List (List Char × α)) (w : List Char) : Option α := (l.find? fun p => sameWord p.1 w).map (·.2)

/-- A number, a constant or a label. -/
def term (env : Names) (bare : Bool) (w : List Char) : Option Val :=
  match numeral bare w with
  | some v => some v
  | none => match lookup env.consts w with
    | some v => some v
    | none => (lookup env.labels w).map Place.val

/-- A decimal number with a minus sign. -/
def negated (bare : Bool) (w : List Char) : Option Val :=
  match numeral bare w with
  | some (.int false n 0 0) => some (.int false (-n) 0 0)
  | some (.fp _ m e) => some (.fp true m e)
  | _ => none

/-- The rest of a sum or difference. -/
def sumRest (env : Names) (bare : Bool) : Val → List Token → Option Val
  | v, [] => some v
  | v, .punct s :: .punct '-' :: .word w :: ts =>
    if oneOf ['+', '-'] s then
      (negated bare w).bind fun x => (v.plus (sameChar s '-') x).bind fun y => sumRest env bare y ts
    else none
  | v, .punct s :: .word w :: ts =>
    if oneOf ['+', '-'] s then
      (term env bare w).bind fun x => (v.plus (sameChar s '-') x).bind fun y => sumRest env bare y ts
    else none
  | _, _ => none

/-- A number, a constant, a label, or a sum or difference of these (R74). -/
def value (env : Names) (ts : List Token) (bare : Bool := false) : Option Val :=
  match ts with
  | .punct '-' :: .word w :: rest => (negated bare w).bind fun v => sumRest env bare v rest
  | .word w :: rest => (term env bare w).bind fun v => sumRest env bare v rest
  | _ => none

/-- An exact decimal as a dyadic value with the same rounding in every format of R79: a quotient is carried to 200
bits, and its last bit stands for what is left. -/
def dyadic (neg : Bool) (m : Nat) (e : Int) : Fp :=
  if 0 ≤ e then .fin neg (m * 10 ^ e.toNat) 0
  else
    let den := 10 ^ (-e).toNat
    let s := Nat.log2 den + 201
    let q := m * 2 ^ s / den
    .fin neg (2 * q + (if m * 2 ^ s % den == 0 then 0 else 1)) (-(s : Int) - 1)

/-- The pattern of an exact decimal in a format, rounded once with RNE (R74). A number past the format's range is infinity, as
RNE gives it: R74 does not say that one is rejected (DESIGN CHOICE, log entry 108). -/
def fpBits (f : Fmt) (neg : Bool) (m : Nat) (e : Int) : Nat := (f.encode false .rne 0 (dyadic neg m e)).bits

/-- A number that the loader does not change; an FP number stands for its FP32 pattern. A label is none: R77 speaks of
a value only, so `.gang` rejects a label (DESIGN CHOICE, log entry 108). -/
def Val.plain : Val → Option Int
  | .int _ n 0 0 => some n
  | .fp neg m e => some (fpBits fp32 neg m e)
  | _ => none

/-- An integer in a range. -/
def Val.within (lo hi : Int) : Val → Option Int
  | .int _ n 0 0 => if lo ≤ n && n ≤ hi then some n else none
  | _ => none

/-- n as w bits, signed or unsigned; none: it does not fit. -/
def fits (w : Nat) (n : Int) : Option Nat :=
  if -(2 ^ (w - 1) : Int) ≤ n && n < 2 ^ w then some (n % 2 ^ w).toNat else none

/-! ## Operands -/

/-- What an operand position reads: an integer of 32 or 64 bits, an FP32 number, a pair of an element format, or a
32-bit pattern of another type. -/
inductive Kind where
  | int
  | wide
  | fp
  | half (t : Nat)
  | raw
deriving DecidableEq, Repr

/-- The kind of a position of a type (R6, R56). -/
def Kind.ofType (t : Nat) : Kind :=
  if t == Ty.i64 || t == Ty.n64 then .wide
  else if t == Ty.f32 || t == Ty.x4 then .fp
  else if t == Ty.i32 || t == Ty.n32 then .int
  else .raw

/-- A literal: its value, whether all 64 bits are read, and the base that the loader adds (R53, R78). -/
structure Literal where
  bits : Nat
  wide : Bool
  base : Option Bool
deriving DecidableEq, Repr

/-- What an operand field takes: an operand code, or a number of another role. -/
inductive Content where
  | opnd (o : Opnd)
  | raw (n : Nat)
deriving DecidableEq, Repr

/-- The code of R49 for a pattern, when one has it. -/
def constant (wide : Bool) (n : Nat) : Option Opnd :=
  if n == 0 then some .zero
  else if n == 1 then some .one
  else if wide then (if n == 2 ^ 64 - 1 then some .minusOne else none)
  else if n == 0xFFFFFFFF then some .minusOne
  else if n == 0x3F000000 then some .half
  else if n == 0x3F800000 then some .fone
  else if n == 0x40000000 then some .two
  else none

/-- The pattern of a value in a position; none: it does not fit (R74, R76). -/
def Kind.literal (k : Kind) (v : Val) : Option Literal :=
  let based := fun (b : Bool) (n : Int) => some { bits := (n % 2 ^ 64).toNat, wide := k == .wide, base := some b : Literal }
  let word := fun (n : Nat) => ({ bits := n, wide := false, base := none } : Literal)
  match k, v with
  | .wide, .int _ n 0 0 => (fits 64 n).map fun x => { bits := x, wide := true, base := none }
  | .wide, .int _ n 1 0 | .int, .int _ n 1 0 => based false n
  | .wide, .int _ n 0 1 | .int, .int _ n 0 1 => based true n
  | .int, .int _ n 0 0 | .raw, .int _ n 0 0 => (fits 32 n).map word
  | .int, .fp neg m e | .fp, .fp neg m e => some (word (fpBits fp32 neg m e))
  | .half t, .fp neg m e => some (word (65537 * fpBits (halfFmt t) neg m e))
  | .fp, .int true n 0 0 | .half _, .int true n 0 0 => (fits 32 n).map word
  | _, _ => none

/-- An operand that is a number: a constant code, or the literal code with the literal (R74). -/
def Kind.operand (k : Kind) (v : Val) : Option (Opnd × Option Literal) :=
  (k.literal v).map fun l =>
    match (if l.base.isNone then constant l.wide l.bits else none) with
    | some o => (o, none)
    | none => (.lit, some l)

/-- One literal for two operands: they agree on the bits that both read (R53). -/
def Literal.join (x y : Literal) : Option Literal :=
  if x.base == y.base && x.bits % 2 ^ 32 == y.bits % 2 ^ 32 && (!(x.wide && y.wide) || x.bits == y.bits) then
    some (if x.wide then x else y)
  else none
def joinLiteral : Option Literal → Option Literal → Option (Option Literal)
  | none, l | l, none => some l
  | some x, some y => (x.join y).map some

/-! ## An instruction under way -/

inductive Field where
  | d
  | a
  | b
  | c
deriving DecidableEq, Repr

/-- What has been read of an instruction. rmt: `.rmt` on an atomic; third: C is the third source, still D's. -/
structure Draft where
  op : Nat
  sub : Nat := 0
  fmt : Nat := 0
  src : Nat := 0
  rnd : Nat := 0
  ord : Nat := 0
  scope : Nat := 0
  rmt : Bool := false
  cond : Nat := 0
  d : Content := .raw 0
  a : Content := .raw 0
  b : Content := .raw 0
  c : Content := .raw 0
  third : Bool := false
  space : Option Nat := none
  offset : Option (Sum Opnd Val) := none
  imm : Nat := 0
  inward : Bool := false
  guard : Option (Bool × Nat) := none
  marker : Bool := false
  lit : Option Literal := none
deriving DecidableEq, Repr

def Draft.put (x : Draft) (f : Field) (v : Content) : Draft :=
  match f with
  | .d => { x with d := v }
  | .a => { x with a := v }
  | .b => { x with b := v }
  | .c => { x with c := v, third := false }

def Draft.putNumber (x : Draft) (f : Field) (k : Kind) (v : Val) : Option Draft :=
  (k.operand v).bind fun (o, l) => (joinLiteral x.lit l).map fun l => { x.put f (.opnd o) with lit := l }

/-! ## Qualifiers (R68, R73) -/

/-- A group of qualifiers of which at most one is written, and what it sets. -/
structure Choice where
  names : List (String × Nat)
  set : Nat → Draft → Draft

/-- SUB with n added at bit lo. -/
def Choice.sub (lo : Nat) (names : List (String × Nat)) : Choice :=
  { names := names, set := fun n x => { x with sub := x.sub + n * 2 ^ lo } }

/-- Words of the sub-operation (R68). -/
def subChoices (op : Nat) : List Choice :=
  let across := ["add", "min", "max", "and", "or", "xor"]
  let atomics := ["add", "fadd", "min", "max", "and", "or", "xor", "exch", "cas"]
  match op with
  | 0x1C | 0x28 | 0x35 =>
    [{ names := number 0 ["eq", "ne", "lt", "le", "gt", "ge", "un", "ord"], set := fun n x => { x with cond := n } },
      .sub 0 (number 1 ["and", "or", "xor"])]
  | 0x49 => [.sub 0 (number 0 ["and", "or", "xor", "andn"])]
  | 0x50 => [.sub 0 (number 0 ["idx", "up", "down", "xor"])]
  | 0x51 => [.sub 0 (number 0 ["all", "any", "uni", "ballot"])]
  | 0x53 => [.sub 0 (number 0 across)]
  | 0x54 => [.sub 0 (number 0 across), .sub 3 [("ex", 1)]]
  | 0x5A => [.sub 0 (number 0 atomics)]
  | 0x5B => [.sub 0 (number 0 (atomics.take 7))]
  | 0x69 => [.sub 0 (number 0 ["arr", "wait", "sync"])]
  | 0x6A => [.sub 0 (number 0 ["init", "arr", "exp", "wait", "test"])]
  | _ => []

/-- The opcode has types (R102, R159). -/
def typed (op : Nat) : Bool :=
  match formOf ({ d := 0, a := 0, sub := 0, s := false, b := 0, c := 0, n := false, p := 0, rnd := 0, fmt := 0, scope := 0,
                  ord := 0, imm := 0, lit := none : Ext }.fields (BitVec.ofNat 7 op)) with
  | some r => !r.types.isEmpty
  | none => false

/-- The last group (R73): `l1` or `l2`, `rmt`, `rep`, where R68 allows them. -/
def lastChoices (op : Nat) : List Choice :=
  match op with
  | 0x58 => [.sub 2 [("rmt", 1)], .sub 1 [("rep", 1)]]
  | 0x5A => [{ names := [("rmt", 1)], set := fun _ x => { x with rmt := true } }]
  | 0x5C => [.sub 0 [("rmt", 1)]]
  | 0x5D => [.sub 0 (number 0 ["l1", "l2"]), .sub 1 [("rep", 1)]]
  | _ => []

/-- The groups of an opcode in the order of R73. -/
def choices (op : Nat) : List Choice :=
  subChoices op
    ++ (if typed op then [{ names := typeNames, set := fun n x => { x with fmt := n } }] else [])
    ++ (if op == 0x2C then [{ names := typeNames, set := fun n x => { x with src := n } }] else [])
    ++ [{ names := number 1 ["rne", "rz", "ru", "rd", "rs"], set := fun n x => { x with rnd := n } },
      { names := [("acq", 1), ("rel", 2), ("acqrel", 3)], set := fun n x => { x with ord := n } },
      { names := number 1 ["hub", "dev", "dom", "sys"], set := fun n x => { x with scope := n } }]
    ++ lastChoices op

/-- Reads the qualifiers; none: one is unknown, or out of its order. -/
def qualify : List Choice → List (List Char) → Draft → Option Draft
  | _, [], x => some x
  | [], _ :: _, _ => none
  | c :: cs, q :: qs, x =>
    match find c.names q with
    | some n => qualify cs qs (c.set n x)
    | none => qualify cs (q :: qs) x

/-! ## Operand positions (R102, R159 and the entries) -/

/-- A position of the assembly form. -/
inductive Slot where
  /-- a destination register -/
  | dst
  /-- the destination of `atom`, or 0 for none (R52) -/
  | old
  /-- a thread or gang register in a field of another role; inB: a gang register sets the SUB bit -/
  | reg (f : Field) (scratchBit : Option Nat)
  | src (f : Field) (k : Kind)
  /-- the third source, which may be left out -/
  | third (k : Kind)
  | pred (f : Field)
  /-- a predicate that may be left out -/
  | optPred
  /-- the predicate of a comparison -/
  | cond
  /-- the output predicate of `shfl` -/
  | outPred
  /-- the set p0 to p7 or p1 to p7 of `pmov` -/
  | predSet (n : Nat)
  | special
  /-- the source of `swr`, of its register's width -/
  | swrSrc
  /-- a memory operand of one of the spaces, with the bit of SUB that the space code starts at -/
  | mem (spaces : List Nat) (lo : Option Nat)
  | target
  /-- a number of IMM32 at bit lo; what is written less `less` is stored -/
  | num (lo : Nat) (least most : Int) (bits : Nat) (less : Int)
  /-- a number that may be left out -/
  | optNum (lo : Nat) (least most : Int) (bits : Nat) (less : Int)
  | buckle
  | accumulator
  /-- the operation of `sys` -/
  | sysOp (n : Nat)
  /-- `RND` of `rsmp` -/
  | rnd
deriving DecidableEq, Repr

/-- A slot that may be left out. -/
def Slot.optional : Slot → Bool
  | .third _ | .optPred | .optNum .. => true
  | _ => false

/-- The operations of `sys` (R69). -/
def sysNames : List (String × Nat) := number 0 ["trap", "tret", "tkill", "halt", "cad", "idle"]

/-- An operand that is one word. -/
def isWord : List Token → String → Bool
  | [.word w], s => isText w s
  | _, _ => false

/-- The register an operand is. -/
def asReg : List Token → Option Reg
  | [.word w] => register w
  | _ => none

/-- An operand that is a gang register. -/
def isGang (o : List Token) : Bool :=
  match asReg o with
  | some (.g _) => true
  | _ => false

/-- The positions of an instruction whose qualifiers are read; for the forms that its operands choose, they are
looked at. -/
def slots (x : Draft) (os : List (List Token)) : Option (List Slot) :=
  let k := Kind.ofType x.fmt
  let h := Kind.half x.fmt
  let word := fun n => (os.getD n [])
  match x.op with
  | 0x00 | 0x01 | 0x02 | 0x03 | 0x07 | 0x08 | 0x09 | 0x0A | 0x0B | 0x0D | 0x1D | 0x1E | 0x20 | 0x21 | 0x22 | 0x24 | 0x25 =>
    some [.dst, .src .a k, .src .b k]
  | 0x30 | 0x31 | 0x33 | 0x34 => some [.dst, .src .a h, .src .b h]
  | 0x0E | 0x0F | 0x10 | 0x11 | 0x12 | 0x2B => some [.dst, .src .a k, .src .b .int]
  | 0x04 | 0x23 | 0x2D => some [.dst, .src .a k, .src .b k, .third k]
  | 0x32 => some [.dst, .src .a h, .src .b h, .third h]
  | 0x13 | 0x1A => some [.dst, .src .a k, .src .b .int, .third k]
  | 0x05 | 0x06 | 0x0C | 0x14 | 0x15 | 0x16 | 0x17 | 0x19 | 0x26 | 0x27 | 0x29 | 0x2A | 0x38 | 0x39 | 0x3A | 0x3B | 0x3C
  | 0x3D | 0x3E | 0x52 | 0x53 | 0x54 => some [.dst, .src .a k]
  | 0x18 => some [.dst, .src .a k, .src .b k, .pred .c]
  | 0x1B => some [.dst, .src .a .wide, .src .b .int, .optNum 0 0 7 32 0]
  | 0x1C | 0x28 => some [.cond, .src .a k, .src .b k]
  | 0x35 => some [.cond, .src .a h, .src .b h]
  | 0x2C => some [.dst, .src .a (Kind.ofType x.src)]
  | 0x40 | 0x42 | 0x65 => some [.target]
  | 0x41 | 0x43 => some [.src .a .wide]
  | 0x44 | 0x45 | 0x46 | 0x47 | 0x5F | 0x62 | 0x64 | 0x66 | 0x68 | 0x6F => some []
  | 0x48 => some [.optNum 0 (-2147483648) 4294967295 32 0]
  | 0x49 => some [.pred .d, .pred .a, .pred .b]
  | 0x4A => match asReg (word 0) with
    | some (.p _) => some [.predSet 1, .src .a .int]
    | _ => some [.dst, .predSet 0]
  | 0x50 => some [.dst, .src .a k, .src .b .int, .src .c k, .outPred]
  | 0x51 => some [if x.sub == 3 then .dst else .pred .d, .pred .a]
  | 0x55 => some [.dst, .special]
  | 0x56 => some [.special, .swrSrc]
  | 0x58 => some [.dst, .mem [0, 1, 2, 3, 4] (some 3)]
  | 0x59 => some [.mem [0, 1, 2, 3] (some 3), .src .d k]
  | 0x5A => some ([.old, .mem [0, 1, 2] (some 4), .src .b k] ++ if x.sub == 8 then [.src .c k] else [])
  | 0x5B => some [.mem [0, 1, 2] (some 4), .src .b k]
  | 0x5C => some [.num 0 0 127 7 0, .num 8 0 127 7 0]
  | 0x5D => some [.mem [0] none]
  | 0x5E => some [.pred .d, .mem [1] none]
  | 0x60 => some [.mem [1] none]
  | 0x61 | 0x6E | 0x7D => some [.src .a .int]
  | 0x63 => some [.dst, .mem [0] none]
  | 0x69 =>
    let n : Slot := .num 0 0 15 4 0
    some (match x.sub with
      | 0 => [n, .src .a .int]
      | 1 => [n]
      | _ => [n, .src .a .int, .optPred])
  | 0x6A => some (match x.sub with
      | 1 => [.mem [1] none]
      | 4 => [.pred .d, .mem [1] none, .src .b .int]
      | _ => [.mem [1] none, .src .b .int])
  | 0x6B => some [.dst, .mem [1] none]
  | 0x6C => some [.optPred]
  | 0x6D => some [.target, .reg .a none, .src .b .int]
  | 0x70 => some [.dst, .src .a .fp, .src .b .int, if isWord (word 3) "RND" then .rnd else .src .c .fp]
  | 0x74 => some [.buckle, .src .a .int, .src .b .int]
  | 0x75 => some [.buckle, .accumulator, .reg .d (some 0), .reg .a (some 1), .src .b .int, .optNum 16 1 256 8 1]
  | 0x76 => some [.accumulator]
  | 0x77 => some (if isGang (word 1) then [.accumulator, .reg .a none]
      else [.accumulator, .reg .a none, .num 24 0 1 1 0, .num 25 0 3 2 0])
  | 0x78 => some (if isGang (word 0) then [.reg .a none, .accumulator]
      else [.reg .d none, .accumulator, .num 24 0 1 1 0, .num 25 0 3 2 0])
  | 0x79 => some ([.reg .a none, .accumulator] ++ if x.fmt == Ty.l6 then [.optNum 16 (-128) 127 8 0] else [])
  | 0x7A => some [.reg .a none, .src .b .int, .accumulator]
  | 0x7B => some [.pred .d, .mem [1] none, .src .b .int]
  | 0x7C => some [.mem [0] none, .src .b .wide]
  | 0x7E => match word 0 with
    | [.word w] => (find sysNames w).map fun n => .sysOp n :: if n == 0 || n == 4 || n == 5 then [.src .b .int] else []
    | _ => none
  | _ => none

/-- The thread rows of `mld` and `mst` set SUB [0] (R250). -/
def rowsBit (op : Nat) (ss : List Slot) : Nat := if (op == 0x77 || op == 0x78) && ss.length == 4 then 1 else 0

/-- A number into IMM32 at bit lo. -/
def Draft.putImm (x : Draft) (lo : Nat) (least most : Int) (bits : Nat) (less : Int) (v : Val) : Option Draft :=
  (v.within least most).map fun n => { x with imm := x.imm + ((n - less) % 2 ^ bits).toNat * 2 ^ lo }

/-- A memory operand (R75). -/
def memory (env : Names) (x : Draft) (spaces : List Nat) (lo : Option Nat) (o : List Token) : Option Draft :=
  match o with
  | .punct '[' :: .word sp :: .punct ':' :: .word base :: rest =>
    if rest.getLast? != some (.punct ']') then none
    else
      let off : Option (Sum Opnd Val) := match rest.dropLast with
        | [] => some (.inr (.int false 0 0 0))
        | [.punct '+', .word w] => match register w with
          | some (.v n) => some (.inl (.v n))
          | some (.g n) => some (.inl (.g n))
          | some _ => none
          | none => (term env false w).map .inr
        | ts => (sumRest env false (.int true 0 0 0) ts).map .inr
      let reg := match register base with
        | some (.v n) => some (Opnd.v n)
        | some (.g n) => some (Opnd.g n)
        | _ => none
      match find spaceNames sp, reg, off with
      | some n, some r, some off =>
        if !spaces.contains n || (x.rmt && n != 0) then none
        else
          let code := if x.rmt then 3 else n
          some { x.put .a (.opnd r) with
            space := some n, offset := some off
            sub := x.sub + match lo with
              | some k => code * 2 ^ k
              | none => 0 }
      | _, _, _ => none
  | _ => none

/-- The offset of a target from an instruction, in words (R65). -/
def targetOffset (here : Nat) : Val → Option Nat
  | .int _ n 1 0 =>
    let k := n - here
    if k % 4 == 0 && -(2 ^ 31 : Int) ≤ k / 4 && k / 4 < 2 ^ 31 then some (k / 4 % 2 ^ 32).toNat else none
  | _ => none

/-- One operand in its position. here: the offset of the instruction in the code. -/
def fill (env : Names) (here : Nat) (s : Slot) (o : List Token) (x : Draft) : Option Draft :=
  let vg := fun (f : Field) => match asReg o with
    | some (.v n) => some (x.put f (.opnd (.v n)))
    | some (.g n) => some (x.put f (.opnd (.g n)))
    | _ => none
  let predicate := fun (k : Nat → Draft) => match asReg o with
    | some (.p n) => some (k n)
    | _ => none
  let source := fun (f : Field) (k : Kind) =>
    match vg f with
    | some y => some y
    | none =>
      if isWord o "lane" then some (x.put f (.opnd .lane))
      else if isWord o "rank" then some (x.put f (.opnd .rank))
      else (value env o).bind (x.putNumber f k)
  match s with
  | .dst => vg .d
  | .old => match vg .d with
    | some y => some y
    | none => (value env o).bind fun v => (v.within 0 0).map fun _ => x.put .d (.opnd .zero)
  | .reg f bit => (vg f).map fun y => match bit with
    | some k => if isGang o then { y with sub := y.sub + 2 ^ k } else y
    | none => y
  | .src f k => source f k
  | .third k => source .c k
  | .pred f => predicate fun n => x.put f (.raw n)
  | .optPred => predicate fun n => x.put .d (.raw n)
  | .cond => predicate fun n => x.put .d (.raw (16 * x.cond + n))
  | .outPred => predicate fun n => { x with sub := x.sub + 4 * n }
  | .predSet k => if asReg o == some (.p k) then some { x with inward := k == 1 } else none
  | .special => match o with
    | [.word w] => (find specials w).map fun n => x.put .a (.raw n)
    | _ => none
  | .swrSrc => match x.a with
    | .raw n => source .b (match srInfo n with
      | some (2, _, _) => .wide
      | _ => .int)
    | .opnd _ => none
  | .mem spaces lo => memory env x spaces lo o
  | .target => (value env o).bind fun v => (targetOffset here v).map fun n => { x with imm := n }
  | .num lo least most bits less | .optNum lo least most bits less =>
    (value env o).bind (x.putImm lo least most bits less)
  | .buckle => match asReg o with
    | some (.bk n) => some { x with imm := x.imm + n }
    | _ => none
  | .accumulator => match asReg o with
    | some (.z n) => some { x with imm := x.imm + 256 * n }
    | _ => none
  | .sysOp n => some (x.put .a (.raw n))
  | .rnd => some { x with sub := 1 }

/-- Every operand in its position; the positions that are left over may be left out. -/
def fillAll (env : Names) (here : Nat) : List Slot → List (List Token) → Draft → Option Draft
  | ss, [], x => if ss.all Slot.optional then some x else none
  | [], _ :: _, _ => none
  | s :: ss, o :: os, x => (fill env here s o x).bind (fillAll env here ss os)

/-! ## The two forms (R49, R51, R76) -/

/-- The constant codes, which both forms share. -/
def constantCode : Opnd → Option Nat
  | .zero => some 0x70
  | .one => some 0x71
  | .minusOne => some 0x72
  | .half => some 0x73
  | .fone => some 0x74
  | .two => some 0x75
  | .lane => some 0x76
  | .rank => some 0x77
  | .lit => some 0x78
  | _ => none

/-- A field of the base form: seven bits. -/
def Content.base : Content → Option (BitVec 7)
  | .opnd (.v n) => some (BitVec.ofNat 7 n)
  | .opnd (.g n) => if n < 16 then some (BitVec.ofNat 7 (0x60 + n)) else none
  | .opnd o => (constantCode o).map (BitVec.ofNat 7)
  | .raw n => if n < 128 then some (BitVec.ofNat 7 n) else none

/-- A field of the extended form. -/
def Content.ext : Content → Option (BitVec 8)
  | .opnd (.v n) => some (BitVec.ofNat 8 n)
  | .opnd (.g n) => some (BitVec.ofNat 8 (0x80 + n))
  | .opnd o => (constantCode o).map (BitVec.ofNat 8)
  | .raw n => some (BitVec.ofNat 8 n)

def Literal.dword (l : Literal) : Dword := BitVec.ofNat 64 l.bits

/-- M, when the base form exists and M can express the type and the space (R67, R75). -/
def Draft.modifier (x : Draft) : Option Bool :=
  let f := ({ s := false, d := 0, a := 0, b := 0, m := false, lit := none : Base }).fields (BitVec.ofNat 7 x.op)
  let use : Option MUse := (formOf f).map Form.m
  match x.op, use with
  | 0x58, _ | 0x59, _ =>
    if x.fmt != Ty.n32 then none
    else if x.space == some 0 then some false
    else if x.space == some 1 then some true
    else none
  | 0x2C, _ =>
    if x.fmt == Ty.f32 && x.src == Ty.i32 then some false
    else if x.fmt == Ty.i32 && x.src == Ty.f32 then some true
    else none
  | 0x4A, _ => some x.inward
  | 0x52, _ => if [Ty.n32, Ty.i32, Ty.f32].contains x.fmt then some false else none
  | _, some (.only t) => if x.fmt == t then some false else none
  | _, some (.two t0 t1) => if x.fmt == t0 then some false else if x.fmt == t1 then some true else none
  | _, _ => none

/-- The code in B of the base form, with the literal: the offset of a memory operand stands there. -/
def Draft.baseB (x : Draft) : Option (Content × Option Literal) :=
  match x.offset with
  | none => some (x.b, x.lit)
  | some (.inl o) => some (.opnd o, x.lit)
  | some (.inr v) => (v.within (-(2 ^ 31)) (2 ^ 31 - 1)).bind fun n =>
    (Kind.int.operand (.int false n 0 0)).bind fun (o, l) => (joinLiteral x.lit l).map fun l => (.opnd o, l)

/-- The base form, when R76 chooses it. SUB is clear but for the space of `ld` and `st`. -/
def Draft.base? (x : Draft) : Option (Code × Option Literal) :=
  let subClear := x.sub == (if x.op == 0x58 || x.op == 0x59 then 8 * x.space.getD 0 else 0)
  if x.guard.isSome || !subClear || x.rnd != 0 || x.ord != 0 || x.scope != 0 || x.imm != 0
      || !(x.third || x.c == .raw 0 || x.c == x.d) then none
  else
    match x.modifier, x.baseB with
    | some m, some (b, l) =>
      match x.d.base, x.a.base, b.base with
      | some d, some a, some b =>
        some (.base (BitVec.ofNat 7 x.op) { s := x.marker, d := d, a := a, b := b, m := m, lit := l.map (·.dword) }, l)
      | _, _, _ => none
    | _, _ => none

/-- The extended form; none: a register offset, or an offset that does not fit. -/
def Draft.ext? (x : Draft) : Option (Code × Option Literal) :=
  let imm : Option Nat := match x.offset with
    | none => some (x.imm + if x.inward then 1 else 0)
    | some (.inl _) => none
    | some (.inr v) => (v.within (-(2 ^ 31)) (2 ^ 31 - 1)).map fun n => (n % 2 ^ 32).toNat
  let third := if x.third then x.d else x.c
  let sub := x.sub + if x.op == 0x2C then x.src else 0
  match imm, x.d.ext, x.a.ext, x.b.ext, third.ext with
  | some imm, some d, some a, some b, some c =>
    let (n, p) := x.guard.getD (false, 0)
    some (.ext (BitVec.ofNat 7 x.op)
      { s := x.marker, d := d, a := a, sub := BitVec.ofNat 6 sub, b := b, c := c, n := n, p := BitVec.ofNat 3 p
        rnd := BitVec.ofNat 3 x.rnd, fmt := BitVec.ofNat 4 x.fmt, scope := BitVec.ofNat 3 x.scope
        ord := BitVec.ofNat 2 x.ord, imm := BitVec.ofNat 32 imm, lit := x.lit.map (·.dword) }, x.lit)
  | _, _, _, _, _ => none

/-- Words of an instruction, with the byte offset and the base of a literal that the loader relocates. -/
structure Emitted where
  words : List Word
  reloc : Option (Nat × Bool)
deriving DecidableEq, Repr

/-- The words of a form; none: they are no instruction (R70, R76). -/
def emit (c : Code) (l : Option Literal) : Option Emitted :=
  match decodeList c.words with
  | .illegal _ _ => none
  | .ok _ =>
    some { words := c.words
           reloc := l.bind fun l => l.base.map fun b => (c.length - 8, b) }

/-- The form that R76 chooses. -/
def Draft.finish (x : Draft) : Option Emitted :=
  match x.base? with
  | some (c, l) => emit c l
  | none => (x.ext?).bind fun (c, l) => emit c l

/-! ## Statements -/

/-- The operands between commas. -/
def operands (ts : List Token) : List (List Token) :=
  match ts with
  | [] => []
  | _ => go ts
where
  go : List Token → List (List Token)
    | [] => [[]]
    | .punct ',' :: ts => [] :: go ts
    | t :: ts => match go ts with
      | o :: os => (t :: o) :: os
      | [] => [[t]]

/-- The mnemonic with its opcode, and the qualifiers after it. -/
def opcode (w : List Char) : Option (Nat × List (List Char)) :=
  match splitAt '.' w with
  | m :: qs =>
    match find mnemonics m, qs with
    | some n, _ => some (n, qs)
    | none, q :: rest => if isText m "tack" then (find tackNames q).map (·, rest) else none
    | none, [] => none
  | [] => none

/-- A guard, and the rest. -/
def guardOf : List Token → Option (Option (Bool × Nat) × List Token)
  | .punct '(' :: .punct '!' :: .word w :: .punct ')' :: ts => match register w with
    | some (.p n) => some (some (true, n), ts)
    | _ => none
  | .punct '(' :: .word w :: .punct ')' :: ts => match register w with
    | some (.p n) => some (some (false, n), ts)
    | _ => none
  | .punct '(' :: _ => none
  | ts => some (none, ts)

/-- An instruction of a source line, at an offset in the code. -/
def instruction (env : Names) (here : Nat) (ts : List Token) : Option Emitted :=
  match guardOf ts with
  | some (guard, .word w :: rest) =>
    let marker := rest.getLast? == some (.punct '!')
    let os := operands (if marker then rest.dropLast else rest)
    match opcode w with
    | some (op, qs) =>
      (qualify (choices op) qs { op := op, guard := guard, marker := marker }).bind fun x =>
      (slots x os).bind fun ss =>
        let x := { x with third := ss.any (fun s => match s with
                            | .third _ => true
                            | _ => false)
                          sub := x.sub + rowsBit op ss }
        (fillAll env here ss os x).bind Draft.finish
    | none => none
  | _ => none

/-- The instruction of a line of text that uses no names. -/
def assembleLine (s : List Char) : Option (List Word) :=
  ((lex [] s).bind (instruction { labels := [], consts := [] } 0)).map (·.words)

end Sys2Proof.Biras
end

