-- ==== Sys2Proof/Machine/Ixsor.lean ====
section
/-! DEFINITION. Ixsor, the comparison of images and of runs (R408). -/

namespace Sys2Proof.Ixsor
open Sys2Proof.Machine

/-- What Ixsor reads of an image (R406): MAPID, and the bytes of each section in scan order. -/
structure Sections where
  mapid : Nat
  sections : List (List Byte)
deriving DecidableEq, Repr

/-- A bit of an image: its section, and its number in the section. -/
structure BitPlace where
  sect : Nat
  bit : Nat
deriving DecidableEq, Repr

/-- The name that the scan map of an image's MAPID gives a bit (R406). -/
def BitPlace.name (mapid : Nat) (b : BitPlace) : String := Config.scanName mapid b.sect b.bit

/-- The bits of two bytes that differ, numbered from a first. -/
def byteDiffers (first : Nat) (x y : Byte) : List Nat :=
  ((List.range 8).filter fun k => x.getLsbD k != y.getLsbD k).map (first + ·)

/-- The bits of two sections that differ; a byte that a section lacks is a byte of zeros. -/
def sectionDiffers (x y : List Byte) : List Nat :=
  (List.range (Nat.max x.length y.length)).flatMap fun k => byteDiffers (8 * k) (x.getD k 0) (y.getD k 0)

/-- The bits that differ in sections numbered from n; first: the search stops at the first section that differs. -/
def sectionsDiffer (first : Bool) (n : Nat) : List (List Byte × List Byte) → List BitPlace
  | [] => []
  | (x, y) :: rest =>
    let here := (sectionDiffers x y).map fun k => ({ sect := n, bit := k } : BitPlace)
    if first && !here.isEmpty then here else here ++ sectionsDiffer first (n + 1) rest

/-- The comparison of two images; none: their MAPIDs differ, or their section counts. -/
def compare (first : Bool) (a b : Sections) : Option (List BitPlace) :=
  if a.mapid == b.mapid && a.sections.length == b.sections.length then
    some (sectionsDiffer first 0 (a.sections.zip b.sections))
  else none

/-- The bisection of R408. a and b give the image of each run at a cycle; steps bounds the halvings. -/
def bisect {α : Type} [DecidableEq α] (a b : Nat → α) : Nat → Nat → Nat → Nat
  | 0, _, hi => hi
  | steps + 1, lo, hi =>
    if 1 < hi - lo then
      let mid := (lo + hi) / 2
      if a mid = b mid then bisect a b steps mid hi else bisect a b steps lo mid
    else hi

/-- `first_divergence` (R408): the first diverging cycle, where the images of both runs are equal at lo and differ at
hi. -/
def firstDivergence {α : Type} [DecidableEq α] (a b : Nat → α) (lo hi : Nat) : Nat := bisect a b (hi - lo) lo hi

/-- What `first_divergence` returns: the cycle, and the bits that differ there. -/
def divergence (a b : Nat → Sections) (lo hi : Nat) : Nat × Option (List BitPlace) :=
  let c := firstDivergence a b lo hi
  (c, compare false (a c) (b c))

end Sys2Proof.Ixsor
end

