-- ==== Sys2Proof/Safety.lean ====
section
/-! DEFINITION. What the claims call a good state and a safe run: memories in canonical form, and no stop but that of a
bring-up that has halted (R428). -/

namespace Sys2Proof.Machine

/-- The byte memories of a module stand in canonical form. -/
def Module.canonical (m : Module) : Bool := Memory.wf m.win && Memory.wf m.debugRegs

/-- An image's memories stand in canonical form, and its HBM4 contents lie in HBM4 (R391, R406). -/
def Image.canonical (x : Image) : Bool :=
  x.module.canonical && (match x.memory with
    | some h => Memory.wf h && h.all fun c => decide (c.1 < hbmSize)
    | none => true)

/-- Every byte memory of the state stands in canonical form: addresses strictly rising, and no byte that an unlisted
address reads as. -/
def State.canonical (s : State) : Bool :=
  Memory.wf s.mem && Memory.wf s.routes && s.m.canonical && s.images.all (·.canonical)

/-- FST says whether the module is frozen (R403, R404). -/
def State.freezeShown (s : State) : Bool := s.frozen == (s.mgmt.frzst != 0)

/-- A state that steps lead to. -/
inductive Reaches : State → State → Prop
  | here (s : State) : Reaches s s
  | more (s t u : State) : Reaches s t → step t = .next u → Reaches s u

/-- No run from the state stops: bring-up has not halted. -/
def SafeRun (s : State) : Prop := ∀ t, Reaches s t → ∃ u, step t = .next u

end Sys2Proof.Machine
end

