-- ==== Sys2Proof/WellFormed.lean ====
section
/-! DEFINITION. Well-formed instructions: those whose fields pass the checks of R70 and whose selecting field holds the
constructor's value (R68, R69). An event has no fields, and is well formed. -/

namespace Sys2Proof

/-- The instruction is well formed. -/
def Instr.wellFormed (i : Instr) : Bool :=
  match i.code with
  | some c => checkFields c.fields == none && i.selects
  | none => true

/-- The instruction is an event: it has no words. -/
def Instr.isEvent (i : Instr) : Bool := i.code.isNone

end Sys2Proof
end

