-- ==== Sys2Proof/Certificates/Slice0/Obligations.lean ====
section
/-! DEFINITION. The statements for the provers. Each names the rules of the spec it formalises; where one rests on a
choice of the model, its docstring names the log entry. -/

namespace Sys2Proof.Claims
open Sys2Proof.Machine

/-! ## Words of the statements -/

/-- No two threads of the machine have one name, and none stands twice in the packet. -/
def distinct (s : State) : Bool := decide (s.m.threads.map (·.ref)).Nodup && decide s.m.packet.Nodup

/-- An instruction may act in a thread: its guard is false, or the gang holds the registers it names, it is no release with a
tack window open, and none of the registers it reads is poisoned (R23, R54, R157, R206). -/
def mayRun (s : State) (c : Code) (t : Thread) : Bool :=
  !guardTrue c.fields t || (!s.outOfRange c t && !Code.barred c t && (s.poisonRead c t).isNone)

/-- It may act in every thread of the packet. -/
def ready (s : State) (c : Code) : Bool :=
  s.m.packet.all fun r => match s.thread? r with
    | some t => mayRun s c t
    | none => true

/-- The guard is true in every thread of the packet. -/
def guarded (s : State) (c : Code) : Bool :=
  s.m.packet.all fun r => match s.thread? r with
    | some t => guardTrue c.fields t
    | none => true

/-- Every thread of the packet is changed by f, and nothing else of the machine is. -/
def inPacket (s : State) (f : Thread → Thread) : State :=
  s.modify fun m => { m with threads := m.threads.map fun t => if m.packet.contains t.ref then f t else t }

/-- t is the packet's one thread. -/
def single (s : State) (t : Thread) : Prop :=
  distinct s = true ∧ s.m.packet = [t.ref] ∧ s.thread? t.ref = some t

/-- t is the packet's one thread, and c acts in it. -/
def alone (s : State) (c : Code) (t : Thread) : Bool :=
  distinct s && decide (s.m.packet = [t.ref]) && decide (s.thread? t.ref = some t) && guardTrue c.fields t && mayRun s c t

/-- The instructions whose accesses enter the port of their core as one packet (R167). -/
def usesPort : Instr → Bool
  | .ld _ | .ldExt _ | .st _ | .stExt _ | .atom _ | .red _ | .qsig _ | .pf _ | .tackLd _ | .tackLdExt _ | .call _ | .callx _
  | .callxExt _ | .ret _ | .retExt _ | .tbInit _ | .tbArr _ | .tbExp _ => true
  | _ => false

/-- What an instruction does, with the packet of its accesses opened before and closed after where it has one. -/
def inPort (i : Instr) (s : State) (f : State → State) : State :=
  if usesPort i then (f s.openPort).closePort s.packetGang else f s

/-! ## Which instruction computes what -/

/-- The integer, move and compare instructions with an immediate result, with what each computes (R104 to R109). -/
def integerRule : Instr → Option (Lane → Calc)
  | .add _ | .addExt _ => some addCalc
  | .sub _ | .subExt _ => some subCalc
  | .mul _ | .mulExt _ => some mulCalc
  | .mulh _ | .mulhExt _ => some mulhCalc
  | .mad _ | .madExt _ => some madCalc
  | .neg _ | .negExt _ => some negCalc
  | .abs _ | .absExt _ => some absCalc
  | .min _ | .minExt _ => some minCalc
  | .max _ | .maxExt _ => some maxCalc
  | .and _ | .andExt _ => some andCalc
  | .or _ | .orExt _ => some orCalc
  | .xor _ | .xorExt _ => some xorCalc
  | .not _ | .notExt _ => some notCalc
  | .andn _ | .andnExt _ => some andnCalc
  | .shl _ | .shlExt _ => some shlCalc
  | .shr _ | .shrExt _ => some shrCalc
  | .sar _ | .sarExt _ => some sarCalc
  | .rot _ | .rotExt _ => some rotCalc
  | .bfe _ | .bfeExt _ => some bfeCalc
  | .bfi _ | .bfiExt _ => some bfiCalc
  | .popc _ | .popcExt _ => some popcCalc
  | .clz _ | .clzExt _ => some clzCalc
  | .ctz _ | .ctzExt _ => some ctzCalc
  | .brev _ | .brevExt _ => some brevCalc
  | .sel _ => some selCalc
  | .mov _ | .movExt _ => some movCalc
  | .movk _ | .movkExt _ => some movkCalc
  | .lea _ | .leaExt _ => some leaCalc
  | .cmp _ | .cmpExt _ => some cmpCalc
  | .plog _ => some plogCalc
  | _ => none

/-- The FP32, conversion and packed instructions with an immediate result (R111 to R118). -/
def floatRule : Instr → Option (Lane → Calc)
  | .fadd _ | .faddExt _ => some faddCalc
  | .fsub _ | .fsubExt _ => some fsubCalc
  | .fmul _ | .fmulExt _ => some fmulCalc
  | .ffma _ | .ffmaExt _ => some ffmaCalc
  | .fmin _ | .fminExt _ => some fminCalc
  | .fmax _ | .fmaxExt _ => some fmaxCalc
  | .fabs _ | .fabsExt _ => some fabsCalc
  | .fneg _ | .fnegExt _ => some fnegCalc
  | .fcmp _ | .fcmpExt _ => some fcmpCalc
  | .frnd _ | .frndExt _ => some frndCalc
  | .fclass _ | .fclassExt _ => some fclassCalc
  | .fscale _ | .fscaleExt _ => some fscaleCalc
  | .fcvt _ | .fcvtExt _ => some fcvtCalc
  | .fdp4 _ | .fdp4Ext _ => some fdp4Calc
  | .hadd2 _ | .hadd2Ext _ => some hadd2Calc
  | .hmul2 _ | .hmul2Ext _ => some hmul2Calc
  | .hfma2 _ | .hfma2Ext _ => some hfma2Calc
  | .hmin2 _ | .hmin2Ext _ => some hmin2Calc
  | .hmax2 _ | .hmax2Ext _ => some hmax2Calc
  | .hcmp2 _ | .hcmp2Ext _ => some hcmp2Calc
  | _ => none

/-- The deferred computations, with the kind of their latency (R110, R119, R456). -/
def deferredRule : Instr → Option (Config.Lat × (Lane → Calc))
  | .div _ | .divExt _ => some (.divide, divCalc)
  | .rem _ | .remExt _ => some (.divide, remCalc)
  | .ex2 _ | .ex2Ext _ => some (.trans, transCalc .ex2)
  | .lg2 _ | .lg2Ext _ => some (.trans, transCalc .lg2)
  | .rcp _ | .rcpExt _ => some (.trans, transCalc .rcp)
  | .rsq _ | .rsqExt _ => some (.trans, transCalc .rsq)
  | .sqrt _ | .sqrtExt _ => some (.trans, transCalc .sqrt)
  | .sin _ | .sinExt _ => some (.trans, transCalc .sin)
  | .cos _ | .cosExt _ => some (.trans, transCalc .cos)
  | _ => none

/-- A thread after an immediate result x: the destination registers, the predicates and the random counter are written,
the program counter moves past the instruction, and S = 1 makes the marker (R58, R59, R86). -/
def computed (c : Code) (x : Calc) (t : Thread) : Thread :=
  (((t.setRegs c.dstReg x.words).applyFlags x : Thread)).finish c

/-- What an instruction with an immediate result makes of every thread of its packet, when its destination is no gang
register: where the guard is false only the program counter and the marker change. -/
def computesInPacket (rule : Instr → Option (Lane → Calc)) : Prop :=
  ∀ (i : Instr) (c : Code) (fn : Lane → Calc) (s : State), rule i = some fn → i.code = some c → c.gangDst = false →
    distinct s = true → ready s c = true →
    exec i s = .next (inPacket s fun t =>
      if guardTrue c.fields t then computed c (fn (s.lane c t)) t else t.finish c)

/-- What it does on the scalar datapath: the gang register is written once, with the value in the packet's lowest lane,
whose predicates and random counter alone are written; every thread of the packet goes on (R28, R103). -/
def computesInGang (rule : Instr → Option (Lane → Calc)) : Prop :=
  ∀ (i : Instr) (c : Code) (fn : Lane → Calc) (s : State) (t : Thread) (ts : List Thread), rule i = some fn →
    i.code = some c → c.gangDst = true → distinct s = true → ready s c = true → guarded s c = true →
    s.participants c = t :: ts → s.gangWriteBarred t.ref.kid c.dstReg = false →
    let x := fn (s.lane c t)
    exec i s = .next (inPacket (s.updGang t.ref.gangRef (·.setRegs c.dstReg x.words)) fun u =>
      ((if u.ref == t.ref then u.applyFlags x else u) : Thread).finish c)

end Sys2Proof.Claims

open Sys2Proof Sys2Proof.Machine Sys2Proof.Claims

/-! ## Computing instructions -/

/-- R104 to R109, R128 with R54, R58: the integer, move, compare and predicate instructions complete in every thread of the
packet; nothing but the named registers, predicates, the random counter, the program counter and the marker's part of the
thread changes. -/
def Sys2Proof.Claims.IntegerInstructionsComplete : Prop := computesInPacket integerRule

/-- R111 to R118: the same of the FP32, conversion and packed instructions. -/
def Sys2Proof.Claims.FloatInstructionsComplete : Prop := computesInPacket floatRule

/-- R28, R103: integer and FP32 instructions with a gang destination. -/
def Sys2Proof.Claims.ScalarDatapathWritesGangRegister : Prop :=
  computesInGang integerRule ∧ computesInGang floatRule

/-- R28, R54, R58, R103 to R109, R111 to R118, R128: every computing instruction with an immediate result completes, in
every thread of the packet, or in the scalar datapath. -/
def Obligations.ComputingInstructionsComplete : Prop :=
  Sys2Proof.Claims.IntegerInstructionsComplete ∧ Sys2Proof.Claims.FloatInstructionsComplete ∧
  Sys2Proof.Claims.ScalarDatapathWritesGangRegister

/-! ## What the computations are (R104 to R110) -/

namespace Sys2Proof.Claims

/-- The integer types of R101. -/
def wholeTypes : List Nat := [Ty.n32, Ty.i32, Ty.n64, Ty.i64]

/-- R104 in whole numbers: w is the width, a, b, c the operands read unsigned and n the count operand. -/
def r104 (i : Instr) (sign : Bool) (w a b c n : Nat) : Option Int :=
  let m : Int := 2 ^ w
  let s := fun (x : Nat) => if 2 ^ (w - 1) ≤ x then (x : Int) - m else x
  let v := fun (x : Nat) => if sign then s x else (x : Int)
  match i with
  | .add _ | .addExt _ => some (((a : Int) + b) % m)
  | .sub _ | .subExt _ => some (((a : Int) - b) % m)
  | .mul _ | .mulExt _ => some (((a : Int) * b) % m)
  | .mulh _ | .mulhExt _ => some (v a * v b / m % m)
  | .mad _ | .madExt _ => some (((a : Int) * b + c) % m)
  | .neg _ | .negExt _ => some (-(a : Int) % m)
  | .abs _ | .absExt _ => some (|s a| % m)
  | .min _ | .minExt _ => some (if v a ≤ v b then a else b)
  | .max _ | .maxExt _ => some (if v a ≥ v b then a else b)
  | .and _ | .andExt _ => some (a &&& b : Nat)
  | .or _ | .orExt _ => some (a ||| b : Nat)
  | .xor _ | .xorExt _ => some (a ^^^ b : Nat)
  | .andn _ | .andnExt _ => some (a &&& (2 ^ w - 1 - b) : Nat)
  | .not _ | .notExt _ => some (2 ^ w - 1 - a : Nat)
  | .shl _ | .shlExt _ => some (if n ≥ w then 0 else (a : Int) * 2 ^ n % m)
  | .shr _ | .shrExt _ => some (if n ≥ w then 0 else (a : Int) / 2 ^ n)
  | .sar _ | .sarExt _ => some (s a / 2 ^ (if n ≥ w then w - 1 else n) % m)
  | .rot _ | .rotExt _ => some ((a : Int) * 2 ^ (n % w) % m + (a : Int) / 2 ^ (w - n % w))
  | .popc _ | .popcExt _ => some ((List.range w).countP fun k => a.testBit k)
  | .clz _ | .clzExt _ => some (if a = 0 then w else w - 1 - Nat.log2 a)
  | .ctz _ | .ctzExt _ => some (if a = 0 then w else (List.range w).findIdx fun k => a.testBit k)
  | .brev _ | .brevExt _ => some ((List.range w).map fun k => if a.testBit k then (2 : Int) ^ (w - 1 - k) else 0).sum
  | _ => none

/-- R110 in whole numbers. -/
def r110 (isDiv sign : Bool) (w a b : Nat) : Int :=
  let m : Int := 2 ^ w
  let v := fun (x : Nat) => if sign && 2 ^ (w - 1) ≤ x then (x : Int) - m else x
  if b = 0 then (if isDiv then m - 1 else a)
  else if isDiv then (v a).tdiv (v b) % m
  else (v a - v b * (v a).tdiv (v b)) % m

/-- R105's field limits: the length that is left of len from pos on. -/
def fieldLength (w pos len : Nat) : Nat := if pos ≥ w then 0 else if len > w - pos then w - pos else len

end Sys2Proof.Claims

/-- R104: the value that each instruction of opcodes 0x00 to 0x17, bfe and bfi apart, computes at every integer type, in whole
numbers modulo 2^w. -/
def Obligations.IntegerValues : Prop :=
  ∀ (i : Instr) (fn : Lane → Calc) (l : Lane) (d : Int), integerRule i = some fn → l.ty ∈ wholeTypes →
    r104 i (Ty.signed l.ty) (32 * Ty.regs l.ty) (l.val l.f.a).toNat (l.val l.f.b).toNat (l.val l.f.third).toNat
      (l.word l.f.b).toNat = some d →
    0 ≤ d ∧ d < 2 ^ (32 * Ty.regs l.ty) ∧
    fn l = { words := wordsOf (Ty.regs l.ty) (BitVec.ofInt 64 d), preds := [], ctr := none }

/-- R105 to R108: bfe and bfi with their field limits, movk, mov, sel and lea; sel at the type f32 too. -/
def Obligations.FieldAndMoveValues : Prop :=
  (∀ l : Lane, l.ty = Ty.f32 →
    selCalc l = { words := [if l.t.pred (predOf l.f.c) then l.word l.f.a else l.word l.f.b] }) ∧
  ∀ l : Lane, l.ty ∈ wholeTypes →
    let w := 32 * Ty.regs l.ty
    let a := (l.val l.f.a).toNat
    let c := l.val l.f.third
    let b := (l.word l.f.b).toNat
    let pos := b % 256
    let len := fieldLength w pos (b / 256 % 256)
    let f := a / 2 ^ pos % 2 ^ len
    bfeCalc l = l.result (BitVec.ofInt 64
        (if len = 0 then 0
         else if Ty.signed l.ty ∧ f.testBit (len - 1) then ((f : Int) - 2 ^ len) % 2 ^ w else f)) ∧
    (∃ d, bfiCalc l = l.result d ∧ ∀ k < 64, d.getLsbD k =
        if pos ≤ k ∧ k < pos + len then a.testBit (k - pos) else c.getLsbD k) ∧
    (∃ d, movkCalc l = l.result d ∧ ∀ k < 64, d.getLsbD k =
        if 16 * (b % (w / 16)) ≤ k ∧ k < 16 * (b % (w / 16)) + 16 then a.testBit (k - 16 * (b % (w / 16)))
        else c.getLsbD k) ∧
    movCalc l = l.result (l.val l.f.a) ∧
    selCalc l = l.result (if l.t.pred (predOf l.f.c) then l.val l.f.a else l.val l.f.b) ∧
    leaCalc l = { words := wordsOf 2 (BitVec.ofInt 64 ((l.dword l.f.a).toNat
        + (if l.ty = Ty.i32 then (l.word l.f.b).toInt else ((l.word l.f.b).toNat : Int)) * 2 ^ (l.f.imm.toNat % 8))) }

/-- R110: every case of div and rem, a zero divisor and the most negative dividend among them. -/
def Sys2Proof.Claims.DivisionTable : Prop :=
  ∀ l : Lane, l.ty ∈ wholeTypes →
    let v := fun isDiv => l.result (BitVec.ofInt 64
      (r110 isDiv (Ty.signed l.ty) (32 * Ty.regs l.ty) (l.val l.f.a).toNat (l.val l.f.b).toNat))
    divCalc l = v true ∧ remCalc l = v false

/-- R110: its worked examples, as the bits of the registers. -/
def Sys2Proof.Claims.DivisionExamples : Prop :=
  ∀ l : Lane, ((l.ty = Ty.i32 → l.word l.f.a = 0xFFFFFFF9 → l.word l.f.b = 2 →
      divCalc l = { words := [0xFFFFFFFD] } ∧ remCalc l = { words := [0xFFFFFFFF] }) ∧
    (l.ty = Ty.n32 → l.word l.f.a = 0xFFFFFFF9 → l.word l.f.b = 2 →
      divCalc l = { words := [0x7FFFFFFC] } ∧ remCalc l = { words := [1] }) ∧
    (l.ty = Ty.i32 ∨ l.ty = Ty.n32 → l.word l.f.b = 0 → divCalc l = { words := [0xFFFFFFFF] }))

/-- R68, R109, R113, R118: cmp, fcmp and hcmp2 combine their condition with the predicate as it stood. -/
def Obligations.PredicateValues : Prop :=
  ∀ l : Lane,
    let n := predOf l.f.d
    let k := if l.f.ext then subBits l.f 0 2 else 0
    let put := fun (q : Nat) (r : Bool) => (q, match k with
      | 0 => r
      | 1 => l.t.pred q && r
      | 2 => l.t.pred q || r
      | _ => l.t.pred q != r)
    let a := valOf l.ty (l.val l.f.a)
    let b := valOf l.ty (l.val l.f.b)
    let x := f32 (l.word l.f.a)
    let y := f32 (l.word l.f.b)
    (condOf l.f = 0 → cmpCalc l = { preds := [put n (decide (a = b))] }) ∧
    (condOf l.f = 1 → cmpCalc l = { preds := [put n (decide (a ≠ b))] }) ∧
    (condOf l.f = 2 → cmpCalc l = { preds := [put n (decide (a < b))] }) ∧
    (condOf l.f = 3 → cmpCalc l = { preds := [put n (decide (a ≤ b))] }) ∧
    (condOf l.f = 4 → cmpCalc l = { preds := [put n (decide (a > b))] }) ∧
    (condOf l.f = 5 → cmpCalc l = { preds := [put n (decide (a ≥ b))] }) ∧
    (x.isNan ∨ y.isNan → fcmpCalc l = { preds := [put n (condOf l.f = 1 ∨ condOf l.f = 6)] }) ∧
    (x.isNan = false → y.isNan = false → fcmpCalc l = { preds := [put n (match condOf l.f with
      | 0 => decide (x.cmp y = 0)
      | 1 => decide (x.cmp y ≠ 0)
      | 2 => decide (x.cmp y < 0)
      | 3 => decide (x.cmp y ≤ 0)
      | 4 => decide (x.cmp y > 0)
      | 5 => decide (x.cmp y ≥ 0)
      | 6 => false
      | _ => true)] }) ∧
    ∀ f, f = halfFmt l.ty → hcmp2Calc l = { preds := [
      put n (fpCond (condOf l.f) (f.value (loElem (l.word l.f.a))) (f.value (loElem (l.word l.f.b)))),
      put (n + 1) (fpCond (condOf l.f) (f.value (hiElem (l.word l.f.a))) (f.value (hiElem (l.word l.f.b))))] }

/-- R24: p0 always reads true, and a write to p0 is discarded; a write of another predicate is read back and leaves every
other predicate. -/
def Sys2Proof.Claims.PredicateZero : Prop :=
  (∀ t : Thread, t.pred 0 = true) ∧ (∀ (t : Thread) (x : Bool), t.setPred 0 x = t) ∧
  ∀ (t : Thread) (n k : Nat) (x : Bool), 1 ≤ n → n < 8 → k < 8 → (t.setPred n x).pred k = if k = n then x else t.pred k

/-- R128: plog completes with the predicate it computes, and changes nothing else of its thread. -/
def Sys2Proof.Claims.PlogCompletes : Prop :=
  ∀ (o : Ext) (c : Code) (s : State) (t : Thread), (Instr.plog o).code = some c → alone s c t = true →
    let x := t.pred (o.a.toNat % 8)
    let y := t.pred (o.b.toNat % 8)
    let v := match o.sub.toNat % 4 with
      | 0 => x && y
      | 1 => x || y
      | 2 => x != y
      | _ => x && !y
    exec (.plog o) s = .next (s.setThread ((t.setPred (o.d.toNat % 8) v).finish c))

/-- R24, R128: plog computes its predicate, and p0 always reads true and discards what is written to it. -/
def Obligations.PredicateLogic : Prop :=
  Sys2Proof.Claims.PlogCompletes ∧ Sys2Proof.Claims.PredicateZero

/-- R80, R83: a value that FP32 holds is not changed by a rounding into FP32 in any mode, and a NaN becomes the canonical
one. -/
def Sys2Proof.Claims.Fp32ValuesRoundToThemselves : Prop :=
  ∀ (r : Rnd) (x : Word), toF32 r (f32 x) = if (f32 x).isNan then 0x7FC00000 else x

/-- R80, R111, R112: a NaN among the operands makes the canonical NaN, but for fmin and fmax with one NaN, which give the
other operand; fabs and fneg change the sign bit alone. -/
def Sys2Proof.Claims.NanRules : Prop :=
  ∀ (r : Rnd) (a b : Word),
    ((f32 a).isNan ∨ (f32 b).isNan →
      faddF32 r a b = 0x7FC00000 ∧ fsubF32 r a b = 0x7FC00000 ∧ fmulF32 r a b = 0x7FC00000) ∧
    ((f32 a).isNan ∧ (f32 b).isNan → fminF32 a b = 0x7FC00000 ∧ fmaxF32 a b = 0x7FC00000) ∧
    ((f32 a).isNan = true → (f32 b).isNan = false → fminF32 a b = b ∧ fmaxF32 a b = b ∧ fminF32 b a = b ∧ fmaxF32 b a = b) ∧
    ((f32 a).isNan = true → fabsF32 a = 0x7FC00000 ∧ fnegF32 a = 0x7FC00000) ∧
    ((f32 a).isNan = false → ∀ k < 32, (fabsF32 a).getLsbD k = (decide (k ≠ 31) && a.getLsbD k) ∧
      (fnegF32 a).getLsbD k = (a.getLsbD k != decide (k = 31)))

/-- R80, R83, R111, R112: rounding an FP32 value gives it back, and what NaNs do. -/
def Obligations.FloatingPointValues : Prop :=
  Sys2Proof.Claims.Fp32ValuesRoundToThemselves ∧ Sys2Proof.Claims.NanRules

/-! ## Deferred results and the marker (R58, R59) -/

/-- R58, R59, R110, R119: a deferred instruction adds an entry to the thread's pending list, the result is on its way, and
nothing else but the program counter and the marker's part changes. The latency is open (log entry 4). -/
def Sys2Proof.Claims.DeferredInstructionsComplete : Prop :=
  ∀ (i : Instr) (k : Config.Lat) (fn : Lane → Calc) (c : Code) (s : State) (t : Thread), deferredRule i = some (k, fn) →
    i.code = some c → alone s c t = true → t.pend.length < 8 →
    let x := fn (s.lane c t)
    let n := s.m.nextId
    let e : Pending := { reg := c.dstReg, count := x.words.length, tok := n, value := none }
    let t' := ({ t.applyFlags x with pend := t.pend ++ [e] } : Thread).finish c
    let f : Flight := { id := n + 1, due := s.m.cycle + 1 + Config.latency k (n + 1), msg := .result t.ref n x.words none }
    exec i s = .next ((s.setThread t').modify fun m => { m with nextId := n + 2, flight := m.flight ++ [f] })

/-- R59: with eight pending results, one of which has not returned, a deferred instruction parks its thread with reason 1 and
has no other effect. -/
def Sys2Proof.Claims.FullPendingListParks : Prop :=
  ∀ (i : Instr) (p : Config.Lat × (Lane → Calc)) (c : Code) (s : State) (t : Thread), deferredRule i = some p →
    i.code = some c → alone s c t = true → 8 ≤ t.pend.length → t.allReturned = false →
    exec i s = .next (s.setThread (t.park 1 .none))

/-- R59: commit_all writes the pending results in program order, so that the last one that names a register stands; the list
is empty, and nothing but registers and their poison changes. -/
def Sys2Proof.Claims.CommitWritesInOrder : Prop :=
  ∀ t : Thread, t.commitAll.pend = [] ∧
    { t.commitAll with v := t.v, poison := t.poison, pend := t.pend } = t ∧
    ∀ r < 96, t.commitAll.v.toArray.getD r 0 =
      match t.pend.reverse.find? fun e => e.reg ≤ r && r < e.reg + ((e.value.getD []).take e.count).length with
      | some e => ((e.value.getD []).getD (r - e.reg) 0)
      | none => t.v.toArray.getD r 0

/-- R59, R305: the instruction that ends with S = 1 is the marker: it commits when every result has returned, and else its
thread parks with reason 1; an instruction with S = 0 commits nothing. -/
def Sys2Proof.Claims.MarkerCommits : Prop :=
  ∀ (t : Thread) (c : Code),
    (c.fields.s = false → t.finish c = { t with pc := nextPc c t.pc }) ∧
    (c.fields.s = true → t.allReturned = true → t.finish c = ({ t with pc := nextPc c t.pc } : Thread).commitAll) ∧
    (c.fields.s = true → t.allReturned = false →
      t.finish c = { t with pc := nextPc c t.pc, st := .parked 1, wait := .none })

/-- R59: a result that returns fills its own pending entry, and nothing else changes. -/
def Sys2Proof.Claims.ResultReturns : Prop :=
  ∀ (s : State) (f : Flight) (t : Thread) (tok : Nat) (v : List Word), s.m.flight.find? (·.id == s.m.ev.id) = some f →
    f.msg = .result t.ref tok v none → s.thread? t.ref = some t → t.retWait = none →
    exec .deferredResultReturn s = .next ((s.modify fun m => { m with flight := m.flight.filter (·.id != f.id) }).setThread
      { t with pend := t.pend.map fun e => if e.tok == tok then { e with value := some v } else e })

/-- R58, R59, R110, R119, R305: div and rem by their table, and how a deferred result is queued, returns and is
committed at the next marker. -/
def Obligations.DivisionAndDeferredResults : Prop :=
  Sys2Proof.Claims.DivisionTable ∧ Sys2Proof.Claims.DivisionExamples ∧ Sys2Proof.Claims.DeferredInstructionsComplete
  ∧ Sys2Proof.Claims.FullPendingListParks ∧ Sys2Proof.Claims.CommitWritesInOrder ∧ Sys2Proof.Claims.MarkerCommits ∧
  Sys2Proof.Claims.ResultReturns

/-! ## Control (R54, R120 to R129) -/

namespace Sys2Proof.Claims

/-- The instructions whose whole effect is a change of their own thread, with the change (R120, R126, R129, R176, R179,
R268). -/
def threadRule (s : State) : Instr → Option (Code → Thread → Thread)
  | .nop _ | .nopExt _ => some fun c t => t.finish c
  | .bra o => some fun c t => t.goTo c ((t.pc + (o.imm.signExtend 64 <<< 2)) &&& 0x01FFFFFFFFFFFFFF)
  | .pmov o => some fun c t =>
    (if o.m then { t with p := (((s.lane c t).word c.fields.a).truncate 8) ||| 1 }
     else t.setRegs c.dstReg [(t.p ||| 1).zeroExtend 32] : Thread).finish c
  | .pmovExt o => some fun c t =>
    (if o.imm.getLsbD 0 then { t with p := (((s.lane c t).word c.fields.a).truncate 8) ||| 1 }
     else t.setRegs c.dstReg [(t.p ||| 1).zeroExtend 32] : Thread).finish c
  | .sfence _ | .sfenceExt _ => some fun c t => if t.sfenceWait.isSome then t else
    ({ t with sfenceWait := some ((t.out.filter fun o => o.classes &&& classHs != 0).map (·.tok)) } : Thread).finish c
  | .lkwait _ | .lkwaitExt _ => some fun c t =>
    { t with pc := nextPc c t.pc, st := .parked 7, wait := .lkwait s.m.cycle }
  | .sysIdle _ | .sysIdleExt _ => some fun c t =>
    ({ t with skip := Nat.min (Nat.max ((s.lane c t).word c.fields.b).toNat 1) 65536 } : Thread).finish c
  | _ => none

/-- The instructions that branch to an absolute address (R120, R122). -/
def absoluteBranch : Instr → Bool
  | .brx _ | .brxExt _ => true
  | _ => false
/-- The instructions that call an absolute address. -/
def absoluteCall : Instr → Bool
  | .callx _ | .callxExt _ => true
  | _ => false

end Sys2Proof.Claims

/-- R120, R126, R129, R176, R179, R268: nop, bra, pmov, sfence, lkwait and sys idle change the threads of their packet as said,
and nothing else; a thread stays at a second sfence before the bump of the first (log entry 97); where the guard is false only the program counter and the marker's part change (R54). -/
def Sys2Proof.Claims.ThreadInstructionsComplete : Prop :=
  ∀ (i : Instr) (c : Code) (s : State) (g : Code → Thread → Thread), threadRule s i = some g → i.code = some c →
    distinct s = true → ready s c = true →
    exec i s = .next (inPacket s fun t => if guardTrue c.fields t then g c t else t.finish c)

/-- R126: yield makes its thread sit out one issue tick and gives its gang the stamp of one that has just led. -/
def Sys2Proof.Claims.YieldCompletes : Prop :=
  ∀ (i : Instr) (c : Code) (s : State) (t : Thread), (∃ o, i = .yield o) ∨ (∃ o, i = .yieldExt o) → i.code = some c →
    alone s c t = true →
    exec i s = .next ((s.setThread (({ t with skip := 1 } : Thread).finish c)).updGang t.ref.gangRef fun g =>
      { g with led := s.m.cycle })

/-- R120: brx goes to bits [56:0] of its source when the bits above are zero and the address is a multiple of 4. -/
def Sys2Proof.Claims.AbsoluteBranchCompletes : Prop :=
  ∀ (i : Instr) (c : Code) (s : State) (t : Thread), absoluteBranch i = true → i.code = some c → alone s c t = true →
    let x := (s.lane c t).dword c.fields.a
    x.toNat < 2 ^ 57 → x.toNat % 4 = 0 → exec i s = .next (s.setThread (t.goTo c x))

/-- R120: a target with bits [63:57] not zero raises ADDR with its bits [56:0], else one that is no multiple of 4 raises ALIGN
with the target; brx and callx, where no fence holds the stack write of the latter, have no other effect. -/
def Sys2Proof.Claims.BadBranchTargetTraps : Prop :=
  ∀ (i : Instr) (c : Code) (s : State) (t : Thread), absoluteBranch i || absoluteCall i → i.code = some c →
    alone s c t = true → (absoluteCall i = true → t.fenced 2 = false) →
    let x := (s.lane c t).dword c.fields.a
    (2 ^ 57 ≤ x.toNat → exec i s = .next (inPort i s fun s =>
      s.raise t.ref t.pc c { cause := 0x06, addr := BitVec.ofNat 64 (x.toNat % 2 ^ 57) })) ∧
    (x.toNat < 2 ^ 57 → x.toNat % 4 ≠ 0 → exec i s = .next (inPort i s fun s => s.raise t.ref t.pc c { cause := 0x05, addr := x }))

/-- R54, R120, R126, R129, R176, R179, R268: nop, yield, branches, pmov, sfence, lkwait and sys idle, and a branch
target that is no code address. -/
def Obligations.JumpsComplete : Prop :=
  Sys2Proof.Claims.ThreadInstructionsComplete ∧ Sys2Proof.Claims.YieldCompletes ∧
  Sys2Proof.Claims.AbsoluteBranchCompletes ∧ Sys2Proof.Claims.BadBranchTargetTraps

namespace Sys2Proof.Claims

/-- An access that a thread of gang g asks for is ready, passes its checks as a, and is the one numbered next (R137, R162,
R178, R376). -/
def reaches (s : State) (c : Code) (t : Thread) (g : Gang) (w : Want) (a : Access) : Bool :=
  decide (s.gangOf t = some g) && !s.accessBlocked t g w
    && decide ((s.modify fun m => { m with nextId := m.nextId + 1 }).checkAccess c t g w s.m.nextId = .ok a)

/-- The machine with the packet of an instruction opened in the port of its core, after its one access a has been numbered, its
thread has become u, and the access is on its way (R143, R167, R372). -/
def sent (s : State) (u : Thread) (a : Access) (classes : Nat) : State :=
  ((((s.openPort.modify fun m => { m with nextId := m.nextId + 1 }).setThread u).noteAccess a).launchAccess a classes).closePort
    s.packetGang

/-- The target of a call (R65, R122): relative, or a source that R120 allows. -/
def callTarget (s : State) (i : Instr) (c : Code) (t : Thread) : Option Dword :=
  match i with
  | .call o => some ((t.pc + (o.imm.signExtend 64 <<< 2)) &&& 0x01FFFFFFFFFFFFFF)
  | .callx _ | .callxExt _ =>
    let x := (s.lane c t).dword c.fields.a
    if x.toNat < 2 ^ 57 ∧ x.toNat % 4 = 0 then some x else none
  | _ => none

/-- The write of a call at the stack's new top (R122). -/
def pushWant (c : Code) (t : Thread) : Want :=
  { space := 3, ea := t.sptr.toNat - 8, size := 8, op := .store (bytesOfDword (nextPc c t.pc)), classes := 2 }
/-- The read of a return at the stack's top (R123). -/
def popWant (t : Thread) : Want :=
  { space := 3, ea := t.sptr.toNat, size := 8, op := .load, result := some Ty.n64, classes := 1 }

end Sys2Proof.Claims

/-- R122: a call stores the return address below the stack top as a private access, lowers sptr by 8 and goes to the target;
memory itself changes only when that access is performed. -/
def Sys2Proof.Claims.CallCompletes : Prop :=
  ∀ (i : Instr) (c : Code) (s : State) (t : Thread) (g : Gang) (a : Access) (x : Dword), i.code = some c →
    alone s c t = true → callTarget s i c t = some x → t.sptr.toNat % 8 = 0 → 8 ≤ t.sptr.toNat →
    t.sptr.toNat ≤ s.limit t 3 → reaches s.openPort c t g (pushWant c t) a = true →
    exec i s = .next (sent s (({ t with sptr := t.sptr - 8 } : Thread).goTo c x) a 2)

/-- R122, R123, R137: a stack top that is no multiple of 8 raises ALIGN with it; one without room raises ADDR with address 0, and
a call whose slot lies beyond the private limit ADDR with the slot's address; nothing else changes. -/
def Sys2Proof.Claims.StackTopTraps : Prop :=
  ∀ (i : Instr) (c : Code) (s : State) (t : Thread), i.code = some c → alone s c t = true →
    ((callTarget s i c t).isSome ∧ t.fenced 2 = false ∨ ((∃ o, i = .ret o) ∨ (∃ o, i = .retExt o)) ∧ t.fenced 1 = false) →
    let traps := fun (e : Raise) => exec i s = .next (inPort i s fun s => s.raise t.ref t.pc c e)
    (t.sptr.toNat % 8 ≠ 0 → traps { cause := 0x05, addr := t.sptr.zeroExtend 64 }) ∧
    ((callTarget s i c t).isSome → t.sptr = 0 → traps { cause := 0x06 }) ∧
    ((callTarget s i c t).isSome → t.sptr.toNat % 8 = 0 → 8 ≤ t.sptr.toNat → s.limit t 3 < t.sptr.toNat →
      traps { cause := 0x06, addr := BitVec.ofNat 64 (t.sptr.toNat - 8) }) ∧
    (((∃ o, i = .ret o) ∨ (∃ o, i = .retExt o)) → t.sptr.toNat % 8 = 0 → s.limit t 3 < t.sptr.toNat + 8 →
      traps { cause := 0x06 })

/-- R123, R124: ret issues the read of the return address with sptr raised by 8, and its thread waits for it; when it returns,
the thread goes to the address, or, where that is no code address, raises what R120 says with sptr as it was. -/
def Sys2Proof.Claims.ReturnCompletes : Prop :=
  (∀ (i : Instr) (c : Code) (s : State) (t : Thread) (g : Gang) (a : Access), (∃ o, i = .ret o) ∨ (∃ o, i = .retExt o) →
    i.code = some c → alone s c t = true → t.sptr.toNat % 8 = 0 → t.sptr.toNat + 8 ≤ s.limit t 3 →
    reaches s.openPort c t g (popWant t) a = true →
    exec i s = .next (sent s { t with sptr := t.sptr + 8, retWait := some (a.tok, c) } a 1)) ∧
  ∀ (s : State) (f : Flight) (t : Thread) (tok : Nat) (c : Code) (lo hi : Word),
    s.m.flight.find? (·.id == s.m.ev.id) = some f → f.msg = .result t.ref tok [lo, hi] none → s.thread? t.ref = some t →
    t.retWait = some (tok, c) →
    let x := pair lo hi
    let r := s.modify fun m => { m with flight := m.flight.filter (·.id != f.id) }
    let back := r.setThread { t with retWait := none, sptr := t.sptr - 8 }
    (x.toNat < 2 ^ 57 → x.toNat % 4 = 0 →
      exec .deferredResultReturn s = .next (r.setThread (({ t with retWait := none } : Thread).goTo c x))) ∧
    (2 ^ 57 ≤ x.toNat → exec .deferredResultReturn s = .next
      (back.raise t.ref t.pc c { cause := 0x06, addr := BitVec.ofNat 64 (x.toNat % 2 ^ 57) })) ∧
    (x.toNat < 2 ^ 57 → x.toNat % 4 ≠ 0 → exec .deferredResultReturn s = .next (back.raise t.ref t.pc c { cause := 0x05, addr := x }))

/-- R122 to R124: the return stack. -/
def Obligations.CallAndReturn : Prop :=
  Sys2Proof.Claims.CallCompletes ∧ Sys2Proof.Claims.StackTopTraps ∧ Sys2Proof.Claims.ReturnCompletes

/-- R127, R276: brk raises BREAK at its own address, or halts its thread under a session that takes breaks; it has no other
effect. -/
def Sys2Proof.Claims.BreakCompletes : Prop :=
  ∀ (i : Instr) (c : Code) (s : State) (t : Thread), (∃ o, i = .brk o) ∨ (∃ o, i = .brkExt o) → i.code = some c →
    alone s c t = true →
    let x := s.context (s.ctxOf t.ref.kid)
    exec i s = .next (if x.session ∧ x.takebrk then s.setThread { t with halt := some .brk }
      else s.raise t.ref t.pc c { cause := 0x0C })

/-! ## Registers an instruction may not name (R23) -/

namespace Sys2Proof.Claims

/-- Loads, stores, atomics, copies, posts and the engine's instructions. -/
def unitForm : Instr → Bool
  | .ld _ | .ldExt _ | .st _ | .stExt _ | .atom _ | .red _ | .pf _ | .tackLd _ | .tackLdExt _ | .dcopy _ | .join _ | .joinExt _
  | .qpost _ | .qsig _ | .mma _ | .mzero _ | .mld _ | .mldRegs _ | .mst _ | .mstRegs _ | .mcvt _ | .qblk _ => true
  | _ => false

/-- Some rule of this file names the instruction as one that acts thread by thread, or in a unit for its threads. -/
def perThread (s : State) (i : Instr) : Bool :=
  (integerRule i).isSome || (floatRule i).isSome || (deferredRule i).isSome || (threadRule s i).isSome || absoluteBranch i
    || absoluteCall i || unitForm i

end Sys2Proof.Claims

/-- R23: an instruction that names a register of a block its gang does not hold, and that no fence holds (R173), raises
REG_RANGE, and has no other effect. -/
def Sys2Proof.Claims.RegisterOutOfRangeTraps : Prop :=
  ∀ (i : Instr) (c : Code) (s : State) (t : Thread), perThread s i = true → i.code = some c → c.gangDst = false →
    distinct s = true → s.m.packet = [t.ref] → s.thread? t.ref = some t → guardTrue c.fields t = true →
    t.pend.length < 8 → t.fenced 48 = false → s.outOfRange c t = true →
    exec i s = .next (inPort i s fun s => s.raise t.ref t.pc c { cause := 0x03 })

/-- R157: one that reads a poisoned register raises MEM_ERROR with the register's window address. No release form with a tack
window open is meant (R206). -/
def Sys2Proof.Claims.PoisonedRegisterEndsTeam : Prop :=
  ∀ (i : Instr) (c : Code) (s : State) (t : Thread) (a : Dword), perThread s i = true → i.code = some c → c.gangDst = false →
    distinct s = true → s.m.packet = [t.ref] → s.thread? t.ref = some t → guardTrue c.fields t = true →
    t.pend.length < 8 → t.fenced 48 = false → s.outOfRange c t = false → Code.barred c t = false →
    s.poisonRead c t = some a →
    exec i s = .next (inPort i s fun s => s.fatal t 0x0E t.pc a false 0 (c.words.getD 0 0))

/-- R23, R157: the registers that an instruction may not name, and poisoned ones. -/
def Obligations.RegisterFaults : Prop :=
  Sys2Proof.Claims.RegisterOutOfRangeTraps ∧ Sys2Proof.Claims.PoisonedRegisterEndsTeam

/-! ## Special registers (R32 to R41, R135) -/

/-- R28, R39, R135: srd writes the special register's value at its width to its destination, a thread register in every
thread of the packet, or once a gang register. -/
def Sys2Proof.Claims.SrdCompletes : Prop :=
  ∀ (i : Instr) (c : Code) (s : State), (∃ o, i = .srd o) ∨ (∃ o, i = .srdExt o) → i.code = some c → distinct s = true →
    ready s c = true →
    let x := fun (t : Thread) => ({ words := wordsOf (srWidth c.fields.a.toNat) (s.special t c.fields.a.toNat) } : Calc)
    (c.gangDst = false →
      exec i s = .next (inPacket s fun t => if guardTrue c.fields t then computed c (x t) t else t.finish c)) ∧
    (c.gangDst = true → guarded s c = true → ∀ (t : Thread) (ts : List Thread), s.participants c = t :: ts →
      s.gangWriteBarred t.ref.kid c.dstReg = false →
      exec i s = .next (inPacket (s.updGang t.ref.gangRef (·.setRegs c.dstReg (x t).words)) (·.finish c)))

/-- R32, R39, R420: what the special registers read; the restricted ones read zero in a context without privilege. The energy
is the estimate, kept in femtojoules. -/
def Obligations.SpecialRegisterValues : Prop :=
  ∀ (s : State) (t : Thread) (g : Gang), s.gangOf t = some g →
    let p := (s.context (s.ctxOf t.ref.kid)).priv
    s.special t 0x00 = BitVec.ofNat 64 t.ref.lane ∧ s.special t 0x01 = BitVec.ofNat 64 t.ref.gang ∧
    s.special t 0x02 = BitVec.ofNat 64 t.ref.team ∧ s.special t 0x03 = BitVec.ofNat 64 (t.ref.gang * 32 + t.ref.lane) ∧
    s.special t 0x04 = BitVec.ofNat 64 (t.grank.toNat % 2 ^ 32) ∧ s.special t 0x0B = BitVec.ofNat 64 (t.grank.toNat / 2 ^ 32) ∧
    s.special t 0x05 = t.lineage ∧ s.special t 0x06 = BitVec.ofNat 64 g.vcore ∧ s.special t 0x07 = BitVec.ofNat 64 g.vslot ∧
    s.special t 0x08 = BitVec.ofNat 64 g.role ∧ s.special t 0x0A = (if p then 1 else 0) ∧
    s.special t 0x10 = BitVec.ofNat 64 s.m.cycle ∧ s.special t 0x11 = t.fmode.zeroExtend 64 ∧ s.special t 0x13 = t.rngctr ∧
    s.special t 0x14 = t.sptr.zeroExtend 64 ∧ s.special t 0x15 = t.tackst.zeroExtend 64 ∧
    s.special t 0x16 = t.popst.zeroExtend 64 ∧ s.special t 0x17 = BitVec.ofNat 64 g.blocks.length ∧
    s.special t 0x09 = BitVec.ofNat 64 (s.ctxOf t.ref.kid) ∧
    (∀ l, s.launch? t.ref.kid = some l → s.special t 0x12 = l.seed) ∧
    (∀ k, s.kernel? t.ref.kid = some k → s.special t 0x18 = BitVec.ofNat 64 (k.energy / 10 ^ 9)) ∧
    s.special t 0x20 = t.x.cause.zeroExtend 64 ∧ s.special t 0x21 = t.x.pc ∧ s.special t 0x22 = t.x.addr ∧
    s.special t 0x23 = t.x.word0.zeroExtend 64 ∧ s.special t 0x24 = t.x.word1.zeroExtend 64 ∧
    s.special t 0x25 = t.x.word2.zeroExtend 64 ∧ s.special t 0x26 = t.x.word3 ∧ s.special t 0x27 = t.x.fld ∧
    (p = false → s.special t 0x30 = 0 ∧ s.special t 0x31 = 0 ∧ s.special t 0x32 = 0) ∧
    (p = true → s.special t 0x30 = BitVec.ofNat 64 (4 * g.hub + g.core) ∧
      s.special t 0x31 = BitVec.ofNat 64 (32 * g.quarter + g.slot) ∧
      s.special t 0x32 = BitVec.ofNat 64 (s.quarter { hub := g.hub, core := g.core, quarter := g.quarter }).cadence)

namespace Sys2Proof.Claims

/-- A thread after a write of x to a writable special register, by its own write rule (R34 to R36, R39, R41). -/
def specialWritten (t : Thread) (n : Nat) (x : Dword) : Option Thread :=
  let w := lowHalf x
  match n with
  | 0x11 => if w.toNat ≤ 4 then some { t with fmode := w.truncate 3 } else none
  | 0x14 => some { t with sptr := w }
  | 0x15 => if w.getLsbD 3 then none
    else some { t with tackst := w &&& 0xFFFFFF00 ||| (t.tackst &&& 0xFD#32) ||| (t.tackst &&& ~~~w &&& 2) }
  | 0x16 => if w.toNat ≤ 1 then some { t with popst := t.popst &&& ~~~(w &&& 1) } else none
  | 0x21 => if x.toNat < 2 ^ 57 then some { t with x := { t.x with pc := x } } else none
  | _ => none

end Sys2Proof.Claims

/-- R34 to R36, R39, R41, R135: swr writes a writable register by its write rule; a reserved bit or code in the value raises
ILLEGAL_FIELD with BADF 9; a restricted register raises PRIV, or ILLEGAL_FIELD with BADF 4 in a privileged context. -/
def Sys2Proof.Claims.SwrCompletes : Prop :=
  ∀ (i : Instr) (c : Code) (s : State) (t : Thread), (∃ o, i = .swr o) ∨ (∃ o, i = .swrExt o) → i.code = some c →
    alone s c t = true →
    let n := c.fields.a.toNat
    let x := if srWidth n = 2 then (s.lane c t).dword c.fields.b else ((s.lane c t).word c.fields.b).zeroExtend 64
    (∀ u, specialWritten t n x = some u → exec i s = .next (s.setThread (u.finish c))) ∧
    (n ∈ [0x11, 0x15, 0x16, 0x21] → specialWritten t n x = none →
      exec i s = .next (s.raise t.ref t.pc c { cause := 0x02, badf := 9 })) ∧
    (n ∈ [0x30, 0x31, 0x32] → exec i s = .next (s.raise t.ref t.pc c
      (if (s.context (s.ctxOf t.ref.kid)).priv then { cause := 0x02, badf := 4 } else { cause := 0x04 })))

/-- R28, R34 to R36, R39, R41, R135: srd and swr. -/
def Obligations.SpecialRegistersReadAndWritten : Prop :=
  Sys2Proof.Claims.SrdCompletes ∧ Sys2Proof.Claims.SwrCompletes

/-! ## Across lanes (R130 to R134) -/

namespace Sys2Proof.Claims

/-- The threads of the packet, in lane order. -/
def packetThreads (s : State) : List Thread := s.m.packet.filterMap fun r => s.thread? r

end Sys2Proof.Claims

/-- R130, R132: all, any and uni write their result, and ballot its sum, in every participating lane. -/
def Sys2Proof.Claims.VoteCompletes : Prop :=
  ∀ (o : Ext) (s : State), distinct s = true →
    let c : Code := .ext 0x51 o
    ready s c = true → guarded s c = true →
    let a := predOf c.fields.a
    let d := predOf c.fields.d
    let ts := packetThreads s
    (subBits c.fields 0 2 = 0 → exec (.vote o) s = .next (inPacket s fun t => (t.setPred d (ts.all (·.pred a))).finish c)) ∧
    (subBits c.fields 0 2 = 1 → exec (.vote o) s = .next (inPacket s fun t => (t.setPred d (ts.any (·.pred a))).finish c)) ∧
    (subBits c.fields 0 2 = 2 → exec (.vote o) s = .next (inPacket s fun t =>
      (t.setPred d (ts.all (·.pred a) || ts.all (!·.pred a))).finish c)) ∧
    (subBits c.fields 0 2 = 3 → exec (.vote o) s = .next (inPacket s fun t =>
      (t.setRegs c.dstReg [BitVec.ofNat 32 ((ts.filter (·.pred a)).map fun u => 2 ^ u.ref.lane).sum]).finish c))

/-- R130, R131: shfl gives every participating lane the value of its source lane and a true output predicate, or its own C and
false where the source is out of range or does not participate. -/
def Sys2Proof.Claims.ShuffleCompletes : Prop :=
  ∀ (o : Ext) (s : State), distinct s = true →
    let c : Code := .ext 0x50 o
    ready s c = true → guarded s c = true → c.gangDst = false →
    let w := Ty.regs c.ty
    let source := fun (t : Thread) =>
      let b := ((s.lane c t).word o.b).toNat
      match subBits c.fields 0 2 with
      | 0 => (b : Int)
      | 1 => (t.ref.lane : Int) - b
      | 2 => (t.ref.lane : Int) + b
      | _ => if b < 32 then ((t.ref.lane ^^^ b : Nat) : Int) else -1
    (∀ t ∈ packetThreads s, t.ref.lane < 32) →
    exec (.shfl o) s = .next (inPacket s fun t =>
      match (packetThreads s).find? fun u => (u.ref.lane : Int) = source t with
      | some u => ((t.setRegs c.dstReg ((s.lane c u).opnd w o.a)).setPred (subBits c.fields 2 3) true).finish c
      | none => ((t.setRegs c.dstReg ((s.lane c t).opnd w o.c)).setPred (subBits c.fields 2 3) false).finish c)

namespace Sys2Proof.Claims

/-- The cross-lane instructions with one result for the packet, which a gang register may take, and the result: rdfl's value in
the lowest lane, and redux's reduction over the lanes, an absent one being the identity (R133, R134). -/
def reduceRule (s : State) (c : Code) (ts : List Thread) (low : Thread) : Instr → Option (List Word)
  | .rdfl _ | .rdflExt _ => some ((s.lane c low).opnd (Ty.regs c.ty) c.fields.a)
  | .redux _ =>
    let op := LaneOp.ofCode (subBits c.fields 0 3)
    some (wordsOf (Ty.regs c.ty) (laneReduce (op.apply c.ty (s.lane c low).rnd) (.ofFn fun i =>
      match ts.find? (·.ref.lane == i.val) with
      | some t => (s.lane c t).val c.fields.a
      | none => op.identity c.ty)))
  | _ => none

end Sys2Proof.Claims

/-- R28, R130, R133, R134: rdfl and redux write one result into every participating lane, or once into the gang register. -/
def Sys2Proof.Claims.LaneReductionsComplete : Prop :=
  ∀ (i : Instr) (c : Code) (s : State) (t : Thread) (ts : List Thread) (ws : List Word), i.code = some c →
    distinct s = true → ready s c = true → guarded s c = true → packetThreads s = t :: ts →
    reduceRule s c (t :: ts) t i = some ws →
    (c.gangDst = false → exec i s = .next (inPacket s fun u => (u.setRegs c.dstReg ws).finish c)) ∧
    (c.gangDst = true → s.gangWriteBarred t.ref.kid c.dstReg = false →
      exec i s = .next (inPacket (s.updGang t.ref.gangRef (·.setRegs c.dstReg ws)) (·.finish c)))

/-- R130, R134: scan gives every participating lane its own prefix result. -/
def Sys2Proof.Claims.ScanCompletes : Prop :=
  ∀ (o : Ext) (s : State) (t : Thread) (ts : List Thread), distinct s = true →
    let c : Code := .ext 0x54 o
    ready s c = true → guarded s c = true → packetThreads s = t :: ts →
    let op := LaneOp.ofCode (subBits c.fields 0 3)
    let xs : Vector Dword 32 := .ofFn fun i => match (t :: ts).find? (·.ref.lane == i.val) with
      | some u => (s.lane c u).val c.fields.a
      | none => op.identity c.ty
    let ys := laneScan (op.apply c.ty (s.lane c t).rnd) (op.identity c.ty) (o.sub.getLsbD 3) xs
    exec (.scanInstr o) s = .next (inPacket s fun u =>
      (u.setRegs c.dstReg (wordsOf (Ty.regs c.ty) (ys.toArray.getD u.ref.lane 0))).finish c)

/-- R28, R130 to R134: vote, ballot, shfl, rdfl, redux and scan. -/
def Obligations.CrossLaneInstructionsComplete : Prop :=
  Sys2Proof.Claims.VoteCompletes ∧ Sys2Proof.Claims.ShuffleCompletes ∧ Sys2Proof.Claims.LaneReductionsComplete ∧
  Sys2Proof.Claims.ScanCompletes

/-- R95: with an associative operation, reduce combines the 32 lanes in lane order, and scan gives lane i the combination of the
lanes up to i, or, exclusive, of those below i, with the identity in lane 0. -/
def Obligations.LaneOrder : Prop :=
  ∀ (f : Dword → Dword → Dword) (x : Vector Dword 32) (e : Dword), (∀ a b c, f (f a b) c = f a (f b c)) →
    let prefixOf := fun (n : Nat) => (x.toList.take (n + 1)).tail.foldl f (x.toList.headD 0)
    laneReduce f x = prefixOf 31 ∧
    (∀ i < 32, (laneScan f e false x).toArray.getD i 0 = prefixOf i) ∧
    (∀ i < 31, (laneScan f e true x).toArray.getD (i + 1) 0 = prefixOf i) ∧
    (laneScan f e true x).toArray.getD 0 0 = e

/-! ## Memory instructions (R136 to R178) -/

/-- R137: an address of gl is taken mod 2^64 and raises ADDR from 2^57 on; one of another space raises ADDR below 0 or when the
access would pass the limit; then an address that is no multiple of the size raises ALIGN; the trap's address is the address
mod 2^57. -/
def Obligations.EffectiveAddressRule : Prop :=
  ∀ (space limit base n : Nat) (off : Int), 0 < n →
    let a := if space = 0 then ((base : Int) + off) % 2 ^ 64 else (base : Int) + off
    let at57 : Dword := BitVec.ofInt 64 (a % 2 ^ 57)
    let out := if space = 0 then 2 ^ 57 ≤ a else a < 0 ∨ (limit : Int) < a + n
    (out → effAddr space limit base off n = .error { cause := 0x06, addr := at57 }) ∧
    (¬ out → a % n ≠ 0 → effAddr space limit base off n = .error { cause := 0x05, addr := at57 }) ∧
    (¬ out → a % n = 0 → effAddr space limit base off n = .ok a.toNat)

namespace Sys2Proof.Claims

/-- The accesses of ld, st, atom, red, qsig: the space, the size, and the access at an address (R164, R166, R170, R287). -/
def accessRule (s : State) (c : Code) (t : Thread) : Instr → Option (Nat × Nat × (Nat → Want))
  | .ld _ | .ldExt _ =>
    let sp := Fields.space c.fields
    some (sp, Ty.bytes c.ty, fun a =>
      { space := sp, ea := a, size := Ty.bytes c.ty, op := .load, result := some c.ty, ord := ordOf c.fields,
        scope := scopeOf c.fields, rmt := c.fields.ext && c.fields.sub.getLsbD 2,
        rep := c.fields.ext && c.fields.sub.getLsbD 1, classes := 1 })
  | .st _ | .stExt _ =>
    let sp := Fields.space c.fields
    some (sp, Ty.bytes c.ty, fun a =>
      { space := sp, ea := a, size := Ty.bytes c.ty,
        op := .store ((bytesOfWords ((s.lane c t).opnd (Ty.regs c.ty) c.fields.d)).take (Ty.bytes c.ty)),
        ord := ordOf c.fields, scope := scopeOf c.fields, classes := 2 })
  | .atom _ | .red _ =>
    let l := s.lane c t
    some (atomSpace c.fields, 4 * Ty.regs c.ty, fun a =>
      { space := atomSpace c.fields, ea := a, size := 4 * Ty.regs c.ty,
        op := .atomic (subBits c.fields 0 4) c.ty (l.val c.fields.b) (l.val c.fields.c) l.rnd.noStochastic,
        result := if Code.keepsOld c then some c.ty else none, ord := ordOf c.fields, scope := scopeOf c.fields,
        rmt := subBits c.fields 4 2 == 3, classes := if c.fields.op == 0x5A then 3 else 2 })
  | .qsig _ => some (0, 8, fun a =>
      { space := 0, ea := a, size := 8, op := .atomic 0 Ty.n64 ((s.lane c t).dword c.fields.b) 0 .rne, scope := 4,
        classes := 64 })
  | _ => none

/-- A thread after its access a has issued (R59, R156, R161): the pending entry of a result, and the next instruction, or
the park of an acquire, or of absent scratch lines. -/
def afterIssue (s : State) (c : Code) (t : Thread) (a : Access) : Thread :=
  let t' := match a.result with
    | some ty => { t with pend := t.pend ++ [({ reg := c.dstReg, count := Ty.regs ty, tok := a.tok, value := none } : Pending)] }
    | none => t
  let absent := s.absentLoad t a
  if a.ord = 1 ∨ a.ord = 3 then
    { t' with pc := nextPc c t.pc, st := .parked (if absent then 2 else 1), wait := .acquire [a.tok] }
  else if absent then { t' with pc := nextPc c t.pc, st := .parked 2, wait := .present }
  else t'.finish c

end Sys2Proof.Claims

/-- R162, R164, R166, R170, R287: ld, st, atom, red and qsig send one access on its way: the thread's operation is outstanding, a
result is pending, and the access joins the port of its core, or waits for the write-back of its release. No memory changes
at issue: it does when the access is performed. -/
def Sys2Proof.Claims.AccessInstructionsComplete : Prop :=
  ∀ (i : Instr) (c : Code) (s : State) (t : Thread) (g : Gang) (sp n ea : Nat) (w : Nat → Want) (a : Access),
    i.code = some c → alone s c t = true → accessRule s c t i = some (sp, n, w) → t.pend.length < 8 →
    let p := s.openPort
    p.memAddr c t sp n = .ok ea → reaches p c t g (w ea) a = true →
    exec i s = .next (sent s (afterIssue p c t a) a (w ea).classes)

/-- R137: an address that breaks R137 raises its cause, and the access has no other effect. -/
def Sys2Proof.Claims.AccessTraps : Prop :=
  ∀ (i : Instr) (c : Code) (s : State) (t : Thread) (g : Gang) (sp n : Nat) (w : Nat → Want) (e : Raise), i.code = some c →
    alone s c t = true → accessRule s c t i = some (sp, n, w) → t.pend.length < 8 →
    let p := s.openPort
    p.gangOf t = some g → p.notReady t g (w 0) = false → p.memAddr c t sp n = .error e →
    exec i s = .next (inPort i s fun s => s.raise t.ref t.pc c e)

/-- R162, R173, R226, R306: a thread whose access is not ready stays at its instruction, unchanged: before its address is
looked at, or, where a fence holds its class alone, when the address lies on a page of I/O. -/
def Sys2Proof.Claims.BlockedAccessStays : Prop :=
  ∀ (i : Instr) (c : Code) (s : State) (t : Thread) (g : Gang) (sp n : Nat) (w : Nat → Want), i.code = some c →
    alone s c t = true → accessRule s c t i = some (sp, n, w) → t.pend.length < 8 →
    let p := s.openPort
    p.gangOf t = some g →
    (p.notReady t g (w 0) = true → exec i s = .next (inPort i s id)) ∧
    ∀ ea, p.notReady t g (w 0) = false → p.memAddr c t sp n = .ok ea → p.accessBlocked t g (w ea) = true →
      exec i s = .next (inPort i s id)

namespace Sys2Proof.Claims

/-- The instructions that are releases in every form, and those that their order field makes one (R206). -/
def releaseForm (c : Code) : Instr → Bool
  | .st _ | .stExt _ | .atom _ | .red _ | .fence _ => c.fields.ord == 2 || c.fields.ord == 3
  | .gsync _ | .gsyncExt _ | .barArr _ | .barSync _ | .tbArr _ | .gridsync _ | .gridsyncExt _ | .spawn _ | .rsmp _ => true
  | _ => false

end Sys2Proof.Claims

/-- R206: a release form inside an open tack window raises TACK_RELEASE with address zero, before every cause but REG_RANGE, and
has no other effect. -/
def Sys2Proof.Claims.ReleaseInWindowTraps : Prop :=
  ∀ (i : Instr) (c : Code) (s : State) (t : Thread), releaseForm c i = true → i.code = some c → i.wellFormed = true →
    single s t → guardTrue c.fields t = true → s.outOfRange c t = false → t.pend.length < 8 →
    tackOpenBit t.tackst = true →
    exec i s = .next (inPort i s fun s => s.raise t.ref t.pc c { cause := 0x0A })

/-- R137, R162, R164, R166, R170, R173, R206, R287, R306: loads, stores and atomics. -/
def Obligations.MemoryAccess : Prop :=
  Sys2Proof.Claims.AccessInstructionsComplete ∧ Sys2Proof.Claims.AccessTraps ∧ Sys2Proof.Claims.BlockedAccessStays ∧
  Sys2Proof.Claims.ReleaseInWindowTraps

/-- R156, R160: an access performed in scratch memory: a load reads its bytes and a store writes them, at the window address of
the access; every other byte of the window memory, and all of HBM4, stays. -/
def Obligations.ScratchAccessFrame : Prop :=
  ∀ (s : State) (a : Access), a.space = 1 ∨ a.space = 2 → Memory.wf s.m.win = true →
    (∀ bs, a.op = .store bs → ∀ x, (x < a.pa ∨ a.pa + bs.length ≤ x) → Memory.read (s.performScratch a).m.win x = Memory.read s.m.win x) ∧
    (∀ bs, a.op = .store bs → bs.length = a.size → ∀ k < bs.length,
      Memory.read (s.performScratch a).m.win (a.pa + k) = bs.getD k 0) ∧
    (a.op = .load → (s.performScratch a).m.win = s.m.win) ∧ (s.performScratch a).mem = s.mem

/-- R173: a fence issues with what it awaits: a release part, the thread's operations of the predecessor classes that are not yet
performed; an acquire part parks the thread. -/
def Sys2Proof.Claims.FenceCompletes : Prop :=
  ∀ (o : Ext) (s : State) (t : Thread),
    let c : Code := .ext 0x5C o
    alone s c t = true →
    let rel := o.ord = 2 ∨ o.ord = 3
    let acq := o.ord = 1 ∨ o.ord = 3
    let n := s.m.nextId
    let f : OpenFence :=
      { tok := n, waits := if rel then (t.out.filter fun x => x.classes &&& (o.imm.toNat % 128) != 0).map (·.tok) else [],
        successors := o.imm.toNat / 256 % 128, ord := o.ord.toNat, scope := o.scope.toNat, rmt := o.sub.getLsbD 0,
        stage := .waiting, promotions := [] }
    let t' := { t with fences := t.fences ++ [f] }
    exec (.fence o) s = .next ((s.modify fun m => { m with nextId := n + 1 }).setThread
      (if acq then { t' with pc := nextPc c t.pc, st := .parked 1, wait := .acquire [n] } else t'.finish c))

/-- R174: pf never traps and never waits: whatever its address, its threads go on, and no memory, register or window byte
changes. -/
def Sys2Proof.Claims.PrefetchCompletes : Prop :=
  ∀ (o : Ext) (s : State) (t : Thread),
    let c : Code := .ext 0x5D o
    alone s c t = true → ∃ s', exec (.pf o) s = .next s' ∧ s'.m.threads = (s.setThread (t.finish c)).m.threads ∧
      s'.mem = s.mem ∧ s'.m.win = s.m.win ∧ s'.m.gangs = s.m.gangs ∧ s'.m.l2 = s.m.l2 ∧ s'.m.records = s.m.records

/-- R175: pres writes the presence bit of the addressed line to its predicate, or raises what its address breaks. -/
def Sys2Proof.Claims.PresenceTestCompletes : Prop :=
  ∀ (i : Instr) (c : Code) (s : State) (t : Thread) (x : Team), (∃ o, i = .pres o) ∨ (∃ o, i = .presExt o) →
    i.code = some c → alone s c t = true → s.teamOf t = some x →
    (∀ a, s.memAddr c t 1 1 = .ok a → exec i s = .next (s.setThread
      ((t.setPred (predOf c.fields.d) (!x.counts.any (·.1 == a / 128))).finish c))) ∧
    (∀ e, s.memAddr c t 1 1 = .error e → exec i s = .next (s.raise t.ref t.pc c e))

namespace Sys2Proof.Claims

/-- The classes of R172 that an instruction belongs to (R458): 1 reads, 2 writes, 4 and 8 copies, 16 and 32 the engine's, 64
I/O. -/
def classRule : Instr → Option Nat
  | .ret _ | .retExt _ | .ld _ | .ldExt _ | .tackLd _ | .tackLdExt _ | .join _ | .joinExt _ | .tbWait _ | .tbTest _ => some 1
  | .call _ | .callx _ | .callxExt _ | .st _ | .stExt _ | .red _ => some 2
  | .atom _ | .tbInit _ | .tbArr _ | .tbExp _ => some 3
  | .dcopy _ | .pstep _ | .pstepExt _ => some 12
  | .mma _ | .mzero _ | .mld _ | .mldRegs _ | .mst _ | .mstRegs _ | .mcvt _ | .qblk _ => some 48
  | .qpost _ | .qsig _ => some 64
  | _ => none

end Sys2Proof.Claims

/-- R173, R306, R458: an open fence whose successor set holds a class of the instruction keeps its thread where it stands,
whatever else the instruction would do or raise. -/
def Sys2Proof.Claims.FenceHoldsSuccessors : Prop :=
  ∀ (i : Instr) (c : Code) (s : State) (t : Thread) (n : Nat), i.code = some c → alone s c t = true →
    classRule i = some n → t.pend.length < 8 → (∃ f ∈ t.fences, f.successors &&& n ≠ 0) →
    exec i s = .next (inPort i s id)

/-- R173 to R175: fence, what it holds back, the prefetch and the presence test. -/
def Obligations.FencesAndPrefetches : Prop :=
  Sys2Proof.Claims.FenceCompletes ∧ Sys2Proof.Claims.FenceHoldsSuccessors ∧ Sys2Proof.Claims.PrefetchCompletes ∧
  Sys2Proof.Claims.PresenceTestCompletes

/-! ## Tack windows (R191 to R206) -/

/-- R202, R193, R197, R198: tack.ld sends its load; with a window open, fewer than 8 entries of the thread pending and room in
its core's table it takes an entry, and else it degrades: DEG and its count are set, and the load is one of device scope. -/
def Sys2Proof.Claims.TackLoadCompletes : Prop :=
  ∀ (i : Instr) (c : Code) (s : State) (t : Thread) (g : Gang) (ea : Nat) (a : Access),
    (∃ o, i = .tackLd o) ∨ (∃ o, i = .tackLdExt o) → i.code = some c → alone s c t = true → t.pend.length < 8 →
    s.gangOf t = some g → t.fenced 1 = false → s.memAddr c t 0 (Ty.bytes c.ty) = .ok ea →
    let p := s.openPort
    let w : Want := { space := 0, ea := ea, size := Ty.bytes c.ty, op := .load, result := some c.ty, tack := true, classes := 1 }
    let q := p.modify fun m => { m with nextId := m.nextId + 1 }
    q.ioFenced t g w = false → q.checkAccess c t g w p.m.nextId = .ok a →
    let u := ({ t with pend := t.pend ++ [({ reg := c.dstReg, count := Ty.regs c.ty, tok := a.tok, value := none } : Pending)] } : Thread).finish c
    let room := tackOpenBit t.tackst && decide (tackOut t.tackst < 8)
      && decide (((s.hub g.hub).cores.toArray.getD g.core Core.fresh).tacks.length < 512)
    let issued := (q.setThread u).noteAccess a
    (room = true → exec i s = .next (((issued.takeTack a).launchAccess a 1).closePort s.packetGang)) ∧
    (room = false → exec i s = .next ((((issued.updThread t.ref fun t =>
      { t with tackst := bumpCount (t.tackst ||| 2) 8 }).count g.hub 9 1).launchAccess { a with degraded := true, scope := 2 } 1).closePort
        s.packetGang))

/-- R203 to R205: tack.open opens a window with STRUCK clear, after dropping an open one; tack.drop closes an open window and
frees its entries; tack.chk, with no entry pending and every result returned, commits, closes the window and branches on
STRUCK, and else parks with reason 6. -/
def Sys2Proof.Claims.TackWindowInstructionsComplete : Prop :=
  ∀ (i : Instr) (c : Code) (s : State) (t : Thread), i.code = some c → alone s c t = true →
    let isOpen := tackOpenBit t.tackst
    let s' := if isOpen then s.freeTacks t.ref else s
    let closed := if isOpen then setBits (setBits t.tackst 4 4 0) 0 1 0 else t.tackst
    (((∃ o, i = .tackOpen o) ∨ (∃ o, i = .tackOpenExt o)) →
      exec i s = .next (s'.setThread (({ t with tackst := setBits (setBits closed 0 1 1) 2 1 0 } : Thread).finish c))) ∧
    (((∃ o, i = .tackDrop o) ∨ (∃ o, i = .tackDropExt o)) →
      exec i s = .next (s'.setThread (({ t with tackst := closed } : Thread).finish c))) ∧
    (∀ o, i = .tackChk o →
      let target := (t.pc + (o.imm.signExtend 64 <<< 2)) &&& 0x01FFFFFFFFFFFFFF
      (tackOut t.tackst = 0 ∧ t.allReturned → exec i s = .next (s.setThread { t.commitAll with
        tackst := closed, pc := if t.tackst.getLsbD 2 then target else nextPc c t.pc })) ∧
      (¬ (tackOut t.tackst = 0 ∧ t.allReturned) → exec i s = .next (s.setThread
        { t with st := .parked 6, wait := .tackChk target (nextPc c t.pc) })))

/-- R193, R197, R198, R202 to R205: the tack window. -/
def Obligations.TackInstructionsComplete : Prop :=
  Sys2Proof.Claims.TackLoadCompletes ∧ Sys2Proof.Claims.TackWindowInstructionsComplete

/-! ## Copies (R177 to R188) -/

/-- R142, R188, R183: dcopy registers a valid piece at once when the range-lock table has room and no copy of its hub is held,
and goes on; the thread's copy operations are outstanding. A window piece needs privilege. While a write of the thread to
the scratchpad is on its way, it waits. The read of the piece is one event of the energy estimate (R420; log entry 18). -/
def Sys2Proof.Claims.DynamicCopyCompletes : Prop :=
  ∀ (o : Ext) (s : State) (t : Thread) (g : Gang) (x : Team) (a : Nat),
    let c : Code := .ext 0x60 o
    alone s c t = true → s.gangOf t = some g → s.teamOf t = some x → s.memAddr c t 1 64 = .ok a →
    s.winPoisoned (hsAddr x a) 64 = none → t.fenced 12 = false →
    let p := pieceOf (s.winRead (hsAddr x a) 64)
    let priv := (s.context (s.ctxOf t.ref.kid)).priv
    let r := s.activity t.ref.kid 3 1
    (t.storing = true → exec (.dcopy o) s = .next s) ∧
    (t.storing = false → p.window = true → priv = false → exec (.dcopy o) s = .next (r.raise t.ref t.pc c { cause := 0x04 })) ∧
    (t.storing = false → (p.window = false ∨ priv = true) → p.wideAddress = none → p.valid x.hsSize true = true →
      r.heldCopies g.hub = [] → (s.hub g.hub).copies.length < 64 →
      let n := r.newCopy t.ref.teamRef p (some t.ref) t.lineage t.pc 0 0 true
      n.2.canRegister g.hub n.1 = true →
      let r := n.2.copyOps t.ref
      exec (.dcopy o) s = .next ((r.2.2.register g.hub { n.1 with tokRead := r.1, tokWrite := r.2.1 }).updThread t.ref (·.finish c)))

/-- R187: pstep with a level not above the team's, or without a pattern, only goes on; else the team's level rises to it, the
pieces up to it that no thread has released are released by this one, and the thread waits for them. -/
def Sys2Proof.Claims.PatternStepCompletes : Prop :=
  ∀ (i : Instr) (c : Code) (s : State) (t : Thread) (x : Team) (k : Kernel), (∃ o, i = .pstep o) ∨ (∃ o, i = .pstepExt o) →
    i.code = some c → alone s c t = true → s.teamOf t = some x → s.kernel? t.ref.kid = some k → t.fenced 12 = false →
    let n := Nat.min ((s.lane c t).word c.fields.a).toNat 15
    (k.pieces = [] ∨ n ≤ x.level → exec i s = .next (s.setThread (t.finish c))) ∧
    (k.pieces ≠ [] → x.level < n → exec i s = .next ((s.updTeam x.ref fun x =>
      { x with level := n, pieces := x.pieces.map fun p =>
                 if x.level < ((k.pieces[p.1]?).map (·.stage)).getD 16 ∧ ((k.pieces[p.1]?).map (·.stage)).getD 16 ≤ n ∧ p.2.1 = none then (p.1, some t.ref, t.lineage) else p }).updThread
        t.ref fun t => { t.finish c with pstepWait := some n }))

/-- R183, R187, R188: dcopy and pstep. -/
def Obligations.CopyInstructionsComplete : Prop :=
  Sys2Proof.Claims.DynamicCopyCompletes ∧ Sys2Proof.Claims.PatternStepCompletes

/-! ## Barriers (R218, R349 to R368) -/

namespace Sys2Proof.Claims

/-- The collectives with a release part at issue (R218). -/
def collective : Instr → Bool
  | .gsync _ | .gsyncExt _ | .barArr _ | .barSync _ | .tbArr _ | .gridsync _ | .gridsyncExt _ => true
  | _ => false

/-- Team barrier n of a team after an arrival (R353, R357): cnt is the count, and last the last-arriver role. -/
def arrived (s : State) (t : Thread) (g : Gang) (b : TeamBarrier) (cnt : Nat) : TeamBarrier :=
  { b with
    mode := if b.mode = .idle then (if cnt = 0 then .all else .counted) else b.mode
    expect := cnt
    arrived := b.arrived + 1
    last := if s.det t.ref.kid then (match b.last with
        | some o => if o.gang * 32 + o.lane < t.ref.gang * 32 + t.ref.lane then some t.ref else some o
        | none => some t.ref) else some t.ref
    finish := putBy (·.1 == g.core) (g.core, s.m.cycle) b.finish }

/-- What an arrival must not be (R353). -/
def wrongArrival (t : Thread) (b : TeamBarrier) (n cnt : Nat) : Bool :=
  decide (8192 < cnt) || (b.mode != .idle && cnt != b.expect)
    || (b.mode == .all && t.arr.getLsbD n && t.ph.toArray.getD n 0 == b.phase)

end Sys2Proof.Claims

/-- R162, R218: with an access of the thread not yet performed a thread stays at a collective. -/
def Sys2Proof.Claims.CollectiveReleaseRules : Prop :=
  ∀ (i : Instr) (c : Code) (s : State) (t : Thread) (g : Gang), collective i = true → i.code = some c → alone s c t = true →
    s.gangOf t = some g → (∃ x, s.teamOf t = some x) → t.outstanding = true → exec i s = .next (inPort i s id)

/-- R353, R356, R366: bar.arr arrives and goes on, and bar.sync arrives and parks with reason 3 for the phase, both with the
completion test after; an arrival that breaks the rules raises BARRIER_MISUSE with no other effect. -/
def Sys2Proof.Claims.TeamBarrierInstructionsComplete : Prop :=
  ∀ (i : Instr) (c : Code) (s : State) (t : Thread) (g : Gang) (x : Team), i.code = some c → alone s c t = true →
    s.gangOf t = some g → s.teamOf t = some x → tackOpenBit t.tackst = false → t.outstanding = false →
    let n := c.fields.imm.toNat % 16
    let b := x.bars.toArray.getD n .idle
    let cnt := ((s.lane c t).word c.fields.a).toNat
    let t1 := { t with arr := t.arr ||| (1#16 <<< n), ph := t.ph.setIfInBounds n b.phase }
    let after := fun (u : Thread) => ((s.setThread u).updTeam x.ref fun y =>
      { y with bars := y.bars.setIfInBounds n (arrived s t g (y.bars.toArray.getD n .idle) cnt) }).testBar x.ref n
    (∀ o, i = .barArr o → wrongArrival t b n cnt = false → exec i s = .next (after (t1.finish c))) ∧
    (∀ o, i = .barSync o → wrongArrival t b n cnt = false → exec i s = .next (after
      { t1 with pc := nextPc c t.pc, st := .parked 3, wait := .bar n b.phase (some (predOf c.fields.d)) })) ∧
    ((∃ o, i = .barArr o) ∨ (∃ o, i = .barSync o) → wrongArrival t b n cnt = true →
      exec i s = .next (s.raise t.ref t.pc c { cause := 0x0F }))

/-- R353, R354, R356: what an arrival that breaks no rule leaves: the barrier has counted it, or has completed and begun its next
phase; the thread has gone on, or is parked with reason 3 at the next instruction; no memory and no window byte changes. -/
def Sys2Proof.Claims.ArrivalsComplete : Prop :=
  ∀ (i : Instr) (c : Code) (s : State) (t : Thread) (g : Gang) (x : Team), i.code = some c → alone s c t = true →
    s.gangOf t = some g → s.teamOf t = some x → s.team? x.ref = some x → t.outstanding = false →
    ((∃ o, i = .barArr o) ∨ (∃ o, i = .barSync o)) → i.wellFormed = true →
    let n := c.fields.imm.toNat % 16
    let b := x.bars.toArray.getD n .idle
    wrongArrival t b n ((s.lane c t).word c.fields.a).toNat = false →
    ∃ s' t' y, exec i s = .next s' ∧ s'.thread? t.ref = some t' ∧ s'.team? x.ref = some y ∧ t'.pc = nextPc c t.pc ∧
      t'.arr.getLsbD n = true ∧ (n < 16 → t'.ph.toArray.getD n 0 = b.phase) ∧
      ((∃ o, i = .barSync o) → t'.st = .parked 3) ∧
      (let b' := y.bars.toArray.getD n .idle
       (b'.phase = b.phase ∧ b'.arrived = b.arrived + 1) ∨ (b'.phase = (b.phase + 1) % 65536 ∧ b'.arrived = 0)) ∧
      s'.mem = s.mem ∧ s'.m.win = s.m.win

/-- R355: bar.wait parks its thread with reason 3 at the next instruction, for the phase it arrived in, or else for the current
one as it stood before the cycle's completions; it has no other effect, whatever window or accesses the thread has open. -/
def Sys2Proof.Claims.BarrierWaitCompletes : Prop :=
  ∀ (o : Ext) (s : State) (t : Thread) (x : Team),
    let c : Code := .ext 0x69 o
    (Instr.barWait o).wellFormed = true → alone s c t = true → s.teamOf t = some x →
    let n := o.imm.toNat % 16
    let b := x.bars.toArray.getD n .idle
    exec (.barWait o) s = .next (s.setThread { t with
      pc := nextPc c t.pc, st := .parked 3
      wait := .bar n (if t.arr.getLsbD n then t.ph.toArray.getD n 0
        else s.phaseBefore [1, x.ref.kid, x.ref.team, n] b.phase) none })

/-- R354, R356, R357: a team barrier completes when its count has arrived, or in ALL mode when every live thread of the team has
arrived in its phase; it is then IDLE with nothing arrived and the next phase, mod 65536, and else nothing changes. -/
def Sys2Proof.Claims.TeamBarrierCompletion : Prop :=
  ∀ (s : State) (x : Team) (n : Nat), s.team? x.ref = some x → n < 16 →
    let b := x.bars.toArray.getD n .idle
    let done := match b.mode with
      | .idle => False
      | .counted => b.arrived = b.expect
      | .all => ∀ t ∈ s.m.threads, t.ref.teamRef = x.ref → t.arr.getLsbD n = true ∧ t.ph.toArray.getD n 0 = b.phase
    (¬ done → s.testBar x.ref n = s) ∧
    (done → ∃ y, (s.testBar x.ref n).team? x.ref = some y ∧
      y.bars.toArray.getD n .idle = { arrived := 0, expect := 0, mode := .idle, phase := (b.phase + 1) % 65536, last := none, finish := [] })

/-- R353 to R357, R366: team barriers. -/
def Obligations.TeamBarriers : Prop :=
  Sys2Proof.Claims.TeamBarrierInstructionsComplete ∧ Sys2Proof.Claims.ArrivalsComplete ∧
  Sys2Proof.Claims.BarrierWaitCompletes ∧ Sys2Proof.Claims.TeamBarrierCompletion

/-- R358: gsync parks its thread with reason 3 at the next instruction. -/
def Sys2Proof.Claims.GangSyncCompletes : Prop :=
  ∀ (i : Instr) (c : Code) (s : State) (t : Thread), (∃ o, i = .gsync o) ∨ (∃ o, i = .gsyncExt o) → i.code = some c →
    alone s c t = true → tackOpenBit t.tackst = false → t.outstanding = false →
    exec i s = .next (s.setThread { t with pc := nextPc c t.pc, st := .parked 3, wait := .gsync })

namespace Sys2Proof.Claims

/-- The operation that a transaction-barrier instruction applies (R361), and whether it releases (R218). -/
def transOp : Instr → Option (Nat × Bool)
  | .tbInit _ => some (0, false)
  | .tbArr _ => some (1, true)
  | .tbExp _ => some (2, false)
  | _ => none

/-- A transaction barrier with nothing pending advances (R361). -/
def advanced (b : TransBarrier) : TransBarrier :=
  if b.parr = 0 ∧ b.psect = 0 then { b with phase := (b.phase + 1) % 16, parr := b.expa } else b

end Sys2Proof.Claims

/-- R361: what the transaction-barrier operations make of a barrier, and which of them are BARRIER_MISUSE. -/
def Sys2Proof.Claims.TransactionBarrierRules : Prop :=
  ∀ (b : TransBarrier) (x : Nat),
    b.apply 0 x = (if 1 ≤ x ∧ x < 2 ^ 20 then some { reserved := 0, psect := 0, expa := x, parr := x, phase := 0 } else none) ∧
    b.apply 1 x = (if b.reserved = 0 ∧ 1 ≤ b.parr then some (advanced { b with parr := b.parr - 1 }) else none) ∧
    b.apply 2 x = (if b.reserved = 0 ∧ b.psect + x ≤ 2 ^ 31 - 1 then some (advanced { b with psect := b.psect + x }) else none) ∧
    b.land = (if -(2 ^ 31) ≤ b.psect - 1 then some (advanced { b with psect := b.psect - 1 }) else none)

/-- R142, R359, R361, R363, R366: tb.init, tb.arr and tb.exp send one access to the barrier's 16 bytes on its way and go on;
tb.wait parks with reason 3, and tb.test writes whether the phase differs, and both wait while a write of the thread to
the scratchpad is on its way; a set reserved bit is BARRIER_MISUSE there. An address that R361 refuses raises its cause. -/
def Sys2Proof.Claims.TransactionBarrierInstructionsComplete : Prop :=
  ∀ (i : Instr) (c : Code) (s : State) (t : Thread) (g : Gang) (x : Team), i.code = some c → alone s c t = true →
    s.gangOf t = some g → s.teamOf t = some x →
    t.fenced (if (transOp i).isSome then 3 else 1) = false →
    let p := s.openPort
    let n := ((s.lane c t).word c.fields.b).toNat
    let look := ((∃ o, i = .tbWait o) ∨ (∃ o, i = .tbTest o))
    (∀ op rel a, transOp i = some (op, rel) → (rel = true → tackOpenBit t.tackst = false ∧ t.outstanding = false) →
      p.tbAddress c t = .ok a →
      let w : Want := { space := 1, ea := a, size := 16, op := .trans op n, classes := 3 }
      ∀ e, reaches p c t g w e = true → exec i s = .next (sent s (t.finish c) e 3)) ∧
    (∀ e, ((∃ op rel, transOp i = some (op, rel) ∧ (rel = true → t.outstanding = false)) ∨ look ∧ t.storing = false) →
      (if (transOp i).isSome then p else s).tbAddress c t = .error e →
      exec i s = .next (inPort i s fun s => s.accessTrap t g c e)) ∧
    (look → t.storing = true → exec i s = .next s) ∧
    (∀ a, look → t.storing = false → s.tbAddress c t = .ok a → (s.transBarrier x a).reserved ≠ 0 →
      exec i s = .next (s.raise t.ref t.pc c { cause := 0x0F })) ∧
    (∀ o a, i = .tbWait o → t.storing = false → s.tbAddress c t = .ok a → (s.transBarrier x a).reserved = 0 →
      exec i s = .next ((s.setThread { t with pc := nextPc c t.pc, st := .parked 3, wait := .tb a (n % 16) }).activity
        t.ref.kid 3 1)) ∧
    (∀ o a, i = .tbTest o → t.storing = false → s.tbAddress c t = .ok a → (s.transBarrier x a).reserved = 0 →
      exec i s = .next ((s.setThread ((t.setPred (predOf c.fields.d)
        (decide (s.phaseBefore [0, hsAddr x a] (s.transBarrier x a).phase ≠ n % 16))).finish c)).activity t.ref.kid 3 1))

/-- R361, R366: a packet of transaction-barrier operations in which the scratchpad finds a misuse stores nothing: every thread of
it whose team still stands ends its team with BARRIER_MISUSE. -/
def Sys2Proof.Claims.TransactionBarrierMisuse : Prop :=
  ∀ (s seen : State) (a : Access) (as : List Access) (op n : Nat), a.op = .trans op n → s.keptBack a = false →
    (TransBarrier.ofNat (natOfBytes (s.winRead a.pa a.size))).apply op n = none →
    let u := s.mergePacket seen (a :: as)
    u.m.win = s.m.win ∧ u.mem = s.mem ∧
    (∀ b ∈ a :: as, u.team? b.thread.teamRef = none) ∧
    ((s.team? a.thread.teamRef).isSome = true → ∃ r ∈ u.m.records, r.cause = 0x0F ∧ r.fatal = true ∧ r.lane = a.thread.lane)

/-- R361: the access of a transaction-barrier operation that is performed stores the barrier that the operation makes, in its 16
bytes; every other window byte, and all of memory, stays. -/
def Sys2Proof.Claims.TransactionBarrierPerformed : Prop :=
  ∀ (s : State) (a : Access) (op n : Nat) (b : TransBarrier), a.op = .trans op n → Memory.wf s.m.win = true →
    (TransBarrier.ofNat (natOfBytes (s.winRead a.pa a.size))).apply op n = some b →
    (∀ k < 16, Memory.read (s.performScratch a).m.win (a.pa + k) = BitVec.ofNat 8 (b.toNat / 2 ^ (8 * k))) ∧
    (∀ y, (y < a.pa ∨ a.pa + 16 ≤ y) → Memory.read (s.performScratch a).m.win y = Memory.read s.m.win y) ∧
    (s.performScratch a).mem = s.mem

/-- R359, R361, R363, R366: transaction barriers. -/
def Obligations.TransactionBarriers : Prop :=
  Sys2Proof.Claims.TransactionBarrierRules ∧ Sys2Proof.Claims.TransactionBarrierInstructionsComplete ∧
  Sys2Proof.Claims.TransactionBarrierPerformed ∧ Sys2Proof.Claims.TransactionBarrierMisuse

/-- R364: gridsync in a kernel without DET raises BARRIER_MISUSE; else its thread parks with reason 3 at the next instruction
while its hub's release runs. -/
def Sys2Proof.Claims.GridSyncCompletes : Prop :=
  ∀ (i : Instr) (c : Code) (s : State) (t : Thread) (g : Gang), (∃ o, i = .gridsync o) ∨ (∃ o, i = .gridsyncExt o) →
    i.code = some c → alone s c t = true → s.gangOf t = some g → tackOpenBit t.tackst = false → t.outstanding = false →
    (s.det t.ref.kid = false → exec i s = .next (s.raise t.ref t.pc c { cause := 0x0F })) ∧
    (s.det t.ref.kid = true → exec i s = .next ((s.setThread { t with
      pc := nextPc c t.pc, rel := true, st := .parked 3
      wait := .gridsync (predOf c.fields.d) }).startRelease g.hub (.thread t.ref)))

/-- R162, R218, R358, R364: the collective release, gsync and the grid's synchronization. -/
def Obligations.CollectivesComplete : Prop :=
  Sys2Proof.Claims.CollectiveReleaseRules ∧ Sys2Proof.Claims.GangSyncCompletes ∧ Sys2Proof.Claims.GridSyncCompletes

/-! ## Threads, gangs and teams (R307 to R336) -/

namespace Sys2Proof.Claims

/-- The thread is a child whose join counter has PEND 0 (R326, R366). -/
def endsWrong (s : State) (t : Thread) : Prop :=
  ∃ off x, t.joins = some off ∧ s.teamOf t = some x ∧ natOfBytes (s.winRead (hsAddr x off) 8) % 2 ^ 32 = 0

/-- The gang stands at a place that the hardware has (R9, R12). -/
def placed (g : Gang) : Bool := g.core < 4 && g.quarter < 4 && g.slot < 32 && g.blocks.all (· < 32)

/-- An address in the windows of the registers (R144). -/
def inRegisters (a : Nat) : Bool := a / 2 ^ 28 % 8 == 2 || a / 2 ^ 28 % 8 == 3

end Sys2Proof.Claims

/-- R60, R125, R205, R327: exit drops an open tack window, commits the pending results and ends its thread; with a result still
awaited it parks with reason 1, and with an access not yet performed it stays. sys tkill ends its thread as an abnormal end.
Where the join counter of the thread has PEND 0, its end raises BARRIER_MISUSE and has no other effect (R366). -/
def Sys2Proof.Claims.ThreadEndInstructionsComplete : Prop :=
  ∀ (i : Instr) (c : Code) (s : State) (t : Thread), i.code = some c → alone s c t = true →
    ((∃ o, i = .exit o) ∨ (∃ o, i = .exitExt o) →
      let isOpen := tackOpenBit t.tackst
      let r := if isOpen then s.freeTacks t.ref else s
      let u := if isOpen then { t with tackst := setBits (setBits t.tackst 4 4 0) 0 1 0 } else t
      (t.outstanding = true → exec i s = .next (r.setThread u)) ∧
      (t.outstanding = false → t.allReturned = true → ¬ endsWrong s t →
        exec i s = .next ((r.setThread u.commitAll).endThread u.commitAll false)) ∧
      (t.outstanding = false → t.allReturned = true → endsWrong s t →
        exec i s = .next (s.raise t.ref t.pc c { cause := 0x0F })) ∧
      (t.outstanding = false → t.allReturned = false →
        exec i s = .next (r.setThread { u with st := .parked 1, wait := .exit }))) ∧
    ((∃ o, i = .sysTkill o) ∨ (∃ o, i = .sysTkillExt o) →
      (¬ endsWrong s t → exec i s = .next (s.endThread t true)) ∧
      (endsWrong s t → exec i s = .next (s.raise t.ref t.pc c { cause := 0x0F })))

/-- R326, R327: exit with every access performed and every result returned, and sys tkill, complete: their thread is no thread of
the machine any more, every thread of another team stands as it did, and where the thread has no join counter no byte of
memory changes, nor of the windows but for those of registers. -/
def Sys2Proof.Claims.ThreadsEnd : Prop :=
  ∀ (i : Instr) (c : Code) (s : State) (t : Thread), i.code = some c → alone s c t = true → t.joins = none →
    Memory.wf s.m.win = true → (∀ g, s.gangOf t = some g → placed g = true) → t.ref.lane < 32 →
    ((∃ o, i = .exit o) ∨ (∃ o, i = .exitExt o) → t.outstanding = false ∧ t.allReturned = true) →
    ((∃ o, i = .exit o) ∨ (∃ o, i = .exitExt o) ∨ (∃ o, i = .sysTkill o) ∨ (∃ o, i = .sysTkillExt o)) →
    ∃ u, exec i s = .next u ∧ u.thread? t.ref = none ∧ u.mem = s.mem ∧
      (∀ a, inRegisters a = false → Memory.read u.m.win a = Memory.read s.m.win a) ∧
      ∀ x ∈ s.m.threads, x.ref.teamRef ≠ t.ref.teamRef → x ∈ u.m.threads

/-- R144, R326, R327, R438: a thread that ends is no thread of the machine any more; without a join counter no HBM4 byte changes,
and no window byte but for those of registers: there the values of its own 32 registers stand. That they stay until another
gang takes the place is the model's reading (log entry 100). -/
def Sys2Proof.Claims.EndedThreadIsGone : Prop :=
  ∀ (s : State) (t : Thread) (abnormal : Bool), t.joins = none → Memory.wf s.m.win = true →
    (∀ g, s.gangOf t = some g → placed g = true) → t.ref.lane < 32 →
    let u := s.endThread t abnormal
    u.thread? t.ref = none ∧ u.mem = s.mem ∧
    (∀ a, inRegisters a = false → Memory.read u.m.win a = Memory.read s.m.win a) ∧
    ∀ g n k, s.gangOf t = some g → n < 32 → k < 4 →
      Memory.read u.m.win (threadRegWindow g t.ref.lane n + k) = (t.v.toArray.getD n 0).extractLsb' (8 * k) 8

/-- R326: a child's end lowers PEND by one, and an abnormal one raises ABN, which saturates; PEND 0 is a misuse. -/
def Sys2Proof.Claims.JoinCounterEnd : Prop :=
  ∀ (pend abn : Nat) (abnormal : Bool), pend < 2 ^ 32 → abn < 2 ^ 32 →
    joinEnd (abn * 2 ^ 32 + pend) abnormal =
      if pend = 0 then none
      else some ((if abnormal ∧ abn < 2 ^ 32 - 1 then abn + 1 else abn) * 2 ^ 32 + (pend - 1))

/-- R60, R125, R326, R327: exit, sys tkill and the join counters. -/
def Obligations.ThreadEnd : Prop :=
  Sys2Proof.Claims.ThreadEndInstructionsComplete ∧ Sys2Proof.Claims.ThreadsEnd ∧ Sys2Proof.Claims.EndedThreadIsGone ∧
  Sys2Proof.Claims.JoinCounterEnd

/-- R142, R156, R178, R325: join adds a pending result that returns when PEND reads 0, and is an outstanding read until then; with a
line of the counter absent its thread parks as for a load. While a write of the thread to the scratchpad is on its way,
it waits. The read is one event of the energy estimate (R420). -/
def Sys2Proof.Claims.JoinCompletes : Prop :=
  ∀ (i : Instr) (c : Code) (s : State) (t : Thread) (g : Gang) (x : Team) (a : Nat),
    (∃ o, i = .join o) ∨ (∃ o, i = .joinExt o) → i.code = some c → alone s c t = true → t.pend.length < 8 →
    t.fenced 1 = false → s.gangOf t = some g → s.teamOf t = some x → s.memAddr c t 1 8 = .ok a →
    let n := s.m.nextId
    let u := { t with
      pend := t.pend ++ [({ reg := c.dstReg, count := 1, tok := n, value := none } : Pending)]
      out := t.out ++ [({ tok := n, classes := 1 } : OutOp)] }
    let present := (List.range 8).all fun k => !x.counts.any (·.1 == (a + k) / 128)
    (t.storing = true → exec i s = .next s) ∧
    (t.storing = false → exec i s = .next ((((s.modify fun m => { m with nextId := n + 1 }).updHub g.hub fun h =>
      { h with joins := h.joins ++ [(t.ref, n, hsAddr x a)] }).setThread (if present then u.finish c
        else { u with pc := nextPc c t.pc, st := .parked 2, wait := .present })).activity t.ref.kid 3 1))

namespace Sys2Proof.Claims

/-- The address of the counter that a spawn names, or that it names none; none: an address that R320 refuses. -/
def spawnCount (s : State) (c : Code) (t : Thread) (g : Gang) : Option (Option Nat) :=
  let j := ((s.lane c t).word c.fields.b).toNat
  if j = 0xFFFFFFFF then some none
  else if j + 8 ≤ s.limit t 1 ∧ j % 8 = 0 ∧ s.rangeLocked t g 1 j j 8 true = false then some (some j) else none

end Sys2Proof.Claims

/-- R319 to R321, R33: spawn raises PEND of its counter, where it names one, puts a child with its four argument words into a bin of
its key and goes on with its spawn count raised; in a population kernel it raises POP_MISUSE, with a full counter
BARRIER_MISUSE, and without room in any bin the thread stays. It waits while an access of the thread is not yet performed,
and, with a counter, while a fence holds the counter's update or a write of the thread to the scratchpad is on its way. -/
def Sys2Proof.Claims.SpawnCompletes : Prop :=
  ∀ (o : Ext) (s : State) (t : Thread) (g : Gang) (x : Team),
    let c : Code := .ext 0x6D o
    alone s c t = true → s.gangOf t = some g → s.teamOf t = some x → tackOpenBit t.tackst = false →
    let held := (s.lane c t).word o.b ≠ 0xFFFFFFFF ∧ (t.fenced 3 = true ∨ t.storing = true)
    (held → exec (.spawn o) s = .next s) ∧
    (¬ held → s.pop t.ref.kid = true → exec (.spawn o) s = .next (s.raise t.ref t.pc c { cause := 0x10 })) ∧
    (∀ j, ¬ held → s.pop t.ref.kid = false → spawnCount s c t g = some j → t.outstanding = true →
      exec (.spawn o) s = .next s) ∧
    (∀ j, ¬ held → s.pop t.ref.kid = false → spawnCount s c t g = some j → t.outstanding = false →
      let entry := (t.pc + (o.imm.signExtend 64 <<< 2)) &&& 0x01FFFFFFFFFFFFFF
      let pend := fun (a : Nat) => natOfBytes (s.winRead (hsAddr x a) 4)
      let full := ∃ a, j = some a ∧ pend a = 0xFFFFFFFF
      let r := match j with
        | some a => (s.winWrite (hsAddr x a) (bytesOfNat 4 (pend a + 1))).activity t.ref.kid 3 1
        | none => s
      (full → exec (.spawn o) s = .next (s.raise t.ref t.pc c { cause := 0x0F })) ∧
      (¬ full → (s.hub g.hub).binFor t.ref.teamRef g.role entry = none → exec (.spawn o) s = .next s) ∧
      ∀ n, ¬ full → (s.hub g.hub).binFor t.ref.teamRef g.role entry = some n →
        exec (.spawn o) s = .next ((r.setHub ((s.hub g.hub).enterBin n s.m.cycle t.ref.teamRef g.role entry
          { args := (s.lane c t).opnd 4 o.a, counter := j, halt := none
            lineage := BitVec.ofNat 64 (0xFFFF * 2 ^ 48 + t.grank.toNat % 2 ^ 24 * 2 ^ 24 + t.spawns % 2 ^ 24) })).setThread
          (({ t with spawns := t.spawns + 1 } : Thread).finish c)))

/-- R33, R319 to R321, R325: spawn and join. -/
def Obligations.SpawnAndJoin : Prop :=
  Sys2Proof.Claims.JoinCompletes ∧ Sys2Proof.Claims.SpawnCompletes

/-- R315 to R317: xacq raises EXT_BLOCK in the cases of R316, and else parks its thread with reason 5 in its gang's request; xrel
of a gang without blocks only goes on, and else the thread has issued it, and the blocks are free when all have. -/
def Sys2Proof.Claims.ExtendedBlockInstructionsComplete : Prop :=
  ∀ (i : Instr) (c : Code) (s : State) (t : Thread) (g : Gang), i.code = some c → alone s c t = true →
    s.gangOf t = some g → g.ref = t.ref.gangRef →
    let n := ((s.lane c t).word c.fields.a).toNat
    let wrong := g.blocks ≠ [] ∨ n = 0 ∨ 2 < n ∨ s.budget g < n ∨ (∃ r, g.xacq = some r ∧ r.n ≠ n)
    ((∃ o, i = .xacq o) ∨ (∃ o, i = .xacqExt o) →
      (wrong → exec i s = .next (s.raise t.ref t.pc c { cause := 0x11 })) ∧
      (¬ wrong → exec i s = .next (((s.updGang g.ref fun g =>
        if g.xacq.isSome then g else { g with xacq := some { n := n, complete := false, since := 0, order := 0 } }).setThread
          { t with pc := nextPc c t.pc, xacqIssued := true, st := .parked 5, wait := .xacq }).testRequest g.ref))) ∧
    ((∃ o, i = .xrel o) ∨ (∃ o, i = .xrelExt o) →
      (g.blocks = [] → exec i s = .next (s.setThread (t.finish c))) ∧
      (g.blocks ≠ [] → exec i s = .next ((s.setThread { t.finish c with xrelIssued := true }).testRelease g.ref)))

/-- R334, R336, R340: rsmp in a population kernel of one module presents its weight, target and offset and parks with reason 1, its
result pending and its release to come; elsewhere, in a handler or with extended blocks held it raises POP_MISUSE. -/
def Sys2Proof.Claims.ResampleInstructionCompletes : Prop :=
  ∀ (o : Ext) (s : State) (t : Thread) (g : Gang) (k : Kernel),
    let c : Code := .ext 0x70 o
    alone s c t = true → t.pend.length < 8 → s.gangOf t = some g → s.kernel? t.ref.kid = some k →
    tackOpenBit t.tackst = false →
    let fit := s.pop t.ref.kid = true ∧ k.group.length ≤ 1 ∧ t.nest = 0 ∧ g.blocks = []
    (¬ fit → exec (.rsmp o) s = .next (s.raise t.ref t.pc c { cause := 0x10 })) ∧
    (fit → t.outstanding = false →
      let n := s.m.nextId
      exec (.rsmp o) s = .next ((s.modify fun m => { m with nextId := n + 1 }).setThread { t with
        pc := nextPc c t.pc, rel := true, st := .parked 1, wait := .rsmp
        pend := t.pend ++ [({ reg := c.dstReg, count := 1, tok := n, value := none } : Pending)]
        rsmp := some { pc := t.pc, word0 := c.words.getD 0 0, weight := (s.lane c t).word o.a, target := (s.lane c t).word o.b, offset := (s.lane c t).word o.c,
                       draw := o.sub.getLsbD 0, dst := c.dstReg, tok := n } }))

/-- R315 to R317, R334, R336, R340: xacq, xrel and rsmp. -/
def Obligations.ExtendedBlocksAndResampling : Prop :=
  Sys2Proof.Claims.ExtendedBlockInstructionsComplete ∧ Sys2Proof.Claims.ResampleInstructionCompletes

/-! ## The matrix engine (R233 to R253) -/

namespace Sys2Proof.Claims

/-- The accumulator operations of R250. -/
def engineRule : Instr → Option EngineOp
  | .mzero _ => some .mzero
  | .mld _ => some .mldScratch
  | .mldRegs _ => some .mldRegs
  | .mst _ => some .mstScratch
  | .mstRegs _ => some .mstRegs
  | .mcvt _ => some .mcvt
  | .qblk _ => some .qblk
  | _ => none

end Sys2Proof.Claims

/-- R234: bkdecl declares its buckle with a count and a first rank, or raises BARRIER_MISUSE. -/
def Sys2Proof.Claims.BuckleDeclarationCompletes : Prop :=
  ∀ (o : Ext) (s : State) (t : Thread) (x : Team) (l : LaunchRec),
    let c : Code := .ext 0x74 o
    alone s c t = true → s.teamOf t = some x → s.launch? t.ref.kid = some l →
    let n := o.imm.toNat % 16
    let count := ((s.lane c t).word o.a).toNat
    let first := ((s.lane c t).word o.b).toNat
    let wrong := count = 0 ∨ 64 < count ∨ 32 * l.gangs < first + count ∨ (x.buckle n).st = .signing
    (wrong → exec (.bkdecl o) s = .next (s.raise t.ref t.pc c { cause := 0x0F })) ∧
    (¬ wrong → exec (.bkdecl o) s = .next ((s.updBuckle x.ref n fun b =>
      { b with st := .declared, count := count, first := first, signed := [] }).setThread (t.finish c)))

/-- R236, R239 to R242: an mma whose buckle is not declared, or whose rank is not of its range, raises BARRIER_MISUSE; an
accumulator beyond the team's raises REG_RANGE, a reserved format word FORMAT with reason 1; one that passes every check
signs: its rows are staged and counted, and the signature that reaches the count posts the operation. -/
def Sys2Proof.Claims.MatrixSignatureCompletes : Prop :=
  ∀ (o : Ext) (s : State) (t : Thread) (g : Gang) (x : Team),
    let c : Code := .ext 0x75 o
    alone s c t = true → s.gangOf t = some g → s.teamOf t = some x → t.sfenceWait = none → t.fenced 48 = false →
    let b := x.buckle (o.imm.toNat % 16)
    let w := (s.lane c t).word o.b
    let rank := t.ref.gang * 32 + t.ref.lane
    (x.acc.length ≤ o.imm.toNat / 256 % 64 → exec (.mma o) s = .next (s.raise t.ref t.pc c { cause := 0x03 })) ∧
    (o.imm.toNat / 256 % 64 < x.acc.length →
      (b.st = .undeclared ∨ rank < b.first ∨ b.first + b.count ≤ rank →
        exec (.mma o) s = .next (s.raise t.ref t.pc c { cause := 0x0F })) ∧
      (b.st ≠ .undeclared → b.first ≤ rank → rank < b.first + b.count → rank ∉ b.signed →
        (formatValid w = false → exec (.mma o) s = .next (s.raise t.ref t.pc c
          { cause := 0x09, addr := BitVec.ofNat 64 (2 ^ 32 + w.toNat), detail := 1 })) ∧
        (formatValid w = true → (b.st = .signing → w = b.word ∧ o.sub.toNat = b.sub ∧ o.d.toNat = b.d ∧ o.a.toNat = b.a ∧
            o.imm.toNat / 256 % 65536 = b.imm) →
          ((FormatWord.ofWord w).afmt = 5 →
            (o.sub.getLsbD 0 = false → s.rowBeyond t o.d.toNat = false ∧ t.poisonAt g (o.d.toNat + 16) 16 = none) ∧
            (o.sub.getLsbD 1 = false → s.rowBeyond t o.a.toNat = false ∧ t.poisonAt g (o.a.toNat + 16) 16 = none)) →
          (b.entry.isSome ∨ (s.hub g.hub).reservations.length < 32) →
          (b.signed.length + 1 = b.count → badOperand (g.operandDesc (o.sub.getLsbD 0) o.d) (g.operandDesc (o.sub.getLsbD 1) o.a)
            w (o.imm.toNat / 65536 % 256 + 1) x.hsSize = none) →
          exec (.mma o) s = .next (s.stage c t g x w))))

/-- R251: mzero, mld, mst, mcvt and qblk post one operation for their packet, with a reservation entry of their accumulator: the
thread goes on, its matrix operations outstanding; mcvt and qblk reserve 4096 draws, and mst into registers has 16
registers pending. An accumulator beyond the team's raises REG_RANGE. The reservation count of draws is the reading of a
log entry. -/
def Sys2Proof.Claims.EngineInstructionsComplete : Prop :=
  ∀ (i : Instr) (c : Code) (op : EngineOp) (s : State) (t : Thread) (g : Gang) (x : Team), engineRule i = some op →
    i.code = some c → alone s c t = true → s.gangOf t = some g → s.teamOf t = some x → t.pend.length < 8 →
    t.fenced 48 = false →
    (x.acc.length ≤ c.fields.imm.toNat / 256 % 64 → exec i s = .next (s.raise t.ref t.pc c { cause := 0x03 })) ∧
    (s.engineFault c op t g x (s.engineEntry c op t g [t] s.m.nextId) = none → (s.hub g.hub).reservations.length < 32 →
      (s.hub g.hub).entry? s.m.nextId = none → ∃ s', exec i s = .next s' ∧
        s'.thread? t.ref = some (({ t with
          rngctr := if op = .mcvt ∨ op = .qblk then t.rngctr + 4096 else t.rngctr
          pend := if op = .mstRegs then t.pend ++ [({ reg := c.fields.d.toNat, count := 16, tok := s.m.nextId, value := none } : Pending)]
            else t.pend
          out := t.out ++ (if op = .mldScratch then [({ tok := s.m.nextId + 1, classes := 16 } : OutOp)] else [])
            ++ [({ tok := s.m.nextId + 2, classes := 32 } : OutOp)] } : Thread).finish c) ∧
        (∃ e, (s'.hub g.hub).entry? s.m.nextId = some e ∧ e.posted = true ∧ e.op = op ∧ e.z = c.fields.imm.toNat / 256 % 64) ∧
        s'.mem = s.mem ∧ s'.m.win = s.m.win)

/-- R234, R236, R239 to R242, R251: bkdecl, mma and the engine operations. -/
def Obligations.MatrixInstructionsComplete : Prop :=
  Sys2Proof.Claims.BuckleDeclarationCompletes ∧ Sys2Proof.Claims.MatrixSignatureCompletes ∧
  Sys2Proof.Claims.EngineInstructionsComplete

/-! ## Queues and marks (R286, R287, R419) -/

/-- R287: qpost to a queue that is no ring of its context that takes posts raises PERM with the queue's number; to a ring that is
disabled, resetting, in error or full it writes false; else, where its page is granted, it writes the 64 bytes at the tail,
moves the tail and writes true, and the ring write is an outstanding operation of class I/O until it is performed (R172).
While a write of the thread to the scratchpad is on its way, it waits (R142). -/
def Sys2Proof.Claims.QueuePostCompletes : Prop :=
  ∀ (o : Ext) (s : State) (t : Thread) (x : Team) (a : Nat),
    let c : Code := .ext 0x7B o
    alone s c t = true → s.teamOf t = some x → t.fenced 64 = false → s.memAddr c t 1 64 = .ok a →
    (t.storing = true → exec (.qpost o) s = .next s) ∧
    (t.storing = false →
    let n := ((s.lane c t).word o.b).toNat
    let q := s.queue n
    let tail := (q.tail + 1) % 2 ^ q.ringlog2
    let p := predOf c.fields.d
    let allowed := n ≤ 1023 ∧ q.ctx = s.ctxOf t.ref.kid ∧ q.devpost = true
    let shut := q.st = .disabled ∨ q.st = .resetting ∨ q.st = .error ∨ tail = q.head
    (¬ allowed → exec (.qpost o) s = .next (s.raise t.ref t.pc c { cause := 0x07, addr := BitVec.ofNat 64 n })) ∧
    (allowed → s.winPoisoned (hsAddr x a) 64 = none → shut → exec (.qpost o) s = .next (s.setThread ((t.setPred p false).finish c))) ∧
    (allowed → s.winPoisoned (hsAddr x a) 64 = none → ¬ shut →
      let tok := s.m.nextId
      let r := (s.activity t.ref.kid 3 1).modify fun m => { m with nextId := tok + 1 }
      let w := r.unitWrite q.ctx (q.ringbase.toNat + 64 * q.tail) (s.winRead (hsAddr x a) 64) (.post t.ref tok)
      exec (.qpost o) s = .next (if w.1 then
        (((w.2.updThread t.ref fun t => { t with out := t.out ++ [({ tok := tok, classes := 64 } : OutOp)] }).updQueue n fun q =>
          { q with tail := tail, st := if q.st = .idle then .active else q.st }).writeQueueIndices
          n).updThread t.ref fun t => (t.setPred p true).finish c
        else w.2.updThread t.ref fun t => (t.setPred p false).finish c)))

/-- R414, R419: mark goes on, and leaves one trace record with its operand while a session of its context takes them. -/
def Sys2Proof.Claims.MarkCompletes : Prop :=
  ∀ (i : Instr) (c : Code) (s : State) (t : Thread), (∃ o, i = .mark o) ∨ (∃ o, i = .markExt o) → i.code = some c →
    alone s c t = true →
    let takes := (s.context (s.ctxOf t.ref.kid)).traces.any fun x => x.mask.getLsbD 0
    ∃ r : TraceReq, exec i s = .next ((if takes then s.modify fun m => { m with traces := m.traces ++ [r] } else s).setThread
        (t.finish c)) ∧
      r.src = 1 ∧ r.data0 = (s.lane c t).word c.fields.a ∧ r.pc = addr57 t.pc ∧ r.lineage = t.lineage ∧
      r.ctx = s.ctxOf t.ref.kid ∧ r.gang = t.ref.gang ∧ r.lane = t.ref.lane

/-- R287, R414, R419: qpost and mark. -/
def Obligations.QueuePostAndMark : Prop :=
  Sys2Proof.Claims.QueuePostCompletes ∧ Sys2Proof.Claims.MarkCompletes

/-! ## Taking a trap and returning (R263 to R268, R425) -/

/-- R37, R41, R71, R263: a handled cause in a thread of a context with a handler, its results returned and fewer than three entries open:
the results are committed, the trap registers hold the cause, the pc, the address and the words, the nesting rises by one,
the thread is TRAPPED at the handler, and a record is noted when the context asks for one. -/
def Sys2Proof.Claims.HandlerEntry : Prop :=
  ∀ (s : State) (t : Thread) (pc : Dword) (c : Code) (e : Raise), 1 ≤ e.cause → e.cause ≤ 0x0C →
    s.thread? t.ref = some t →
    let x := s.context (s.ctxOf t.ref.kid)
    x.hen = true → t.allReturned = true → t.nest < 3 →
    let detail := if e.cause = 0x02 then e.badf.toNat else e.detail
    let regs := trapRegs e.cause pc e.addr c e.badf
    regs.cause = BitVec.ofNat 32 e.cause ∧ regs.pc = pc &&& 0x01FFFFFFFFFFFFFF ∧ regs.addr = e.addr &&& 0x01FFFFFFFFFFFFFF ∧
    regs.word0 = c.words.getD 0 0 ∧
    (c.fields.ext = false → regs.word1 = 0 ∧ regs.word2 = 0) ∧
    (c.fields.ext = true → regs.word1 = c.words.getD 1 0 ∧ regs.word2 = c.words.getD 2 0) ∧
    regs.word3 = c.fields.lit.getD 0 ∧
    regs.fld = BitVec.ofNat 64 (c.fields.op.toNat + 2 ^ 7 * c.fields.ext.toNat + 2 ^ 8 * c.fields.sub.toNat + 2 ^ 14 * c.fields.d.toNat +
      2 ^ 22 * c.fields.a.toNat + 2 ^ 30 * c.fields.b.toNat + 2 ^ 38 * c.fields.c.toNat +
      2 ^ 46 * (2 * c.fields.ext.toNat + c.fields.lit.isSome.toNat) + 2 ^ 48 * c.fields.s.toNat + 2 ^ 52 * e.badf.toNat) ∧
    s.raise t.ref pc c e = ((if x.fqh then s.addRecord (s.threadRecord t.commitAll e.cause regs.pc regs.addr false false detail regs.word0)
      else s).setThread { t.commitAll with
        x := regs, nest := t.nest + 1, st := .trapped, inHandler := true, wait := .none, pc := x.handler })

/-- R61, R263, R270: with a result still awaited the thread parks until it returns; the cycle of the cause is kept for the record. -/
def Sys2Proof.Claims.HandlerEntryAwaitsResults : Prop :=
  ∀ (s : State) (t : Thread) (pc : Dword) (c : Code) (e : Raise), 1 ≤ e.cause → e.cause ≤ 0x0C →
    s.thread? t.ref = some t → (s.context (s.ctxOf t.ref.kid)).hen = true → t.allReturned = false →
    s.raise t.ref pc c e = s.setThread { t with
      st := .parked 1
      wait := .trap (trapRegs e.cause pc e.addr c e.badf) (if e.cause = 0x02 then e.badf.toNat else e.detail) s.m.cycle }

/-- R61, R71, R263: what taking an exception saves and where it goes. -/
def Obligations.TrapEntry : Prop :=
  Sys2Proof.Claims.HandlerEntry ∧ Sys2Proof.Claims.HandlerEntryAwaitsResults

/-- R263 to R265: without a handler, on a fourth entry, and for a cause that is not handled, the cause is fatal: no thread, gang
or place of the team stays, one fatal record is noted, the kernel is faulted, and memory keeps every byte. -/
def Obligations.FatalCauseEndsTeam : Prop :=
  ∀ (s : State) (t : Thread) (pc : Dword) (c : Code) (e : Raise) (k : Kernel), s.thread? t.ref = some t →
    s.kernel? t.ref.kid = some k →
    (Cause.handled e.cause = false ∨ (s.context (s.ctxOf t.ref.kid)).hen = false ∨ (t.allReturned = true ∧ t.nest = 3)) →
    let s' := s.raise t.ref pc c e
    (∀ u ∈ s'.m.threads, u.ref.teamRef ≠ t.ref.teamRef) ∧ (∀ g ∈ s'.m.gangs, g.ref.teamRef ≠ t.ref.teamRef) ∧
    s'.team? t.ref.teamRef = none ∧ (∃ r, s'.m.records = s.m.records ++ [r] ∧ r.fatal = true ∧ r.lane = t.ref.lane) ∧
    (∃ k', s'.kernel? t.ref.kid = some k' ∧ k'.faulted = true) ∧ s'.mem = s.mem ∧ s'.m.win = s.m.win

/-- R267, R268: sys trap raises SOFT at the next instruction's address with its operand as the address; sys tret outside a handler
raises ILLEGAL_FIELD with BADF 4, with an xpc that is no multiple of 4 ALIGN, and else commits and returns to xpc, READY with
nest 0; sys halt halts its thread at the next instruction under a session, which is told, and is a marker otherwise; the bytes of the
packet that tells it are the model's (log entry 13). -/
def Sys2Proof.Claims.SystemInstructionsComplete : Prop :=
  ∀ (i : Instr) (c : Code) (s : State) (t : Thread), i.code = some c → alone s c t = true →
    ((∃ o, i = .sysTrap o) ∨ (∃ o, i = .sysTrapExt o) → exec i s = .next (s.raise t.ref (nextPc c t.pc) c
      { cause := 0x0B, addr := ((s.lane c t).word c.fields.b).zeroExtend 64 })) ∧
    ((∃ o, i = .sysTret o) ∨ (∃ o, i = .sysTretExt o) →
      (t.nest = 0 → exec i s = .next (s.raise t.ref t.pc c { cause := 0x02, badf := 4 })) ∧
      (t.nest ≠ 0 → t.x.pc.toNat % 4 ≠ 0 → exec i s = .next (s.raise t.ref t.pc c
        { cause := 0x05, addr := t.x.pc &&& 0x01FFFFFFFFFFFFFF })) ∧
      (t.nest ≠ 0 → t.x.pc.toNat % 4 = 0 → t.allReturned = true → exec i s = .next (s.setThread { t.commitAll with
        pc := t.x.pc &&& 0x01FFFFFFFFFFFFFF, nest := 0, st := .ready, inHandler := false, wait := .none })) ∧
      (t.nest ≠ 0 → t.x.pc.toNat % 4 = 0 → t.allReturned = false → exec i s = .next (s.setThread
        { t with st := .parked 1, wait := .tret }))) ∧
    ((∃ o, i = .sysHalt o) ∨ (∃ o, i = .sysHaltExt o) →
      let x := s.context (s.ctxOf t.ref.kid)
      exec i s = .next (if x.session ∧ x.dbg then (s.setThread { t.finish c with halt := some .sysHalt }).emit 0
          (packet Packet.halted 0 (nextPc c t.pc).toNat
            (bytesOfNat 4 t.ref.kid ++ bytesOfNat 4 t.ref.team ++ bytesOfNat 2 t.ref.gang ++ bytesOfNat 1 t.ref.lane))
        else s.setThread ({ t with pc := nextPc c t.pc } : Thread).marker))

/-- R425, R39: sys cad in a context without privilege raises PRIV, and nothing else changes; with privilege it sets the request of
its quarter to k held between 1 and 16, and the quarter's grant follows. -/
def Sys2Proof.Claims.CadenceRequestCompletes : Prop :=
  ∀ (i : Instr) (c : Code) (s : State) (t : Thread) (g : Gang), (∃ o, i = .sysCad o) ∨ (∃ o, i = .sysCadExt o) →
    i.code = some c → alone s c t = true → s.gangOf t = some g →
    let q : QRef := { hub := g.hub, core := g.core, quarter := g.quarter }
    let k := ((s.lane c t).word c.fields.b).toNat
    exec i s = .next (if (s.context (s.ctxOf t.ref.kid)).priv then
        ((s.updQuarter q fun x => { x with request := if k = 0 then 1 else if 16 < k then 16 else k,
                                           requestBy := some t.ref.kid }).regrant q).setThread (t.finish c)
      else s.raise t.ref t.pc c { cause := 0x04 })

/-- R39, R127, R267, R268, R276, R425: brk and sys. -/
def Obligations.BreakAndSystemCall : Prop :=
  Sys2Proof.Claims.BreakCompletes ∧ Sys2Proof.Claims.SystemInstructionsComplete ∧
  Sys2Proof.Claims.CadenceRequestCompletes

/-! ## Events: reset, the stamp log, the freeze -/

/-- R20, R396, R398, R428, R429, R460: POWER_ON leaves the machine as after reset, with what waits at the pins; MODULE_RESET
leaves an idle module in cycle 0 with the next layout, the stamp log, the images and what stands at the pins kept, and its
ports training, or halted at the first image whose key does not hash to the boot ROM's value or whose signature does not
verify; reset asserted holds the module in that state without a port. An attestation report is the digest of each image, the
fuse maps, the coefficients, the layout and the nonce, and a signature of its digest with the identity key, at an open salt;
its layout is the model's (log entry 132). A refresh tick changes nothing. -/
def Sys2Proof.Claims.ResetEvents : Prop :=
  ∀ s : State,
    let bad := Config.firmware.findIdx? fun f => !(sha256 (keyBytes f.keyN f.keyE) == Config.vendorHash
      && f.digest == sha256 f.body && signatureHolds f.keyN f.keyE f.digest f.signature)
    let nonce := s.m.ev.item.payload.take 32
    let body := Config.firmware.flatMap (fun f => sha256 f.body)
      ++ (List.range 8).flatMap (fun d => bytesOfNat 8 ((dieHubs d).map (2 ^ ·)).sum)
      ++ Config.coefficients.toList.flatMap bytesOfWord ++ s.m.layout.map (BitVec.ofNat 8 ·) ++ nonce
    exec .powerOn s = .next { State.reset with inbox := s.inbox, outbox := s.outbox } ∧
    (∃ t, exec .moduleReset s = .next t ∧
      t.m = (if s.m.ev.flag then { Module.fresh s.m.nextLayout with agenda := [], bringUp := 3 } else match bad with
        | some k => { Module.fresh s.m.nextLayout with agenda := [], bringUp := 2, failing := k }
        | none => { Module.fresh s.m.nextLayout with
            agenda := [], bringUp := 1, links := (List.range 45).map fun n => { LinkPort.fresh n with st := 1 } }) ∧
      t.slog = s.slog ∧ t.images = s.images ∧ t.inbox = s.inbox ∧ t.outbox = s.outbox ∧ t.modnum = 0 ∧ t.routes = [] ∧
      t.hcnt = [] ∧ t.nonce = [] ∧ t.report = [] ∧ t.frozen = false ∧ t.mgmt.stopcyc = BitVec.allOnes 64 ∧ t.mgmt.frzst = 0 ∧
      t.mgmt.imgbase = s.mgmt.imgbase ∧ t.mgmt.elogbase = s.mgmt.elogbase ∧
      (s.m.l2 = [] → t.mem = s.mem ∧ t.memPoison = s.memPoison)) ∧
    (∃ (salt : List Byte) (u : State), salt.length = 32 ∧ u.m.threads = s.m.threads ∧ u.mem = s.mem ∧
      exec .attestationReport s = .next { u with
        nonce := nonce, report := body ++ pssSigned Config.identityN Config.identityD (sha256 body) salt }) ∧
    exec .dramRefresh s = .next s

/-- R398, R399: the modes of the stamp log take HORIZON to all ones, RECORD empties the ring, OVF is cleared; a replay takes the
item at SLOGHEAD when its cycle has come, moves past its records, and its rows come next. -/
def Sys2Proof.Claims.StampLogEvents : Prop :=
  ∀ s : State,
    let ones : Dword := BitVec.allOnes 64
    exec .slogModeOff s = .next { s with slog := { s.slog with mode := 0, horizon := ones } } ∧
    exec .slogModeRecord s = .next { s with slog := { s.slog with mode := 1, horizon := ones, tail := s.slog.head } } ∧
    exec .slogModeReplay s = .next { s with slog := { s.slog with mode := 2, horizon := ones } } ∧
    exec .slogOvfClear s = .next { s with slog := { s.slog with ovf := false } } ∧
    (s.injectDue s.slog.head = false → exec .replayInject s = .next s) ∧
    (s.slog.mode = 2 → s.slog.head ≠ s.slog.tail → (s.loggedItem s.slog.head).2.2 ≤ s.m.cycle →
      let x := s.loggedItem s.slog.head
      let t := { s with slog := { s.slog with head := s.slog.head + BitVec.ofNat 64 x.2.1 } }
      exec .replayInject s = .next (t.modify fun m => { m with agenda := t.itemRows x.1 ++ m.agenda }))

/-- R178, R403 to R407, R417: STOPCYC takes the bytes written, and one at or below the cycle stops it; FREEZE freezes and tells
every spoke port that is UP to pause; the commands of FRZCTL are refused with ERR 3 outside FROZEN, a scan into too small a
region with ERR 1, a restart with ERR 4 from an image whose MAGIC, VERSION or a sum does not hold or whose sections hold no
state, and with ERR 2 by its fuses; a scan stands its image at IMGBASE, with the HBM4 bytes and their poison when MEMIMG is
set; a restart restores what the image holds, with CYCLE and MEMIMG of the header; the rings of the two logs stand and, where
MEMIMG is clear, HBM4 stands, and the lines that the slices hold of either take its bytes (log entry 40); a resume runs the next cycle with every sampling period
4,096. The layout of the sections is the model's (log entry 113). -/
def Sys2Proof.Claims.FreezeEvents : Prop :=
  ∀ s : State,
    let refused := fun (e : Nat) => ({ s with mgmt := { s.mgmt with frzerr := e } } : State)
    let high := s.m.ev.addr.toNat % 8 = 4
    let stop := setHalf s.mgmt.stopcyc high (mergeWord (halfOf s.mgmt.stopcyc high) (lowHalf s.m.ev.x) s.m.ev.size)
    let field := fun (at_ n : Nat) => fieldAt (s.homeRead (s.mgmt.imgbase.toNat + at_) n) 0 n
    let section_ := fun (k : Nat) => s.homeRead (s.mgmt.imgbase.toNat + field (0x60 + 32 * k) 8) (field (0x68 + 32 * k) 8)
    let whole := field 0 4 = 0x49524C42 ∧ field 4 4 = 1 ∧
      (∀ k < field 0x54 4, field (0x70 + 32 * k) 8 = (wordSum (section_ k)).toNat) ∧ s.image? ≠ none
    let fuses := ∀ d < 8, field (16 + 8 * d) 8 = ((dieHubs d).map (2 ^ ·)).sum
    let byteOf := fun (l : L2Line) (k i : Nat) => (l.sectors.toArray.getD k 0).extractLsb' (8 * i) 8
    let settled := s.unitPending = [] ∧ ∀ l ∈ s.m.l2, ∀ k < 4, l.home = true → s.inLogs (l.pa + 32 * k) = false
    exec .stopcycWrite s = .next { s with mgmt := { s.mgmt with
      stopcyc := stop, stopnow := decide (s.frozen = false ∧ stop ≤ BitVec.ofNat 64 s.m.cycle) } } ∧
    exec .freeze s = .next { s with
      frozen := true, mgmt := { s.mgmt with frzst := 1, stopnow := false }
      outbox := s.outbox ++ (s.m.links.filter fun l => decide (1 ≤ l.num ∧ l.num ≤ 36 ∧ l.st = 2)).map fun l =>
        { port := l.num, cycle := s.m.cycle, bytes := packet Packet.pause 0 0 [1] } } ∧
    (s.mgmt.frzst ≠ 1 → exec .resume s = .next (refused 3) ∧ exec .scan s = .next (refused 3) ∧
      exec .restart s = .next (refused 3) ∧ exec .clean s = .next (refused 3)) ∧
    (s.mgmt.frzst = 1 →
      (∃ t, exec .resume s = .next t ∧ t.frozen = false ∧ t.mgmt = { s.mgmt with frzst := 0 } ∧ t.mem = s.mem ∧
        t.m = { s.m with cycle := s.m.cycle + 1, phase := 0, agenda := [], before := [], ticked := [], registered := false
                         hubs := s.m.hubs.map fun h =>
                           { h with samplePeriod := 4096, locks := h.locks.filter (·.ended.isNone) } }) ∧
      exec .scan s = .next (if s.mgmt.imgsize.toNat < imageSize s.mgmt.memimg then refused 1
        else { s with mgmt := { s.mgmt with frzst := 2 } }) ∧
      (¬ whole → exec .restart s = .next (refused 4)) ∧
      (whole → ¬ fuses → exec .restart s = .next (refused 2)) ∧
      (whole → fuses → exec .restart s = .next { s with mgmt := { s.mgmt with frzst := 3 } }) ∧
      (s.kernelRuns = true → exec .clean s = .next (refused 3)) ∧
      (s.kernelRuns = false → ∃ t, exec .clean s = .next t ∧ t.m.l2 = [] ∧
        ∀ h ∈ t.m.hubs, h.l1 = [] ∧ h.operands = [] ∧ h.tlb2 = [] ∧ h.merges = [] ∧ h.cd = 0 ∧ h.cm = 0 ∧ h.og = 0)) ∧
    (s.mgmt.frzst = 2 → ∃ t x, exec .scanDone s = .next t ∧ t.images = x :: s.images ∧
      x.base = s.mgmt.imgbase ∧ x.module = s.m ∧ x.held = s.heldItems ∧
      x.memory = (if s.mgmt.memimg then some (hbmCells s.mem true) else none) ∧
      x.poison = (if s.mgmt.memimg then s.memPoison.filter (· < hbmSize) else []) ∧
      t.mgmt = { s.mgmt with frzst := 1, imgused := BitVec.ofNat 64 (imageSize s.mgmt.memimg) } ∧
      t.m.cycle = s.m.cycle ∧ t.m.threads = s.m.threads) ∧
    (∀ x, s.mgmt.frzst = 3 → s.image? = some x → ∃ t, exec .restartDone s = .next t ∧
      t.m = { x.module with cycle := field 8 8, l2 := t.m.l2 } ∧ t.inbox = x.held ++ s.inbox.filter (fun i => s.m.cycle < i.at_ || i.other.isSome) ∧
      t.mgmt = { s.mgmt with frzst := 1 } ∧ t.hcnt = s.hcnt ∧ t.images = s.images ∧ t.slog = s.slog ∧
      t.m.l2.map (·.pa) = x.module.l2.map (·.pa) ∧ t.m.l2.map (·.tag) = x.module.l2.map (·.tag) ∧
      (field 0x58 1 % 2 = 1 → ∀ h, x.memory = some h →
        (settled → t.mem = h ++ hbmCells s.mem false ∧ t.memPoison = x.poison ++ s.memPoison.filter (hbmSize ≤ ·) ∧
          ∀ l ∈ t.m.l2, ∀ k < 4, hbmSize ≤ l.pa → s.inLogs (l.pa + 32 * k) = true → ∀ i < 32, byteOf l k i = Memory.read s.mem (l.pa + 32 * k + i)) ∧
        ∀ l ∈ x.module.l2, (∀ k < 4, hbmSize ≤ l.pa → s.inLogs (l.pa + 32 * k) = false) → l ∈ t.m.l2) ∧
      (field 0x58 1 % 2 ≠ 1 → settled → (∀ l ∈ s.m.l2, l.home = false ∨ hbmSize ≤ l.pa) →
        t.mem = s.mem ∧ t.memPoison = s.memPoison) ∧
      (field 0x58 1 % 2 ≠ 1 → ∀ l ∈ t.m.l2, ∀ k < 4, l.pa < hbmSize ∨ s.inLogs (l.pa + 32 * k) = true →
        ∀ i < 32, byteOf l k i = Memory.read t.mem (l.pa + 32 * k + i))) ∧
    (s.mgmt.frzst = 3 → s.image? = none → exec .restartDone s = .next { s with mgmt := { s.mgmt with frzst := 1 } })

/-- R398, R399, R403 to R407, R417: the stamp log and the freeze. -/
def Obligations.StampLogAndFreeze : Prop :=
  Sys2Proof.Claims.StampLogEvents ∧ Sys2Proof.Claims.FreezeEvents

/-! ## Events: links, the fabric, Ethernet, alignment -/

namespace Sys2Proof.Claims

/-- Port p of the links is changed by f, and nothing else is. -/
def withLink (s : State) (p : Nat) (f : LinkPort → LinkPort) : State :=
  s.modify fun m => { m with links := m.links.map fun l => if l.num == p then f l else l }

/-- A packet that no request of the module needed: nothing ends with it when it is dropped. -/
def unowned (a : Arrival) : Prop := a.desc = 0

end Sys2Proof.Claims

/-- R393, R394, R399: the state changes of a link port: DISABLED to TRAINING, UP or DOWN to TRAINING, to DISABLED, TRAINING to UP with
the width and rate of the item, UP to DOWN; in REPLAY an item takes LINKST wholly. The ones written clear ERRCNT; a retry
counts, and 255 of them within 2^20 cycles send an UP port's own DOWN to the gate; in REPLAY a retry leaves ERRCNT; a pause of the partner. A port that
is disabled drops the packets it holds, and a port that comes to send sends them, the oldest first. -/
def Sys2Proof.Claims.LinkEvents : Prop :=
  ∀ s : State,
    let p := s.m.ev.port
    let w := lowHalf s.m.ev.item.desc
    let new := w.toNat / 4 % 4
    let trained := withLink s p fun l =>
      if s.slog.mode = 2 then
        { l with st := new, width := w.toNat / 65536 % 32, rate := w.toNat / 256 % 16, errcnt := w.toNat / 2 ^ 24 }
      else if new = 2 ∧ l.st = 1 then { l with st := 2, width := w.toNat / 65536 % 32, rate := w.toNat / 256 % 16 }
      else if new ≠ 2 ∧ l.st = 2 then { l with st := 3 } else l
    let paused := withLink s p fun l => { l with paused := s.m.ev.flag }
    let counted := withLink s p fun l =>
      { l with errcnt := if s.slog.mode = 2 then l.errcnt else Nat.min (l.errcnt + 1) 255, retries := s.m.cycle :: l.retries.filter fun c => s.m.cycle < c + 2 ^ 20 }
    exec .linkEnable s = .next (withLink s p fun l => if l.st = 0 then { l with st := 1 } else l) ∧
    exec .linkRetrain s = .next (withLink s p fun l => if l.st = 2 ∨ l.st = 3 then { l with st := 1 } else l) ∧
    exec .lossOfLock s = .next trained ∧
    exec .linkErrcntClear s = .next (withLink s p fun l =>
      { l with errcnt := (BitVec.ofNat 8 l.errcnt &&& ~~~(s.m.ev.x.extractLsb' 24 8)).toNat }) ∧
    exec .linkDisable s = .next ((withLink s p fun l => { l with st := 0 }).dropHeld p) ∧
    (∀ l, s.link? p = some l → (∀ a ∈ l.held, unowned a) →
      exec .linkDisable s = .next (withLink s p fun l => { l with st := 0, held := [] })) ∧
    exec .trainingComplete s = .next (trained.sendHeld p) ∧ exec .spokePortPause s = .next (paused.sendHeld p) ∧
    (∀ u ∈ [trained, paused], ∀ l, u.link? p = some l →
      (l.sends = true → (∀ a ∈ l.held, ∀ r ∈ s.m.remote, r.id ≠ a.desc.toNat) → u.sendHeld p = l.held.foldl (fun v a => v.transmit p a.payload) (withLink u p fun l => { l with held := [] })) ∧
      (l.sends = false → u.sendHeld p = u)) ∧
    (∀ l, counted.link? p = some l →
      (l.st ≠ 2 ∨ l.retries.length < 255 → exec .linkLevelRetry s = .next counted) ∧
      (l.st = 2 → 255 ≤ l.retries.length → ∃ it, it.port = p ∧ it.kind = 8 ∧ it.payload = [] ∧
        it.desc = ({ l with st := 3 } : LinkPort).word.zeroExtend 64 ∧
        exec .linkLevelRetry s = .next { counted with
          inbox := s.inbox ++ [({ at_ := s.m.cycle, item := it, other := none } : InboxItem)] }))

namespace Sys2Proof.Claims

/-- An Ethernet port is changed by f, and nothing else is. -/
def withEth (s : State) (p : Nat) (f : EthPort → EthPort) : State :=
  s.modify fun m => { m with eth := m.eth.map fun e => if e.num == p then f e else e }

end Sys2Proof.Claims

/-- R395: a frame that is dropped is counted, and RXDROP saturates; one that is taken moves RXTAIL on by one slot; TXTAIL takes a
written slot number, and a port that is not sending starts; a frame that is due leaves and TXHEAD moves on. -/
def Sys2Proof.Claims.EthernetEvents : Prop :=
  ∀ s : State,
    let it := s.m.ev.item
    let p := s.m.ev.port
    (s.frameDropped it = true →
      exec .ethernetFrameReceive s = .next (withEth s it.port fun e => { e with rxdrop := Nat.min (e.rxdrop + 1) 255 })) ∧
    (∀ e, s.frameDropped it = false → s.m.eth.find? (·.num == it.port) = some e →
      ∃ u, (s.unitWrite e.owner (ethSlot e.rxbase e.rxtail) (frameSlot it.payload)).2 = u ∧
        exec .ethernetFrameReceive s = .next (withEth u it.port fun e => { e with rxtail := (e.rxtail + 1) % 2 ^ e.rxlog2 })) ∧
    exec .ethernetTxtailWrite s = .next (withEth s p fun e =>
      let t := (mergeWord (BitVec.ofNat 32 e.txtail) (lowHalf s.m.ev.x) s.m.ev.size).toNat
      if 2 ^ e.txlog2 ≤ t then e
      else if e.sendAt.isSome then { e with txtail := t } else ({ e with txtail := t } : EthPort).start s.m.cycle) ∧
    (∀ e, s.m.eth.find? (·.num == p) = some e → s.frameDue e = false → exec .ethernetFrameSent s = .next s) ∧
    (∀ e, s.m.eth.find? (·.num == p) = some e → s.frameDue e = true →
      ∃ u, u.m.eth = s.m.eth ∧ u.mem = s.mem ∧ exec .ethernetFrameSent s = .next (withEth u p fun e =>
        ({ e with txhead := (e.txhead + 1) % 2 ^ e.txlog2 } : EthPort).start s.m.cycle))

/-- R400: a module that is its own reference has no offset; another sends its cycle count, and from the answer takes DOMOFS and
DOMDLY, each a half of a sum of differences mod 2^64, by floor; it answers a request with the cycle of the stamp. That the
answer leaves in that cycle is a choice of the model (log entry 17). -/
def Sys2Proof.Claims.AlignmentEvents : Prop :=
  ∀ s : State,
    let now : Dword := BitVec.ofNat 64 s.m.cycle
    (s.m.refmod = s.modnum → exec .alignmentRequestSend s = .next (s.modify fun m => { m with domofs := 0, domdly := 0 })) ∧
    (s.m.refmod ≠ s.modnum → s.route s.m.refmod ≠ 0 → exec .alignmentRequestSend s = .next
      ((s.modify fun m => { m with alignSent := some now }).emit (s.route s.m.refmod)
        (packet Packet.alignRequest 0 0 (bytesOfDword now)))) ∧
    (s.route (fabricSource s.m.ev.item) ≠ 0 → exec .alignmentRequestReceive s = .next
      (s.emit (s.route (fabricSource s.m.ev.item)) (packet Packet.alignAnswer 0 0 (bytesOfDword now ++ bytesOfDword now)))) ∧
    (∀ t1, s.m.alignSent = some t1 →
      let t2 := dwordField (s.m.ev.item.payload.drop 16) 0
      let t3 := dwordField (s.m.ev.item.payload.drop 16) 8
      exec .alignmentAnswer s = .next (s.modify fun m => { m with
        domofs := BitVec.ofInt 64 (((t2 - t1).toInt - (now - t3).toInt) / 2)
        domdly := BitVec.ofInt 64 (((t2 - t1).toInt + (now - t3).toInt) / 2)
        alignSent := none })) ∧
    (s.m.alignSent = none → exec .alignmentAnswer s = .next s)

/-- R393 to R395, R399, R400: the fabric's ports, Ethernet and the alignment. -/
def Obligations.PortsAndAlignment : Prop :=
  Sys2Proof.Claims.LinkEvents ∧ Sys2Proof.Claims.EthernetEvents ∧ Sys2Proof.Claims.AlignmentEvents

/-! ## Events: the host port and the registers -/

namespace Sys2Proof.Claims

/-- A request of a port, with the next number. -/
def portAsked (s : State) (port pa n : Nat) (op : HomeOp) (back : Back) (rmt : Bool) : HomeReq :=
  { id := s.m.nextId, link := if port ≤ 18 then 8 else 9, hub := if port = 0 then 256 else if port ≤ 18 then 257 else 258
    pa := pa, size := n, op := op, back := back, rmt := rmt, replica := none }

/-- The machine after a request of a port has begun its way to the home of an address of this module. -/
def portAsks (s : State) (port pa n : Nat) (op : HomeOp) (back : Back) (rmt : Bool := false) : State :=
  (s.modify fun m => { m with nextId := m.nextId + 1 }).send .toHome (.home (portAsked s port pa n op back rmt))

/-- The machine after a request of a port has begun its way to another module. -/
def portAsksModule (s : State) (k port pa n : Nat) (op : HomeOp) (back : Back) : State :=
  (s.modify fun m => { m with nextId := m.nextId + 1 }).sendHome (.module k) (portAsked s port pa n op back false)

end Sys2Proof.Claims

/-- R389, R391, R397: a read of more than 4,096 bytes is answered Unsupported Request; else one
answers at once from the registers of BAR0, at most 512 bytes in a completion, and its doorbell pages with open bytes; a read
of memory travels to its home line by line with its tag, or to the module that owns it, and a write sector by sector; an
AtomicOp travels with FetchAdd, Swap or CAS, and one that is misaligned, of another size or another operation is answered
Unsupported Request;
so is an address outside every window, where a write has no effect. A read of the stamp log registers counts in no sum of
the run. The payload's layout and the operation codes of an AtomicOp are the model's (log entry 13). -/
def Sys2Proof.Claims.HostItems : Prop :=
  ∀ (s : State),
    let it := s.m.ev.item
    let a := it.desc.toNat
    let n := requestLength it
    let tag := requestTag it
    let there := (s.busPa? a).map s.classifyPa
    let outside := inWindow s.m.bar0 65536 a = false ∧ inWindow s.m.bar2 (2 ^ 22) a = false
    let code := requestAtomic it
    let operand := fun (at_ : Nat) => BitVec.ofNat 64 (fieldAt it.payload at_ n)
    let op := HomeOp.atomic (if code = 1 then 0 else if code = 2 then 7 else 8) (if n = 8 then Ty.n64 else Ty.n32)
      (if code = 3 then operand (8 + n) else operand 8) (operand 8) .rne
    let bytes := fun (pa : Nat) => (List.range it.payload.length).map fun i => (pa + i, it.payload.getD i 0)
    let parts := fun (bs : List Byte) => (List.range (Nat.max 1 ((bs.length + 511) / 512))).map fun i =>
      completion tag 0 ((bs.drop (512 * i)).take 512)
    let regs := s.barBytes (a - s.m.bar0.toNat) n
    (4096 < n → exec .hostReadRequest s = .next (s.emit it.port (completion tag 1 []))) ∧
    (n ≤ 4096 → inWindow s.m.bar0 65536 a = true → s.slogAccess it = false →
      exec .hostReadRequest s = .next ((parts regs).foldl (fun u bs => u.emit it.port bs) s)) ∧
    (n ≤ 512 → inWindow s.m.bar0 65536 a = true → s.slogAccess it = false →
      exec .hostReadRequest s = .next (s.emit it.port (completion tag 0 regs))) ∧
    (n ≤ 4096 → inWindow s.m.bar0 65536 a = true → s.slogAccess it = true → exec .hostReadRequest s = .next { s with
      outbox := s.outbox ++ (parts regs).map fun bs => { port := it.port, cycle := s.m.cycle, bytes := bs } }) ∧
    (n ≤ 4096 → inWindow s.m.bar0 65536 a = false → inWindow s.m.bar2 (2 ^ 22) a = true →
      exec .hostReadRequest s = .next ((parts (s.freeBytes n).1).foldl (fun u bs => u.emit it.port bs) (s.freeBytes n).2)) ∧
    (∀ pa, n ≤ 4096 → outside → there = some (.here, pa) → exec .hostReadRequest s = .next
      ((lineParts pa n).foldl (fun u p => portAsks u it.port p.1 p.2 .read (.host tag)) s)) ∧
    (∀ pa, outside → there = some (.here, pa) → 1 ≤ n → pa % 128 + n ≤ 128 →
      exec .hostReadRequest s = .next (portAsks s it.port pa n .read (.host tag))) ∧
    (∀ k pa, n ≤ 4096 → outside → there = some (.module k, pa) → exec .hostReadRequest s = .next
      ((lineParts pa n).foldl (fun u p => portAsksModule u k it.port p.1 p.2 .read (.host tag)) s)) ∧
    (outside → (s.busPa? a = none ∨ ∃ pa, there = some (.host, pa)) →
      exec .hostReadRequest s = .next (s.emit it.port (completion tag 1 []))) ∧
    (∀ pa, there = some (.here, pa) → 1 ≤ code → code ≤ 3 → n = 4 ∨ n = 8 → a % n = 0 →
      exec .hostAtomicop s = .next (portAsks s it.port pa n op (.host tag))) ∧
    (∀ k pa, there = some (.module k, pa) → 1 ≤ code → code ≤ 3 → n = 4 ∨ n = 8 → a % n = 0 →
      exec .hostAtomicop s = .next (portAsksModule s k it.port pa n op (.host tag))) ∧
    ((s.busPa? a = none ∨ (∃ pa, there = some (.host, pa)) ∨ (n ≠ 4 ∧ n ≠ 8) ∨ a % n ≠ 0 ∨ code = 0 ∨ 3 < code) →
      exec .hostAtomicop s = .next (s.emit it.port (completion tag 1 []))) ∧
    ((s.busPa? a = none ∨ ∃ pa, there = some (.host, pa)) → exec .hostMemoryWrite s = .next s) ∧
    (∀ pa, there = some (.here, pa) →
      exec .hostMemoryWrite s = .next ((s.noteFlags (bytes pa)).portWrite it.port pa (bytes pa) .none)) ∧
    (∀ pa, there = some (.here, pa) → 1 ≤ it.payload.length → pa % 32 + it.payload.length ≤ 32 →
      exec .hostMemoryWrite s = .next
        (portAsks (s.noteFlags (bytes pa)) it.port (pa / 32 * 32) 32 (.write (bytes pa) none false) .none)) ∧
    (∀ k pa, there = some (.module k, pa) → exec .hostMemoryWrite s = .next
      (if s.route k = 0 then s else s.emit (s.route k) (writePacket pa it.payload)))

/-- R163, R193, R194, R226, R389, R393, R397: an answer goes to the request it names, which leaves the list, and one that names
none has no effect; a tag of the host is free again with its answer; a request of another module travels to its home here,
its write sector by sector with the version and poison it carries, its tack check at once, and the answer to a tack check to
the entry that waits, with the tack replies of its cycle (R35). The packets' layout is the model's (log entry 13). -/
def Sys2Proof.Claims.AnswersAndFabricPackets : Prop :=
  ∀ (s : State),
    let it := s.m.ev.item
    let id := fieldAt it.payload 4 4
    let pa := fieldAt it.payload 8 8
    let body := it.payload.drop 16
    let src := it.desc.toNat % 2048
    let cls := it.desc.toNat / 65536 % 65536
    let fails := decide (it.desc.toNat / 1024 % 8 ≠ 0)
    let without := fun (u : State) (r : HomeReq) => u.modify fun m => { m with remote := m.remote.filter (·.id != r.id) }
    (∀ x r, s.m.hostTags.find? (fun x => x.1 == it.desc.toNat % 1024) = some x →
      (s.hostDone x.2).m.remote.find? (·.id == x.2) = some r →
      exec .hostCompletion s = .next ((without (s.hostDone x.2) r).remoteAnswered r { value := it.payload } fails)) ∧
    (s.m.hostTags.find? (fun x => x.1 == it.desc.toNat % 1024) = none → exec .hostCompletion s = .next s) ∧
    (cls = 0 → exec .fabricPacket s = .next (portAsks s it.port (pa / 128 * 128) 128 .line (.fabric src id))) ∧
    (cls = 1 → exec .fabricPacket s = .next
      (portAsks s it.port pa (fieldAt body 0 2) .read (.fabric src id) (body.getD 2 0 == 1))) ∧
    (cls = 2 → exec .fabricPacket s = .next
      (s.portWrite it.port pa (writtenBytes pa (body.drop 4)) (.fabric src id) (versionIn body) (body.getD 3 0 == 1))) ∧
    (cls = 3 → exec .fabricPacket s = .next (portAsks s it.port pa (fieldAt body 2 1)
      (.atomic (fieldAt body 0 1) (fieldAt body 1 1) (dwordField body 4) (dwordField body 12)
        (Rnd.ofFmode (BitVec.ofNat 3 (fieldAt body 3 1)))) (.fabric src id) (body.getD 20 0 == 1))) ∧
    (cls = 4 ∨ cls = 5 → ∀ r, s.m.remote.find? (·.id == id) = some r → exec .fabricPacket s = .next
      ((without s r).remoteAnswered r (answerOf r body) false)) ∧
    (cls = 4 ∨ cls = 5 → s.m.remote.find? (·.id == id) = none → exec .fabricPacket s = .next s) ∧
    (cls = 16 → exec .fabricPacket s = .next (s.sendAt s.m.cycle (.check
      { hub := 512 + src, core := 0, tok := id, pa := pa, va := 0, ctx := 64, tag := BitVec.ofNat 16 (fieldAt body 0 2)
        version := BitVec.ofNat 16 (fieldAt body 2 2) }))) ∧
    (cls = 17 → ∀ h ∈ s.m.hubs, ∀ c < 4, (∃ x ∈ (h.cores.toArray.getD c Core.fresh).tacks, x.tok = id) →
      (∀ h' ∈ s.m.hubs, ∀ c' < 4, (∃ x ∈ (h'.cores.toArray.getD c' Core.fresh).tacks, x.tok = id) → h' = h ∧ c' = c) →
      exec .fabricPacket s = .next (s.sendAt s.m.cycle (.tackReply h.hub c id (body.getD 0 0 == 1)))) ∧
    (cls = 17 → (∀ h ∈ s.m.hubs, ∀ c < 4, ∀ x ∈ (h.cores.toArray.getD c Core.fresh).tacks, x.tok ≠ id) → exec .fabricPacket s = .next s)

/-- R163, R226, R389, R391, R393, R397: what arrives from the host and from other modules. -/
def Obligations.HostAndFabricPackets : Prop :=
  Sys2Proof.Claims.HostItems ∧ Sys2Proof.Claims.AnswersAndFabricPackets

namespace Sys2Proof.Claims

/-- Offsets of BAR0 whose dword a write stores whole or in part, the Ethernet ports, the debug command registers and the
routing table apart. -/
def plainBar0 : List Nat :=
  [0x800, 0x804, 0x3000, 0x3004, 0x3008, 0x3010, 0x3014, 0x3018, 0x301C, 0x4008, 0x400C, 0x4010, 0x4014, 0x4018, 0x401C,
    0x6000, 0x6018]

/-- Offsets of the management space whose dword a write stores whole or in part. -/
def plainManagement : List Nat :=
  [0x08, 0x10, 0x14, 0x18, 0x1C, 0x28, 0x2C, 0x30, 0x34, 0x40, 0x44, 0x5000, 0x6008, 0x600C, 0x6010, 0x6014, 0x6018, 0x601C]

end Sys2Proof.Claims

/-- R2, R4, R277, R382, R390, R392, R395, R398, R402, R403, R421: a dword written to a register without an action of its own
takes the enabled bytes and leaves the others; QTBASE holds bits [51:12], HINTBASE bits [51:12] and [3:0], MODNUM and REFMOD 11
bits, each route 6; PWRBUD is held between 2400 and 4000; every other offset, the device's own registers among them, has no
effect. The driver's BARs, table base, partition layout and allocation of Page Requests are the model's way in (log entries
9, 11 and 111). -/
def Obligations.RegisterWrites : Prop :=
  ∀ (s : State) (o : Nat), s.m.ev.addr.toNat = o → o % 4 = 0 →
    let w := mergeWord (if s.m.ev.space = .bar0 then s.barStored o else s.managementWord o) (lowHalf s.m.ev.x) s.m.ev.size
    let high := decide (o % 8 = 4)
    let page := fun (f : PageUnit → PageUnit) => s.modify fun m => { m with page := f m.page }
    let mgmt := fun (f : Management → Management) => { s with mgmt := f s.mgmt }
    let slog := fun (f : StampLog → StampLog) => { s with slog := f s.slog }
    (s.m.ev.flag = false → s.m.ev.space = .bar0 →
      (o = 0x800 → exec .registerWrite s = .next (s.modify fun m =>
        { m with qtbase := (m.qtbase &&& 0xFFFFFFFF00000000) ||| ((w &&& 0xFFFFF000).zeroExtend 64) })) ∧
      (o = 0x804 → exec .registerWrite s = .next (s.modify fun m =>
        { m with qtbase := setHalf m.qtbase true (w &&& 0x000FFFFF) })) ∧
      (o = 0x3000 ∨ o = 0x3004 → exec .registerWrite s = .next (page fun p =>
        { p with pgmvaddr := setHalf p.pgmvaddr high w })) ∧
      (o = 0x3008 → exec .registerWrite s = .next (page fun p => { p with ctx := w.toNat / 65536 % 64 })) ∧
      (o = 0x3010 → exec .registerWrite s = .next (page fun p =>
        { p with hintbase := setHalf p.hintbase false (w &&& 0xFFFFF00F) })) ∧
      (o = 0x3014 → exec .registerWrite s = .next (page fun p => { p with hintbase := setHalf p.hintbase true w })) ∧
      (o = 0x3018 → exec .registerWrite s = .next (page fun p =>
        { p with hinten := w.getLsbD 16, hintthr := w.toNat % 65536 })) ∧
      (o = 0x301C → exec .registerWrite s = .next (page fun p => { p with hinthead := w })) ∧
      (o = 0x4008 ∨ o = 0x400C → exec .registerWrite s = .next (slog fun g => { g with base := setHalf g.base high w })) ∧
      (o = 0x4010 ∨ o = 0x4014 → exec .registerWrite s = .next (slog fun g => { g with size := setHalf g.size high w })) ∧
      (o = 0x4018 ∨ o = 0x401C → exec .registerWrite s = .next (slog fun g => { g with head := setHalf g.head high w })) ∧
      (0x5000 ≤ o → o < 0x5200 → exec .registerWrite s = .next (withEth s (37 + (o - 0x5000) / 64) fun e =>
        e.store (((s.link? (37 + (o - 0x5000) / 64)).map (·.st)).getD 0 == 0) (o % 64) w)) ∧
      (o = 0x6000 → exec .registerWrite s = .next { s with modnum := w.toNat % 2048 }) ∧
      (o = 0x6018 → exec .registerWrite s = .next (s.modify fun m => { m with refmod := w.toNat % 2048 })) ∧
      (0x7000 ≤ o → o < 0x8000 → exec .registerWrite s = .next (s.modify fun m =>
        { m with debugRegs := Memory.writeBytes m.debugRegs (o - 0x7000) m.ev.item.payload })) ∧
      (0x8000 ≤ o → o < 0x8480 → exec .registerWrite s = .next
        { s with routes := Memory.writeBytes s.routes (o - 0x8000) ((bytesOfWord w).map (· &&& 0x3F)) }) ∧
      (o ∉ plainBar0 → ¬ (0x5000 ≤ o ∧ o < 0x5200) → ¬ (0x7000 ≤ o ∧ o < 0x8480) → exec .registerWrite s = .next s)) ∧
    (s.m.ev.flag = false → s.m.ev.space = .management →
      (o = 0x08 → exec .registerWrite s = .next (mgmt fun g => { g with memimg := w.getLsbD 8 })) ∧
      (o = 0x10 ∨ o = 0x14 → exec .registerWrite s = .next (mgmt fun g => { g with imgbase := setHalf g.imgbase high w })) ∧
      (o = 0x18 ∨ o = 0x1C → exec .registerWrite s = .next (mgmt fun g => { g with imgsize := setHalf g.imgsize high w })) ∧
      (o = 0x28 ∨ o = 0x2C → exec .registerWrite s = .next (mgmt fun g => { g with elogbase := setHalf g.elogbase high w })) ∧
      (o = 0x30 → exec .registerWrite s = .next (mgmt fun g => { g with elogsize := w })) ∧
      (o = 0x34 → exec .registerWrite s = .next (mgmt fun g => { g with eloghead := w })) ∧
      (o = 0x40 ∨ o = 0x44 → exec .registerWrite s = .next (mgmt fun g =>
        { g with csel := (setHalf (BitVec.ofNat 64 g.csel) high w).toNat })) ∧
      (o = 0x5000 → exec .registerWrite s = .next (s.modify fun m =>
        { m with pwrbud := if w.toNat < 2400 then 2400 else if 4000 < w.toNat then 4000 else w.toNat })) ∧
      (o = 0x6008 ∨ o = 0x600C → exec .registerWrite s = .next (slog fun g => { g with base := setHalf g.base high w })) ∧
      (o = 0x6010 ∨ o = 0x6014 → exec .registerWrite s = .next (slog fun g => { g with size := setHalf g.size high w })) ∧
      (o = 0x6018 ∨ o = 0x601C → exec .registerWrite s = .next (slog fun g => { g with head := setHalf g.head high w })) ∧
      (o ∉ plainManagement → exec .registerWrite s = .next s)) ∧
    (s.m.ev.flag = true →
      let layout := s.m.ev.item.payload.map (·.toNat)
      (s.m.ev.index = 0 → exec .registerWrite s = .next (s.modify fun m => { m with bar0 := s.m.ev.x })) ∧
      (s.m.ev.index = 2 → exec .registerWrite s = .next (s.modify fun m => { m with bar2 := s.m.ev.x })) ∧
      (s.m.ev.index = 4 → exec .registerWrite s = .next (s.modify fun m => { m with bar4 := s.m.ev.x })) ∧
      (s.m.ev.index = 5 → exec .registerWrite s = .next (s.modify fun m => { m with ctxbase := s.m.ev.x })) ∧
      (s.m.ev.index = 6 → exec .registerWrite s = .next (if layoutGood layout then
        s.modify fun m => { m with nextLayout := layout } else s)) ∧
      (s.m.ev.index = 6 → layout = [4, 4] → exec .registerWrite s = .next (s.modify fun m => { m with nextLayout := [4, 4] })) ∧
      (s.m.ev.index = 7 → exec .registerWrite s = .next
        ((page fun p => { p with priAlloc := (lowHalf s.m.ev.x).toNat }).sendPages)))

/-! ## Events: contexts and debug sessions -/

namespace Sys2Proof.Claims

/-- Context n is changed by f, and nothing else is. -/
def withContext (s : State) (n : Nat) (f : Context → Context) : State :=
  s.modify fun m => { m with contexts := m.contexts.map fun c => if c.num == n then f c else c }

end Sys2Proof.Claims

/-- R258 to R261, R330: the commands of CTXCTL. One that the state does not allow sets ERR 2, an invalid descriptor ERR 1, a save
area that is too small ERR 3; a create makes the context ACTIVE from its descriptor; a save makes it SAVING and asks for its
pre-emption; a restore makes a SAVED one RESTORING; a destroy drains an ACTIVE one, whose kernels it kills and whose queues it
resets, frees a SAVED one without a record, and waits for a save or a restore; the end of the draining frees the context. -/
def Obligations.ContextCommands : Prop :=
  ∀ (s : State) (n : Nat), s.m.ev.ctx = n → n < 64 → (∀ k < 64, (s.context k).num = k) →
    let c := s.context n
    let bs := s.unitBytes (s.ownPa (s.m.ctxbase.toNat + 64 * n)) 64
    let refused := fun (e : Nat) => withContext s n fun c => { c with err := e }
    (c.st ≠ .free → exec .contextCreate s = .next (refused 2)) ∧
    (c.st = .free → descGood bs = false → exec .contextCreate s = .next (refused 1)) ∧
    (c.st = .free → descGood bs = true → ∃ t, exec .contextCreate s = .next t ∧
      let d := t.context n
      d.st = .active ∧ d.handler = BitVec.ofNat 64 (fieldAt bs 0 8 % 2 ^ 57) ∧ d.hen = decide (2 ^ 63 ≤ fieldAt bs 0 8) ∧
      d.fqbase = dwordField bs 8 ∧ d.fqlog2 = fieldAt bs 0x18 1 ∧ d.priv = (fieldAt bs 0x19 1).testBit 0 ∧
      d.dbg = (fieldAt bs 0x19 1).testBit 1 ∧ d.fqh = (fieldAt bs 0x19 1).testBit 2 ∧ d.pasid = fieldAt bs 0x1C 4 ∧
      d.eshare = fieldAt bs 0x20 1 ∧ d.pmask = fieldAt bs 0x21 1 ∧ d.savebase = dwordField bs 0x28 ∧
      d.savesize = dwordField bs 0x30 ∧ d.kcount = 0 ∧ d.drops = 0 ∧ d.gen = c.gen ∧ d.bumpWaits = true ∧
      t.m.threads = s.m.threads) ∧
    (c.st ≠ .active → exec .contextSave s = .next (refused 2)) ∧
    (c.st = .active → c.savesize.toNat < s.saveBytes n → exec .contextSave s = .next (refused 3)) ∧
    (c.st = .active → s.saveBytes n ≤ c.savesize.toNat → ∃ t, exec .contextSave s = .next t ∧
      (t.context n).st = .saving ∧ t.m.agenda = (.preemptionRequest, { set := .context n, why := .save }) :: s.m.agenda ∧
      (∀ x ∈ t.m.teams, s.ctxOf x.ref.kid = n → x.st = .saving) ∧ t.m.threads = s.m.threads ∧ t.mem = s.mem) ∧
    exec .contextRestore s = .next (if c.st = .saved then withContext s n fun c => { c with st := .restoring } else refused 2) ∧
    (s.m.ev.flag = false →
      (c.st = .saving ∨ c.st = .restoring →
        exec .contextDestroy s = .next (withContext s n fun c => { c with heldDestroy := true })) ∧
      (c.st = .free ∨ c.st = .draining → exec .contextDestroy s = .next (refused 2)) ∧
      (c.st = .active → exec .contextDestroy s = .next
        (((s.m.kernels.filter (·.ctx == n)).foldl (fun u k => u.killKernel k Cause.teamKilled)
          (withContext s n fun c => { c with st := .draining })).resetQueues n)) ∧
      (c.st = .active → (∀ k ∈ s.m.kernels, k.ctx ≠ n) → (∀ q ∈ s.m.queues, q.ctx = n → q.st = .disabled) →
        exec .contextDestroy s = .next (withContext s n fun c => { c with st := .draining })) ∧
      (c.st = .saved →
        let u := (withContext s n fun c => { c with saved := [] }).resetQueues n
        exec .contextDestroy s = .next
          (((u.m.queues.filter (·.ctx == n)).foldl (fun u q => u.closeTraces n q.num) u).freeContext n)) ∧
      (c.st = .saved → (∀ q ∈ s.m.queues, q.ctx ≠ n) → ∃ t, exec .contextDestroy s = .next t ∧ (t.context n).st = .free ∧
        (t.context n).saved = [] ∧ t.m.records = s.m.records ∧ t.m.threads = s.m.threads ∧ t.mem = s.mem)) ∧
    (s.m.ev.flag = true → s.contextDrained c = false → exec .contextDestroy s = .next s) ∧
    (s.m.ev.flag = true → s.contextDrained c = true → ∃ t, exec .contextDestroy s = .next t ∧ (t.context n).st = .free ∧
      (t.context n).gen = c.gen ∧ (t.context n).last = c.last ∧ t.m.threads = s.m.threads ∧ t.mem = s.mem)

/-- R274, R328: a pre-emption request sends a request to each quarter of a hub that holds a team of its set, which arrives
within 210 cycles, and a debug halt is noted in its context. At the quarter a save stops the threads of the set there;
another request halts those that are not halted, a debug halt only those that have not been resumed meanwhile, and at the
hub's first quarter the binned threads of the set; nothing else changes. -/
def Sys2Proof.Claims.PreemptionEvents : Prop :=
  (∀ s : State, ∃ t fs, exec .preemptionRequest s = .next t ∧ t.m.flight = s.m.flight ++ fs ∧
    t.m.threads = s.m.threads ∧ t.mem = s.mem ∧
    (∀ f ∈ fs, s.m.cycle < f.due ∧ f.due ≤ s.m.cycle + 210) ∧
    (∀ x ∈ s.m.teams, s.meetsTeam x.ref s.m.ev.set = true → ∀ core < 4, ∀ quarter < 4,
      ∃ f ∈ fs, f.msg = .preempt x.hub core quarter s.m.ev.set s.m.ev.why) ∧
    (∀ n, s.m.ev.why = .debug → s.setContext s.m.ev.set = some n → n < 64 →
      (t.context n).halts = (s.context n).halts ++ [{ set := s.m.ev.set, since := s.m.cycle, resumed := [] }]) ∧
    (s.m.ev.why ≠ .debug → t.m.contexts = s.m.contexts)) ∧
  ∀ (s : State) (f : Flight) (hub core quarter : Nat) (x : HaltSet) (why : HaltWhy),
    s.m.flight.find? (·.id == s.m.ev.id) = some f → f.msg = .preempt hub core quarter x why →
    let q : QRef := { hub := hub, core := core, quarter := quarter }
    let there := fun (t : Thread) => s.inSet t.ref x && (match s.gangOf t with
      | some g => g.hub == hub && g.core == core && g.quarter == quarter
      | none => false)
    let gone := s.modify fun m => { m with flight := m.flight.filter (·.id != s.m.ev.id) }
    (why = .save → exec .preemptionReachesQuarter s = .next (gone.modify fun m => { m with
      threads := m.threads.map fun t => if there t then { t with stopped := true } else t })) ∧
    (why ≠ .save →
      let holds := fun (t : Thread) => there t && t.halt.isNone && (why != .debug || s.bornHalted t.ref q)
      let halted := gone.modify fun m => { m with
        threads := m.threads.map fun t => if holds t then { t with halt := some why } else t }
      (core ≠ 0 ∨ quarter ≠ 0 → exec .preemptionReachesQuarter s = .next halted) ∧
      (core = 0 → quarter = 0 → exec .preemptionReachesQuarter s = .next (halted.setHub { s.hub hub with
        bins := (s.hub hub).bins.map fun b =>
          if s.coversTeam b.team x && (why != .debug || s.debugStopped b.team) then
            { b with threads := b.threads.map fun t => if t.halt.isSome then t else { t with halt := some why } } else b })))

/-- R209, R255, R271, R272, R318: a team that is not drained, or not there, is not saved; one that is drained leaves the machine
for its context's saved teams: no thread, gang or team of it stays. Where no team can be restored a restore has no effect;
the next saved team that fits stands on a hub again, its threads as the save area holds them, and is saved no more. -/
def Sys2Proof.Claims.TeamSaveAndRestore : Prop :=
  (∀ (s : State) (r : TeamRef), s.m.ev.thread.teamRef = r →
    (s.team? r = none → exec .teamSave s = .next s) ∧
    (∀ x, s.team? r = some x → s.teamDrained x = false → exec .teamSave s = .next s) ∧
    ∀ x, s.team? r = some x → s.teamDrained x = true → x.ref = r → ∃ t, exec .teamSave s = .next t ∧
      (∀ u ∈ t.m.threads, u.ref.teamRef ≠ r) ∧ (∀ g ∈ t.m.gangs, g.ref.teamRef ≠ r) ∧ t.team? r = none ∧ t.mem = s.mem ∧
      (∀ u ∈ s.m.threads, u.ref.teamRef ≠ r → u ∈ t.m.threads) ∧
      (s.ctxOf r.kid < 64 → ∃ y, (t.context (s.ctxOf r.kid)).saved = (s.context (s.ctxOf r.kid)).saved ++ [y] ∧
        y.team.ref = r ∧ y.team.st = .saved ∧ y.threads.length = (s.teamThreads r).length)) ∧
  ∀ s : State, let c := s.context s.m.ev.ctx
    (c.st ≠ .restoring → exec .teamRestore s = .next s) ∧
    ((c.saved.all fun x => (s.restoreTeam x).m.teams.length = s.m.teams.length) → exec .teamRestore s = .next s) ∧
    ∀ x, s.nextRestore c = some x →
      let n := s.ctxOf x.team.ref.kid
      ∃ t y, exec .teamRestore s = .next t ∧ x ∈ c.saved ∧ y.st = .resident ∧ y.ref = x.team.ref ∧
        y.bars = (s.readTeam n x).team.bars ∧ t.m.teams = s.m.teams ++ [y] ∧
        t.m.threads = s.m.threads ++ (s.readTeam n x).threads.map (fun u => { u with stopped := false }) ∧
        (n < 64 → ∀ z ∈ (t.context n).saved, z.team.ref ≠ x.team.ref)

/-- R255, R271, R272, R328: pre-emption, saving and restoring. -/
def Obligations.PreemptionSaveAndRestore : Prop :=
  Sys2Proof.Claims.PreemptionEvents ∧ Sys2Proof.Claims.TeamSaveAndRestore

namespace Sys2Proof.Claims

/-- The saved teams of context n are changed by f; one that holds none is as it was. -/
def withSaved (s : State) (n : Nat) (f : SavedTeam → SavedTeam) : State := if (s.context n).saved = [] then s else s.resave n f

/-- A thread that a session resumes. -/
def goesOn (t : Thread) : Thread :=
  match t.halt with
  | some w => { t with halt := none, stepOver := w == HaltWhy.breakpoint }
  | none => t

/-- A thread of a context whose debug right is revoked. -/
def madeReady (t : Thread) : Thread :=
  if t.halt.isSome then { t with halt := none, st := .ready, inHandler := false, wait := .none } else t

/-- A bin whose threads no session holds. -/
def unheld (b : Bin) : Bin := { b with threads := b.threads.map fun t => { t with halt := none } }

end Sys2Proof.Claims

/-- R274 to R276, R459: the commands of a debug session act while the right of the context holds and, but for the open, with an
open session; else they have no effect. A halt of a set of the session's own context asks for its pre-emption, and one of
another has no effect; a read shows the images of a thread and its gang; a commit applies the staged edits to halted and
saved threads; a resume lets the halted threads of its set go on, binned and saved ones too; a revocation ends the session,
its edits, halts and breakpoints, and makes the context's halted threads READY. What a revoked thread waited for is
dropped, a choice of the model (log entry 105). -/
def Obligations.DebugEvents : Prop :=
  ∀ (s : State) (n : Nat), s.m.ev.ctx = n → n < 64 → (∀ k < 64, (s.context k).num = k) →
    let e := s.m.ev
    let c := s.context n
    (exec .debugSessionOpen s = .next (if s.debugRight n then withContext s n fun c => { c with session := true } else s)) ∧
    (s.inSession n = false →
      exec .debugHalt s = .next s ∧ exec .debugRead s = .next s ∧ exec .debugStageEdit s = .next s ∧ exec .debugCommit s = .next s ∧
      exec .debugSetBreakpoint s = .next s ∧ exec .debugSetTakebrk s = .next s ∧ exec .debugResume s = .next s) ∧
    (s.inSession n = true →
      (s.setContext e.set = some n → exec .debugHalt s = .next (s.modify fun m =>
        { m with agenda := (.preemptionRequest, { set := e.set, why := .debug }) :: m.agenda })) ∧
      (s.setContext e.set ≠ some n → exec .debugHalt s = .next s) ∧
      (∀ t g, s.debugThread n e.thread = some (t, g) →
        exec .debugRead s = .next (s.emit 0 (packet Packet.image 0 0 (s.debugImage t g))) ∧
        exec .debugStageEdit s = .next (withContext s n fun c => { c with edits := c.edits ++ [(e.thread, e.edit)] })) ∧
      (s.debugThread n e.thread = none → exec .debugRead s = .next s ∧ exec .debugStageEdit s = .next s) ∧
      (c.edits = [] → exec .debugCommit s = .next s) ∧
      (let live := c.edits.filter fun x => (s.thread? x.1).any fun t => t.halted && t.retWait.isNone
       let committed := s.modify fun m => { m with
         threads := m.threads.map (·.applyEdits live), gangs := m.gangs.map (·.applyEdits live) }
       c.edits ≠ [] → exec .debugCommit s = .next (withContext (withSaved committed n fun x => { x with
         threads := x.threads.map (·.applyEdits c.edits), gangs := x.gangs.map (·.applyEdits c.edits) }) n fun c =>
           { c with edits := [] })) ∧
      (e.index < 16 → ∃ t, exec .debugSetBreakpoint s = .next t ∧
        { slot := e.index, addr := e.addr &&& 0x01FFFFFFFFFFFFFF } ∈ (t.context n).breakpoints ∧ t.m.threads = s.m.threads) ∧
      (16 ≤ e.index → exec .debugSetBreakpoint s = .next s) ∧
      exec .debugSetTakebrk s = .next (withContext s n fun c => { c with takebrk := e.flag }) ∧
      (let mine := fun (t : Thread) => s.inSet t.ref e.set && s.ctxOf t.ref.kid == n
       let bin := fun (b : Bin) => if s.coversTeam b.team e.set && s.ctxOf b.team.kid == n then unheld b else b
       let on_ := s.modify fun m => { m with
         threads := m.threads.map fun t => if mine t then goesOn t else t
         hubs := m.hubs.map fun h => { h with bins := h.bins.map bin } }
       exec .debugResume s = .next (withContext (withSaved on_ n fun y => { y with
         threads := y.threads.map (fun t => if mine t then goesOn t else t), bins := y.bins.map bin }) n fun c =>
           { c with halts := resumeHalts e.set c.halts }))) ∧
    (c.revoke = false → exec .debugRightRevoke s = .next s) ∧
    (c.revoke = true →
      let bin := fun (b : Bin) => if s.ctxOf b.team.kid == n then unheld b else b
      let free := s.modify fun m => { m with
        threads := m.threads.map fun t => if s.ctxOf t.ref.kid == n then madeReady t else t
        hubs := m.hubs.map fun h => { h with bins := h.bins.map bin } }
      exec .debugRightRevoke s = .next (withContext (withSaved free n fun y => { y with
        threads := y.threads.map madeReady, bins := y.bins.map unheld }) n fun c => { c with
          dbg := false, revoke := false, session := false, edits := [], breakpoints := [], takebrk := false, halts := [] }))

/-! ## Events: queues and kernels -/

namespace Sys2Proof.Claims

/-- The state after queue q has been changed by f and its indices written to its descriptor (R277). -/
def withQueue (s : State) (n : Nat) (f : Queue → Queue) : State := (s.updQueue n f).writeQueueIndices n

/-- A queue that begins its head packet (R282, R283): the packet's bytes and the state in which it has begun. -/
def begins (s : State) (q : Queue) (bs : List Byte) (u : State) : Prop :=
  s.queue s.m.ev.queue = q ∧ s.canBegin q = true ∧ (s.headPacket q).1 = .bytes bs ∧
  u = (s.headPacket q).2.updQueue s.m.ev.queue (fun q => { q with begunAt := s.m.cycle + 1, answer := none }) ∧
  packetValid bs = true

/-- Bytes are on their way to an address of this module's memory, as writes of a unit for a job. -/
def writing (u : State) (a : Nat) (bs : List Byte) (job : UnitJob) : Prop :=
  ∀ k < bs.length, ∃ f ∈ u.m.flight, ∃ r cells bad, f.msg = .home r ∧ r.back = .unit job .here ∧
    r.op = .write cells none bad ∧ (a + k, bs.getD k 0) ∈ cells

/-- Where the page of a context's address lies in this module, as the host's map answers a unit: the address there. -/
def unitAt (s : State) (ctx va : Nat) : Option Nat :=
  match (s.unitPage ctx (va / 4096)).1 with
  | some (.here, a) => some (a + va % 4096)
  | _ => none

/-- A packet retires (R282, R288). -/
def retires (s : State) (n : Nat) : State :=
  withQueue s n fun q => { q with
    begun := none, notified := [], answer := none, head := (q.head + 1) % 2 ^ q.ringlog2
    st := if (q.head + 1) % 2 ^ q.ringlog2 = q.tail then .idle else .active }

/-- A queue is in ERROR with its packet (R281). -/
def failsPacket (s : State) (n : Nat) : State :=
  s.updQueue n fun q => { q with st := .error, err := 4, begun := none, notified := [], answer := none }

/-- A queue is BLOCKED in a WAIT, the reads that were due made. -/
def blocks (s : State) (n : Nat) (bs : List Byte) : State :=
  s.updQueue n fun q =>
    { q with st := .blocked, begun := some bs, notified := q.notified.filter (s.m.cycle < ·), answer := none }

/-- A packet stays begun until its writes have been performed. -/
def awaits (s : State) (n : Nat) (bs : List Byte) : State := s.updQueue n fun q => { q with begun := some bs }

/-- The header of a span that a SNAPSHOT opens, by the table of R410. -/
def spanHeader (s : State) (ctx : Nat) (bs : List Byte) : List Byte :=
  bytesOfNat 8 s.m.cycle ++ bytesOfNat 8 s.m.seq.toNat ++ bytesOfNat 4 (fieldAt bs 0x18 4) ++ bytesOfNat 4 (fieldAt bs 4 4) ++
  List.replicate 8 0 ++ bytesOfNat 1 ctx ++ List.replicate 31 0

/-- The trailer of a trace session, by the table of R289. -/
def traceTrailer (s : State) (x : Trace) (truncated : Bool) : List Byte :=
  bytesOfNat 8 s.m.cycle ++ bytesOfNat 8 x.records ++ bytesOfNat 8 x.dropped ++ bytesOfNat 4 (x.corr.toNat % 2 ^ 32) ++
  bytesOfNat 1 x.id ++ [if truncated then 1 else 0] ++ List.replicate 34 0

end Sys2Proof.Claims

/-- R273, R278, R279, R288: the commands of QCTL and the doorbell: one that the state does not allow sets ERR 2, an invalid
descriptor ERR 1, a doorbell of a value that is no slot or passes HEAD, of a queue of the device or without a ring ERR 3, each
without another effect; a create makes the queue IDLE with its ring, a destroy makes it DISABLED; a reset discards the packets
and kills the queue's kernels, and once their completions and the queue's writes have been performed it closes the queue's
trace sessions, and then leaves the queue IDLE; a doorbell moves TAIL, around the ring, and makes an IDLE queue ACTIVE unless its context is SAVING,
SAVED or RESTORING. -/
def Obligations.QueueCommands : Prop :=
  ∀ (s : State) (n : Nat), s.m.ev.queue = n →
    let q := s.queue n
    let bs := s.unitBytes (s.ownPa (s.m.qtbase.toNat + 64 * n)) 64
    let refused := fun (e : Nat) => s.updQueue n fun q => { q with err := e }
    let reset := withQueue s n fun q =>
      { q with st := .resetting, head := q.tail, begun := none, notified := [], asked := none, answer := none }
    let at_ := s.m.ev.x.toNat
    let size : Nat := 2 ^ q.ringlog2
    let free := ((q.head : Int) - q.tail - 1) % size
    let moved := ((at_ : Int) - q.tail) % size
    let ringless := q.devpost = true ∨ q.st = .disabled ∨ q.st = .resetting
    (q.st ≠ .disabled → exec .queueCreate s = .next (refused 2)) ∧
    (q.st = .disabled → s.queueDescGood bs = false → exec .queueCreate s = .next (refused 1)) ∧
    (q.st = .disabled → s.queueDescGood bs = true → exec .queueCreate s = .next (withQueue s n fun q => { q with
      st := .idle, ringbase := dwordField bs 0, ringlog2 := fieldAt bs 8 1, prio := fieldAt bs 9 1, ctx := fieldAt bs 0xA 1
      devpost := fieldAt bs 0xB 1 == 1, head := 0, tail := 0, begun := none, notified := [], performed := false
      asked := none, answer := none })) ∧
    exec .queueDestroy s = .next (if q.st = .idle ∨ q.st = .error then s.updQueue n fun q => { q with st := .disabled }
      else refused 2) ∧
    (s.m.ev.flag = false →
      (q.st = .disabled ∨ q.st = .resetting → exec .queueReset s = .next (refused 2)) ∧
      (q.st ≠ .disabled → q.st ≠ .resetting → exec .queueReset s = .next
        ((s.m.kernels.filter (·.queue == n)).foldl (fun u k => u.killKernel k Cause.queueReset) reset)) ∧
      (q.st ≠ .disabled → q.st ≠ .resetting → (∀ k ∈ s.m.kernels, k.queue ≠ n) → exec .queueReset s = .next reset)) ∧
    (s.m.ev.flag = true → (q.st ≠ .resetting ∨ s.launchesEnded n = false ∨ (∃ k ∈ s.m.kernels, k.queue = n ∧ k.due.isSome) ∨
        s.unitBusy (.queue n) = true) → exec .queueReset s = .next s) ∧
    (s.m.ev.flag = true → s.resetDone q = true →
      ((∃ x ∈ (s.context q.ctx).traces, x.queue = n) → exec .queueReset s = .next (s.closeTraces q.ctx n)) ∧
      ((∀ x ∈ (s.context q.ctx).traces, x.queue ≠ n) →
        exec .queueReset s = .next (s.updQueue n fun q => { q with st := .idle }))) ∧
    (size ≤ at_ ∨ ringless ∨ free < moved → exec .doorbell s = .next (refused 3)) ∧
    (at_ < size → ¬ ringless → moved ≤ free → exec .doorbell s = .next (withQueue s n fun q => { q with
      tail := at_, st := if (s.context q.ctx).st ∉ [.saving, .saved, .restoring] ∧ q.st = .idle ∧ at_ ≠ q.tail then .active else q.st }))

/-- R281 to R284, R289, R294, R409, R414: a queue begins a valid packet: a NOP retires; a LAUNCH adds a POSTED kernel and stays
begun; a WAIT and a counter read retire, or block, by the counter, and are an error where it is denied; a SIGNAL asks for the
change of its counter, or is an error where it is denied, and retires when the change has been performed; a SNAPSHOT sets
CLOSED in the header of the open span, opens a span and writes its header; TRACE_OPEN adds a session, and TRACE_CLOSE ends
one with its trailer, behind the records that stand before it, or they are errors; SNAPSHOT and TRACE_CLOSE retire when what
they write has been written. A packet that is not valid, or whose page is denied, puts the queue in ERROR, with ERR 4 and
HEAD on it. A row without a packet to begin has no effect. -/
def Sys2Proof.Claims.PacketEvents : Prop :=
  ∀ (s : State) (n : Nat), s.m.ev.queue = n →
    let packets := fun (i : Instr) => i ∈ [Instr.nopPacket, .launchPacket, .waitPacket, .traceOpenPacket] ∨
      (i ∈ [Instr.signalPacket, .snapshotPacket, .traceClosePacket] ∧ s.m.ev.flag = false)
    let head := (s.headPacket (s.queue n)).2.updQueue n fun q => { q with begunAt := s.m.cycle + 1, answer := none }
    (s.canBegin (s.queue n) = false → ∀ i, packets i → exec i s = .next s) ∧
    (s.canBegin (s.queue n) = true → (s.headPacket (s.queue n)).1 = .denied →
      ∀ i, packets i → exec i s = .next (failsPacket head n)) ∧
    (∀ bs, s.canBegin (s.queue n) = true → (s.headPacket (s.queue n)).1 = .bytes bs → packetValid bs = false →
      ∀ i, packets i → exec i s = .next (failsPacket head n)) ∧
    (s.m.ev.flag = true → exec .signalPacket s = .next (if (s.queue n).signalled then retires s n else s)) ∧
    (s.m.ev.flag = true → ∀ i, i = .snapshotPacket ∨ i = .traceClosePacket →
      exec i s = .next (if s.written (s.queue n) then retires s n else s)) ∧
    ∀ q bs u, begins s q bs u →
      let ty := fieldAt bs 0 1
      let ctx := (u.queue n).ctx
      (ty = 0 → exec .nopPacket s = .next (retires u n)) ∧
      (ty = 1 → exec .launchPacket s = .next ((u.modify fun m => { m with
          nextKid := u.m.nextKid + 1, kernels := m.kernels ++ [newKernel u.m.nextKid u.m.cycle (u.queue n) bs] }).updQueue n fun q =>
        { q with begun := some bs })) ∧
      (ty = 2 → exec .waitPacket s = .next (u.evalWait n bs)) ∧
      (ty = 3 → s.m.ev.flag = false →
        let asked := u.counterUpdate (.signal n) ctx (fieldAt bs 8 8) (fieldAt bs 0x18 1 == 1) (dwordField bs 0x10) false
        exec .signalPacket s = .next (if asked.1 then asked.2.updQueue n fun q => { q with begun := some bs, performed := false }
          else failsPacket asked.2 n)) ∧
      (ty = 4 → s.m.ev.flag = false →
        let c := u.closeSpan ctx (.queue n)
        let buffer := fieldAt bs 8 8
        ∃ v, exec .snapshotPacket s = .next v ∧ v = awaits (c.openSpan ctx bs (.queue n)) n bs ∧
          (ctx < 64 → (v.context ctx).span = some { buffer := dwordField bs 8, size := fieldAt bs 0x10 8, records := 0, dropped := 0,
                                                      sum := 0, horizon := false }) ∧
          (∀ a, unitAt c ctx buffer = some a → writing v a (spanHeader u ctx bs) (.queue n)) ∧
          ∀ x a, (u.context ctx).span = some x → unitAt u ctx (x.buffer.toNat + 0x21) = some a →
            writing v a [if x.horizon then 3 else 1] (.queue n)) ∧
      (ty = 5 → ((u.context ctx).traces.all fun x => x.id != fieldAt bs 0x18 1) = true →
        exec .traceOpenPacket s = .next (retires (u.updContext ctx fun c => { c with traces := c.traces ++
          [{ id := fieldAt bs 0x18 1, buffer := dwordField bs 8, size := fieldAt bs 0x10 8
             mask := BitVec.ofNat 32 (fieldAt bs 0x19 1), records := 0, dropped := 0, corr := BitVec.ofNat 64 (fieldAt bs 4 4)
             queue := n }] }) n)) ∧
      (ty = 5 → ((u.context ctx).traces.all fun x => x.id != fieldAt bs 0x18 1) = false →
        exec .traceOpenPacket s = .next (failsPacket u n)) ∧
      (ty = 6 → s.m.ev.flag = false → ∀ x, (u.flushTraces.context ctx).traces.find? (·.id == fieldAt bs 0x18 1) = some x →
        ∃ v, exec .traceClosePacket s = .next v ∧ v = awaits (u.flushTraces.closeTrace ctx x false) n bs ∧
          (ctx < 64 → ∀ y ∈ (v.context ctx).traces, y.id ≠ x.id) ∧
          let at_ := x.buffer.toNat + x.size - 64
          ∀ a, at_ % 64 = 0 → unitAt u.flushTraces ctx at_ = some a →
            writing v a (traceTrailer u x false) (.queue x.queue)) ∧
      (ty = 6 → s.m.ev.flag = false → (u.flushTraces.context ctx).traces.find? (·.id == fieldAt bs 0x18 1) = none →
        exec .traceClosePacket s = .next (failsPacket u.flushTraces n))

/-- R226, R284: a WAIT whose counter is read: it retires when its condition holds, and else the queue is BLOCKED with it begun;
where the page is denied the queue is in ERROR; a counter in another owner's memory is read by a request, and the queue is
BLOCKED until its answer. WAIT_COUNTER_READ does so for a BLOCKED queue of an ACTIVE context without a read on its way. -/
def Sys2Proof.Claims.WaitEvaluation : Prop :=
  ∀ (s : State) (n : Nat) (bs : List Byte),
    let r := s.queueRead (s.queue n) (fieldAt bs 8 8) 8
    let want := fieldAt bs 0x10 8
    (∀ w u, r = (.bytes w, u) →
      let good := if fieldAt bs 0x18 1 = 0 then want ≤ natOfBytes w else natOfBytes w = want
      (good → s.evalWait n bs = retires u n) ∧
      (¬ good → s.evalWait n bs = blocks u n bs)) ∧
    (∀ u, r = (.denied, u) → s.evalWait n bs = failsPacket u n) ∧
    (∀ place a u, r = (.away place a, u) → (s.queue n).asked = none → ∃ v, s.evalWait n bs = v ∧
      (v.queue n).st = .blocked ∧ (v.queue n).begun = some bs ∧ (v.queue n).asked = some s.m.nextId ∧
      ∃ f ∈ v.m.flight, ∃ x, f.msg = .home x ∧ x.id = s.m.nextId ∧ x.pa = a ∧ x.size = 8 ∧ x.op = .read ∧
        x.back = .unitRead n place) ∧
    let reads := (s.queue n).st = .blocked ∧ (s.queue n).asked = none ∧ (s.context (s.queue n).ctx).st = .active
    (s.m.ev.queue = n → (s.queue n).begun = some bs → reads → exec .waitCounterRead s = .next (s.evalWait n bs)) ∧
    (s.m.ev.queue = n → (s.queue n).begun = none ∨ ¬ reads → exec .waitCounterRead s = .next s)

/-- R281 to R284, R289, R294, R409, R414: what a queue does with its packets. -/
def Obligations.PacketsAndWaits : Prop :=
  Sys2Proof.Claims.PacketEvents ∧ Sys2Proof.Claims.WaitEvaluation

namespace Sys2Proof.Claims

/-- The refusal of a kernel leaves the state t of the state w: FAULTED, its completion due, and one fault record of cause 2 on its way
to the context's queue, by the table of R270, or OVF where that is full. -/
def refusal (w t : State) (k : Kernel) (code off : Nat) : Prop :=
  let c := w.context k.ctx
  let size := 2 ^ c.fqlog2
  let head := natOfBytes (w.unitBytes (w.ownPa (w.m.ctxbase.toNat + 64 * k.ctx) + 0x10) 4)
  let full := (c.fqtail + 1) % size = head % size
  let at_ := c.fqbase.toNat + 64 * c.fqtail
  let ones := fun (n : Nat) => List.replicate n (0xFF : Byte)
  (∃ k', t.kernel? k.kid = some k' ∧ k'.st = .faulted ∧ k'.due = some true) ∧
  (k.ctx < 64 → full → (t.context k.ctx).ovf = true) ∧
  (k.ctx < 64 → ¬ full → at_ % 64 = 0 → ∀ a, unitAt w k.ctx at_ = some a →
    (t.context k.ctx).fqtail = (c.fqtail + 1) % size ∧
    writing t a (bytesOfNat 8 w.m.cycle ++ ones 8 ++ bytesOfNat 8 off ++ ones 8 ++ bytesOfNat 4 (k.corr.toNat % 2 ^ 32) ++
      ones 4 ++ ones 4 ++ ones 2 ++ ones 1 ++ [2] ++ bytesOfNat 1 k.ctx ++ bytesOfNat 1 (1 + 128 * (c.fqwritten / size % 2)) ++
      bytesOfNat 2 code ++ List.replicate 12 0) (.record k.ctx))

/-- The parts of a range that lie in this module are on their way there. -/
def partsOnTheirWay (t : State) (ps : List UnitPart) (bs : List Byte) (job : UnitJob) : Prop :=
  ∀ p ∈ ps, p.1 = .here → writing t p.2.1 ((bs.drop p.2.2.1).take p.2.2.2) job

end Sys2Proof.Claims

/-- R284, R292, R294, R295, R298, R301, R304, R332, R409, R424: the steps of a kernel: one that passes every check of admission is
WAITING with its launch record, and one that fails is refused, FAULTED with one record; a grant admits the first WAITING kernels within their
allowance, a population when its places are free, with the number KCOUNT gives it, and the copy of the constant bank and
the group block on their way to KCDEV; a denial there is a refusal with code 10; a hub dispatches the first team that fits;
the end of a draining starts a release in every hub that ran it, after them the kernel takes its final state, with its
record in the open span, and then its completion adds DONEVAL to DONECTR, with bit 63 unless it is DONE. Where a step is not
due it has no effect. -/
def Obligations.KernelEvents : Prop :=
  ∀ (s : State) (k : Kernel), s.kernel? s.m.ev.kernel = some k → k.kid = s.m.ev.kernel →
    (k.st ≠ .posted → exec .admissionSnapshot s = .next s) ∧
    (k.st = .posted →
      let x := s.snapshot k
      (x.2.checkLaunch k x.1 = none →
        exec .admissionSnapshot s = .next (x.2.updKernel k.kid fun k => k.withLaunch x.2.modnum x.1)) ∧
      ∀ code off, x.2.checkLaunch k x.1 = some (code, off) →
        exec .admissionSnapshot s = .next (x.2.refuseKernel k code off) ∧ refusal x.2 (x.2.refuseKernel k code off) k code off) ∧
    (k.st ≠ .waiting ∨ (s.context k.ctx).st ≠ .active ∨ s.grantable.all (·.kid != k.kid) →
      exec .energyGrant s = .next s) ∧
    (k.launch = none → exec .energyGrant s = .next s) ∧
    (∀ l, k.st = .waiting → (s.context k.ctx).st = .active → s.grantable.any (·.kid == k.kid) → k.launch = some l →
      let seats := if l.pop then seatPlaces l (s.partitionHubs l.part) s.hubUse else some []
      (seats = none → exec .energyGrant s = .next s) ∧
      ∀ ps, seats = some ps → exec .energyGrant s = .next (s.admitKernel k l ps) ∧
        ∀ src s1 bank s2 low s3 high s4, s.unitPages k.ctx l.kcBase.toNat l.kcSize = (src, s1) →
          s1.unitRead k.ctx l.kcBase.toNat l.kcSize = (bank, s2) → s2.unitPages k.ctx l.kcCopy.toNat l.kcSize = (low, s3) →
          s3.unitPages k.ctx (l.kcCopy.toNat + l.kcBlock) 64 = (high, s4) →
          ((∃ e, src = .error e ∨ bank = .error e) → ∃ t, exec .energyGrant s = .next t ∧ refusal s4 t k 10 0x38) ∧
          (∀ x y, src = .ok x → bank = .ok y → (∃ e, low = .error e ∨ high = .error e) →
            ∃ t, exec .energyGrant s = .next t ∧ refusal s4 t k 10 0x40) ∧
          ∀ x bytes lo hi, src = .ok x → bank = .ok bytes → low = .ok lo → high = .ok hi →
            ∃ t k', exec .energyGrant s = .next t ∧ t.kernel? k.kid = some k' ∧ k'.st = .admitted ∧ k'.places = ps ∧
              k'.knum = (s.context k.ctx).kcount ∧ k'.launch = k.launch ∧ t.m.threads = s.m.threads ∧
              partsOnTheirWay t lo bytes (.bank k.kid) ∧ partsOnTheirWay t hi (s.groupBlock k l) (.bank k.kid)) ∧
    (s.pickTeam s.m.ev.hub = none → exec .teamDispatch s = .next s) ∧
    (∀ k' l i x, s.pickTeam s.m.ev.hub = some (k', l, i, x) → ∃ t, exec .teamDispatch s = .next t ∧
      t.m.teams = s.m.teams ++ [newTeam { kid := k'.kid, team := k'.first + i } s.m.ev.hub l x 0 k'.pieces.length] ∧
      t.m.threads.length = s.m.threads.length + 32 * x.seats.length ∧ t.mem = s.mem) ∧
    (s.completionDue k = false → s.drainDue k = false → exec .kernelDrainEnd s = .next s) ∧
    (s.completionDue k = false → s.drainDue k = true → k.ending = false → exec .kernelDrainEnd s = .next (k.hubs.foldl
      (fun s h => s.startRelease h (.kernelEnd k.kid))
      (s.updKernel k.kid fun k => { k with ending := true, endRel := k.hubs }))) ∧
    (s.completionDue k = false → s.drainDue k = true → k.ending = true →
      let final : KernelState := if k.killed then .killed else if k.faulted then .faulted else .done
      ∃ t k', exec .kernelDrainEnd s = .next t ∧ t = (s.dropReplicas k.kid).finishKernel k final ∧
        t.kernel? k.kid = some k' ∧ k'.st = final ∧ k'.due = some (decide (final ≠ .done) || k.reset) ∧
        ∀ x a, (s.context k.ctx).span = some x → 64 * (x.records + 2) ≤ x.size → x.buffer.toNat % 64 = 0 →
          unitAt s k.ctx (x.buffer.toNat + 64 * (x.records + 1)) = some a →
          writing t a (bytesOfNat 8 s.m.cycle ++ bytesOfNat 8 x.sum.toNat ++ bytesOfNat 4 k.knum.toNat ++
            bytesOfNat 4 (k.corr.toNat % 2 ^ 32) ++ [if k.killed then 2 else if k.faulted then 1 else 0] ++ List.replicate 39 0)
            (.record k.ctx)) ∧
    (s.completionDue k = true → ∃ t, exec .kernelDrainEnd s = .next t ∧ t = s.completeKernel k ∧ t.m.threads = s.m.threads ∧
      (k.spans = false → t.kernel? k.kid = none) ∧
      (k.donectr ≠ 0 → (s.unitPage k.ctx (k.donectr.toNat / 4096)).1 = none → (t.queue k.queue).err = 5) ∧
      ∀ a, k.donectr ≠ 0 → unitAt s k.ctx k.donectr.toNat = some a → ∃ f ∈ t.m.flight, ∃ r, f.msg = .home r ∧ r.pa = a ∧
        r.size = 8 ∧ r.op = .atomic 0 Ty.n64 k.doneval 0 .rne ∧
        r.back = .counter (.completion k.queue) .here k.ctx k.donectr.toNat (k.due.getD false))

/-! ## Events: gangs, bins, joins, blocks, the grid barrier -/

namespace Sys2Proof.Claims

/-- A complete request of gang g for n blocks is granted: the lowest free blocks of its quarter, cleared in every thread. -/
def granted (s : State) (q : QRef) (g : Gang) (n : Nat) : State :=
  (s.updGang g.ref fun g => { g with blocks := (s.freeBlocks q).take n, xacq := none }).modify fun m => { m with
    threads := m.threads.map fun t => if t.ref.gangRef == g.ref then
      { t.setRegs 32 (List.replicate (32 * n) 0) with wait := .none, xacqIssued := false, xrelIssued := false } else t }

/-- The requests of a quarter in their order: one that fits its budget and the free blocks is granted, and one that does not
holds back the later ones of its team and role. -/
def grantsInOrder (q : QRef) : List Gang → List (TeamRef × Nat) → State → State
  | [], _, s => s
  | g :: gs, held, s =>
    let n := (g.xacq.map (·.n)).getD 0
    let used := ((s.m.gangs.filter fun x => x.ref.teamRef == g.ref.teamRef && x.role == g.role && x.core == g.core
      && x.quarter == g.quarter).map (·.blocks.length)).sum
    if (g.ref.teamRef, g.role) ∈ held then grantsInOrder q gs held s
    else if used + n ≤ s.budget g ∧ n ≤ (s.freeBlocks q).length then grantsInOrder q gs held (granted s q g n)
    else grantsInOrder q gs ((g.ref.teamRef, g.role) :: held) s

/-- A bin of a hub that can become a gang now. -/
def formable (s : State) (h : Hub) (b : Bin) : Bool :=
  b.due && b.threads.all (·.halt.isNone) && (s.context (s.ctxOf b.team.kid)).st == .active && (s.binPlace h b).isSome

end Sys2Proof.Claims

/-- R305, R315, R316, R318, R321 to R323, R325, R365: the complete requests of a quarter are taken in their order, and one whose
blocks are free and within its budget is granted the lowest free ones, cleared in every thread, while one that is not holds
back the later ones of its team and role; a bin's timer marks it expired; the lowest bin of a hub that is due, unhalted, of an
ACTIVE context and can be placed becomes a gang of its threads, and without one nothing is formed; a join whose lines have come
waits for its result, and every one whose counter then reads PEND 0 returns ABN, and a poisoned counter ends the team; a grid arrival goes to its kernel, or is kept. -/
def Obligations.GangEvents : Prop :=
  ∀ s : State,
    let e := s.m.ev
    let h := s.hub e.hub
    let q : QRef := { hub := e.hub, core := e.core, quarter := e.quarter }
    let asks := fun (g : Gang) => g.hub == q.hub && g.core == q.core && g.quarter == q.quarter
      && (match g.xacq with
        | some r => r.complete
        | none => false)
    let bin := fun (n : Nat) => h.bins.find? (·.num == n)
    let done := fun (j : ThreadRef × Nat × Nat) => s.joinPresent j && natOfBytes (s.winRead j.2.2 4) == 0
    let came := (h.joins.filter s.joinPresent).foldl (fun u j => u.updThread j.1 (·.linesCame j.2.1)) s
    let rest := came.setHub { h with joins := h.joins.filter fun j => !done j }
    exec .xacqGrant s = .next (grantsInOrder q
      (sortKey (fun (g : Gang) => g.xacq.elim [] fun r => [r.since, r.order]) (s.m.gangs.filter asks)) [] s) ∧
    (s.m.gangs.filter asks = [] → exec .xacqGrant s = .next s) ∧
    exec .binTimerExpiry s = .next (s.setHub { h with
      bins := h.bins.map fun b => if b.num == e.index then { b with expired := true } else b }) ∧
    ((∀ n < 16, ∀ b, bin n = some b → formable s h b = false) → exec .gangFormation s = .next s) ∧
    (∀ n b l gang core quarter slot, n < 16 → bin n = some b → formable s h b = true →
      (∀ k < n, ∀ b', bin k = some b' → formable s h b' = false) → s.launch? b.team.kid = some l →
      s.binPlace h b = some (gang, core, quarter, slot) → h.hub = e.hub →
      ∃ t, exec .gangFormation s = .next t ∧ (t.hub e.hub).bins = h.bins.filter (·.num != n) ∧ t.mem = s.mem ∧
        t.m.threads.length = s.m.threads.length + b.threads.length ∧
        ∃ g, t.m.gangs = s.m.gangs ++ [g] ∧ g.ref = { kid := b.team.kid, team := b.team.team, gang := gang } ∧ g.role = b.role ∧
          g.hub = e.hub ∧ g.core = core ∧ g.quarter = quarter ∧ g.slot = slot ∧ g.blocks = [] ∧ g.g = l.gangRegs b.role) ∧
    ((∀ j ∈ h.joins, done j = true → s.winPoisoned j.2.2 8 = none) → exec .joinReturn s = .next
      ((h.joins.filter done).foldl (fun u j => (u.performed j.1 j.2.1).updThread j.1
        (·.returned j.2.1 [BitVec.ofNat 32 (natOfBytes (s.winRead (j.2.2 + 4) 4))])) rest)) ∧
    (∀ j u t, h.joins.filter done = [j] → s.winPoisoned j.2.2 8 = some u → came.thread? j.1 = some t →
      exec .joinReturn s = .next (rest.fatal t Cause.memError t.pc (BitVec.ofNat 64 u) false 0 0)) ∧
    (∀ k, s.gridKernel e.id e.index = some k → exec .gridsyncArrivalPacket s = .next (s.updKernel k.kid fun k =>
      { k with shares := k.shares ++ [{ module := e.index, high := e.x, ended := e.flag }] })) ∧
    (s.gridKernel e.id e.index = none → exec .gridsyncArrivalPacket s = .next (s.modify fun m =>
      { m with early := m.early ++ [(e.id, { module := e.index, high := e.x, ended := e.flag })] }))

/-! ## Events: translations and moves -/

/-- R369, R374 to R379: a completion or a response for a request that is not in a merge table, or that its entry does not wait for,
has no effect; one of an older generation is asked again, under a number of its own; an unsupported one, an abort, a refused
page and a second empty completion deny every record; one with a right is served, and the first empty one asks for a Page
Request; an Invalidate Request asks for a bump of its context's generation, and one without a context only waits for its
completion; a bump that is due advances the generation, and the invalidations that asked for it note the leases and requests
they wait for; the completion of an invalidation leaves; a lease that ends drops its entries; the counters of regions fall to
zero. -/
def Sys2Proof.Claims.TranslationEvents : Prop :=
  ∀ s : State,
    let id := s.m.ev.id
    let n := s.m.ev.ctx
    (s.findMerge id = none → exec .translationCompletion s = .next s ∧ exec .prgResponse s = .next s) ∧
    (∀ hub r, s.findMerge id = some (hub, r) →
      (r.asking = false → exec .translationCompletion s = .next s) ∧
      (r.asking = true → r.gen ≠ (s.context r.ctx).gen →
        exec .translationCompletion s = .next (s.askAgain hub r (s.context r.ctx).gen)) ∧
      (r.asking = true → r.gen = (s.context r.ctx).gen →
        (s.m.ev.ats = .unsupported ∨ s.m.ev.ats = .abort → exec .translationCompletion s = .next (s.denyMerge hub r)) ∧
        ∀ base log rd wr x u, s.m.ev.ats = .done base log rd wr x u →
          (rd = true ∨ wr = true → exec .translationCompletion s = .next (s.serveMerge hub r base log rd wr x u)) ∧
          (rd = false → wr = false → r.paged = true → exec .translationCompletion s = .next (s.denyMerge hub r)) ∧
          (rd = false → wr = false → r.paged = false → exec .translationCompletion s = .next (s.askPage hub r))) ∧
      (s.paging r = false → exec .prgResponse s = .next s) ∧
      (s.paging r = true → exec .prgResponse s = .next
        ((if s.m.ev.flag then s.askAgain hub r r.gen else s.denyMerge hub r).sendPages))) ∧
    ((s.m.contexts.toList.find? fun c => c.pasid == s.m.ev.size && c.st != .free) = none → exec .invalidateRequest s = .next
      (s.modify fun m => { m with page := { m.page with orphans := m.page.orphans ++ [(id, s.m.ev.size)] } })) ∧
    (∀ c, (s.m.contexts.toList.find? fun c => c.pasid == s.m.ev.size && c.st != .free) = some c → exec .invalidateRequest s = .next
      (s.updContext c.num fun c => { c with
        bumpWaits := true, invalidates := c.invalidates ++ [{ itag := id, gen := c.gen, since := 0, ends := 0, reqs := [] }] })) ∧
    (∀ c, c = s.context n →
      (c.bumpWaits = false → exec .contextGenerationBump s = .next s) ∧
      (∀ x, c.last.find? (·.1 == (c.gen + 1).toNat) = some x → s.m.cycle < x.2 + 2 ^ 20 →
        exec .contextGenerationBump s = .next s) ∧
      (c.bumpWaits = true → (∀ x ∈ c.last, x.1 = (c.gen + 1).toNat → x.2 + 2 ^ 20 ≤ s.m.cycle) → n < 64 →
        ∃ t, exec .contextGenerationBump s = .next t ∧ (t.context n).gen = c.gen + 1 ∧
          (t.context n).bumpWaits = false ∧ (c.gen.toNat, s.m.cycle) ∈ (t.context n).last ∧
          (t.context n).invalidates = c.invalidates.map (fun i => if i.since = 0 then
            { i with gen := c.gen, since := s.m.cycle + 1, ends := c.lastLease, reqs := s.asked n } else i) ∧
          t.m.hubs = s.m.hubs ∧ t.m.threads = s.m.threads ∧ t.mem = s.mem)) ∧
    (n ≠ 64 → exec .invalidateCompletion s = .next ((s.updContext n fun c =>
      { c with invalidates := c.invalidates.filter (·.itag != id) }).emit 0
        (packet Packet.invalidated id 0 (bytesOfNat 4 (s.context n).pasid)))) ∧
    (n = 64 → exec .invalidateCompletion s = .next ((s.modify fun m => { m with page := { m.page with
      orphans := m.page.orphans.erase (id, s.m.ev.size) } }).emit 0
        (packet Packet.invalidated id 0 (bytesOfNat 4 s.m.ev.size)))) ∧
    (∃ t, exec .leaseEnd s = .next t ∧ t.m.threads = s.m.threads ∧
      (∀ h ∈ t.m.hubs, (∀ x ∈ h.tlb2, s.m.cycle < x.leaseEnd) ∧ ∀ c ∈ h.cores.toList, ∀ x ∈ c.tlb, s.m.cycle < x.leaseEnd)) ∧
    exec .regionCounterZeroing s = .next (s.modify fun m => { m with page := { m.page with counters := [] } })

/-- R383 to R386: a begin while a region moves is refused with ERR 2, one of a misaligned region or a FREE context with ERR 1, one of
a region that has moved twice in 2^24 cycles with ERR 4, when it is SETTLED under the class the module knows, one without a
free history entry with ERR 3; else the region is MIGRATING, not yet drained. The drain drops the home lines of the region.
An end before the drain is refused with ERR 2; one after it records the move, leaves no region moving, and every access and
request that waited for it goes on. Old history and settled entries end. -/
def Sys2Proof.Claims.MoveEvents : Prop :=
  ∀ s : State,
    let p := s.m.page
    let region := p.pgmvaddr.toNat / 65536
    let refused := fun (e : Nat) => s.modify fun m => { m with page := { m.page with err := e } }
    let old := p.history.find? fun e => e.ctx == p.ctx && e.region == region
    let bad := p.pgmvaddr.toNat % 65536 ≠ 0 ∨ 2 ^ 57 ≤ p.pgmvaddr.toNat ∨ (s.context p.ctx).st = .free
    let twice := fun (o : Nat) => ∃ e, old = some e ∧ e.older = some o ∧ s.m.cycle < e.newer + 2 ^ 24 ∧ s.m.cycle < o + 2 ^ 24
    (p.move.isSome = true → exec .moveBegin s = .next (refused 2)) ∧
    (p.move = none → bad → exec .moveBegin s = .next (refused 1)) ∧
    let ranges := s.regionRanges p.ctx region
    (∀ o, p.move = none → ¬ bad → twice o → exec .moveBegin s = .next (ranges.2.modify fun m => { m with page := { m.page with
      err := 4, settled := (p.ctx, region, o + 2 ^ 24, rangeClass ranges.1) :: m.page.settled } })) ∧
    (p.move = none → ¬ bad → old = none → 1024 ≤ p.history.length → exec .moveBegin s = .next (refused 3)) ∧
    (p.move = none → ¬ bad → (¬ ∃ o, twice o) → (old.isSome = true ∨ p.history.length < 1024) →
      ∃ t v, exec .moveBegin s = .next t ∧ t.m.page.err = p.err ∧ t.m.page.move = some v ∧ v.ctx = p.ctx ∧ v.region = region ∧
        v.drained = false ∧ v.phys = ranges.1 ∧ v.cls = rangeClass ranges.1 ∧ t.m.page.history = p.history) ∧
    (p.move = none → exec .moveDrained s = .next s ∧ exec .moveEnd s = .next (refused 2)) ∧
    (∀ v, p.move = some v →
      let ended := s.modify fun m => { m with page := { p with
        move := none, waiting := []
        history := putBy (fun e => e.ctx == v.ctx && e.region == v.region)
          { ctx := v.ctx, region := v.region, newer := s.m.cycle
            older := (p.history.find? fun e => e.ctx == v.ctx && e.region == v.region).map (·.newer) } p.history } }
      (∃ t, exec .moveDrained s = .next t ∧ t.m.page.move = some { v with drained := true } ∧
        (∀ l ∈ t.m.l2, inRanges v.phys .here l.pa = false) ∧ t.m.threads = s.m.threads) ∧
      (v.drained = false → exec .moveEnd s = .next (refused 2)) ∧
      (v.drained = true → exec .moveEnd s = .next
        ((p.waiting.foldl (fun u w => u.resumeWaiter w.2 none) ended).resumeHeld fun h => h.why == .migrating)) ∧
      (v.drained = true → s.m.l2held = [] → p.waiting = [] → exec .moveEnd s = .next ended)) ∧
    exec .moveHistoryFree s = .next (s.modify fun m =>
      { m with page := { m.page with history := p.history.filter fun e => s.m.cycle < e.newer + 2 ^ 24 } }) ∧
    exec .settledEnd s = .next (s.modify fun m =>
      { m with page := { m.page with settled := p.settled.filter fun x => s.m.cycle < x.2.2.1 } })

/-- R375 to R379, R383 to R385: translation and the placement of pages. -/
def Obligations.TranslationAndMoves : Prop :=
  Sys2Proof.Claims.TranslationEvents ∧ Sys2Proof.Claims.MoveEvents

/-! ## Events: messages of the memory system -/

namespace Sys2Proof.Claims

/-- The state without the message of the event. -/
def taken (s : State) : State := s.modify fun m => { m with flight := m.flight.filter (·.id != m.ev.id) }

/-- The message of the event is msg. -/
def carries (s : State) (msg : Msg) : Prop := ∃ f, s.m.flight.find? (·.id == s.m.ev.id) = some f ∧ f.msg = msg

end Sys2Proof.Claims

/-- R147, R148, R149, R150, R162, R192, R194, R195, R196, R198, R213: what the messages of the homes leave in a hub. A fill puts
its line in the slice, with the tag and the versions of the home, under the generation it was sent under; bytes that the
hub's stores have written meanwhile stay; a load that waited for it has its bytes on their way to its pending entry. The
acknowledgement of a write-back leaves the sector's version in the line, and the releases that waited for the sector wait
for it no longer. A store that its home acknowledges is in the line, with its version, and its sector waits no longer; an
access with a result has that on its way. A tack reply takes the entry out of its table and counts it in its thread's
tackst and in its hub. -/
def Sys2Proof.Claims.HubsReceive : Prop :=
  ∀ s : State,
    (∀ hub place line req d f, carries s (.l1Fill hub place line req d) → line % 128 = 0 → (s.hub hub).held = [] →
      (s.hub hub).fills.find? (fun f => f.place == place && f.line == line && f.sent && f.req == req) = some f →
      let old := (s.hub hub).line? place line
      (f.waiters = [] → ∃ t l, exec .l1FillReturn s = .next t ∧ (t.hub hub).line? place line = some l ∧
        l.tag = d.tag ∧ l.gen = some f.gen ∧ l.classM = f.classM ∧
        (∀ x ∈ (t.hub hub).fills, ¬ (x.place = place ∧ x.line = line)) ∧
        ∀ k < 4, (l.sector k).version = some (d.versions.toArray.getD k 0) ∧
          (old = none → (l.sector k).data = d.sectors.toArray.getD k 0 ∧ (l.sector k).mask = 0 ∧
            (l.sector k).poison = d.poison.getLsbD k) ∧
          ∀ o, old = some o → (l.sector k).mask = (o.sector k).mask ∧ ∀ i < 32, sectorSlice (l.sector k).data i 1 =
            if (o.sector k).mask.getLsbD i then sectorSlice (o.sector k).data i 1
            else sectorSlice (d.sectors.toArray.getD k 0) i 1) ∧
      ∀ a, f.waiters = [(f.gen, a)] → a.op = .load → a.tack = false → old = none → a.hub = hub → a.place = place →
        lineOf a.pa = line → a.pa % 32 + a.size ≤ 32 →
        ∃ t l, exec .l1FillReturn s = .next t ∧ (t.hub hub).line? place line = some l ∧
          l.gen = (if a.space = 4 then none else some f.gen) ∧
          (l.sector (sectorOf a.pa)).data = d.sectors.toArray.getD (sectorOf a.pa) 0 ∧
          ∀ ty, a.result = some ty → ∃ x ∈ t.m.flight, x.msg = .result a.thread a.tok
            (extendLoad ty (sectorSlice (d.sectors.toArray.getD (sectorOf a.pa) 0) a.pa a.size))
            (if d.poison.getLsbD (sectorOf a.pa) then some (line + 32 * sectorOf a.pa, a.pc, a.word0) else none)) ∧
    (∀ hub place line k v w, carries s (.wbAck hub place line k v) → (s.hub hub).held = [] →
      (s.hub hub).writeBacks.find? (fun w => w.place == place && w.line == line && w.sector == k) = some w →
      ∃ t, exec .writeBackAck s = .next t ∧ t.m.l2 = s.m.l2 ∧ t.mem = s.mem ∧
        (∀ l ∈ (t.hub hub).l1, l.place = place → l.pa = line → k < 4 → (l.sector k).version = v) ∧
        (1 < w.count → (t.hub hub).releases = (s.hub hub).releases ∧
          { w with count := w.count - 1 } ∈ (t.hub hub).writeBacks) ∧
        (w.count ≤ 1 → (∀ r ∈ (t.hub hub).releases, (place, line, k) ∉ r.waits) ∧
          ∀ x ∈ (t.hub hub).writeBacks, ¬ (x.place = place ∧ x.line = line ∧ x.sector = k))) ∧
    (∀ a x v p, carries s (.accessAck a x v p) → (s.hub a.hub).held = [] →
      ∃ t, exec .releaseAccessAck s = .next t ∧ t.m.l2 = s.m.l2 ∧ t.mem = s.mem ∧
        (∀ ty, a.result = some ty → ∃ f ∈ t.m.flight,
          f.msg = .result a.thread a.tok (extendLoad ty x) (p.map fun u => (u, a.pc, a.word0))) ∧
        ∀ bs l, a.op = .store bs → (s.hub a.hub).line? a.place a.pa = some l →
          ∃ l', (t.hub a.hub).line? a.place a.pa = some l' ∧ l'.sector (sectorOf a.pa) =
            { l.sector (sectorOf a.pa) with
              data := setSectorBytes (l.sector (sectorOf a.pa)).data (a.pa % 32) bs, waiting := false, version := v }) ∧
    ∀ hub core tok ok, carries s (.tackReply hub core tok ok) →
      let h := s.hub hub
      let c := h.cores.toArray.getD core Core.fresh
      (c.tacks.find? (·.tok == tok) = none → exec .tackReply s = .next (taken s)) ∧
      ∀ e, c.tacks.find? (·.tok == tok) = some e →
        let left := h.cores.setIfInBounds core { c with tacks := c.tacks.filter (·.tok != tok) }
        exec .tackReply s = .next ((((taken s).setHub { h with cores := left }).updThread e.thread fun t =>
          { t with tackst := tackResolved t.tackst ok }).count hub (if ok then 7 else 8) 1)

/-- A request can be performed where it arrives: nothing holds it, its line stands at home, and nothing is to be promoted or
invalidated first. -/
def Sys2Proof.Claims.performable (s : State) (r : HomeReq) (l : L2Line) : Prop :=
  r.away = none ∧ (r.foreign = true → s.migrating r.pa = false) ∧ s.m.l2held = [] ∧ s.m.evictions = [] ∧ s.reqLocked r = false ∧
  r.replica = none ∧ r.rmt = false ∧ s.l2Line? (homeSlice r.pa) (lineOf r.pa) = some l ∧ (r.writes = true → l.replicas = 0) ∧
  0 < r.size ∧ r.pa % 32 + r.size ≤ 32

/-- R153, R154, R171, R191, R192, R213, R214, R221, R457: what a request does at its home, and what comes back. A line is read for
a fill with its tag and versions, bytes are read and leave every line as it stands, a write puts its bytes in the line and
answers with their version, and an atomic writes what its operation gives of the bytes that it answers. Where the line does
not stand in its slice the request is held and a fill of the slice asked for; the fill takes the line from memory, or the
replica from what the home sent, into a free way, and what was held for it goes on. The last hub that a promotion waits for
clears MULTI, and the request goes on. -/
def Sys2Proof.Claims.HomesServe : Prop :=
  ∀ s : State,
    (∀ r l, carries s (.home r) → performable (taken s) r l →
      (∀ hub place, r.op = .line → r.back = .fill hub place → ∃ t, exec .homeSliceAccess s = .next t ∧
        (∃ f ∈ t.m.flight, f.msg = .l1Fill hub place (lineOf r.pa) r.id l.data) ∧
        ∀ a, t.homeRead a 1 = s.homeRead a 1) ∧
      (∀ a, r.op = .read → r.back = .access a → ∃ t, exec .homeSliceAccess s = .next t ∧
        (∃ f ∈ t.m.flight, f.msg = .accessAck a (s.homeRead r.pa r.size) none (s.homePoisonIn r.pa r.size)) ∧
        ∀ x, t.homeRead x 1 = s.homeRead x 1) ∧
      (∀ bs v p, r.op = .write bs v p → (∀ c ∈ bs, c.1 / 32 = r.pa / 32) → (bs.map (·.1)).Nodup →
        ∃ t, exec .homeSliceAccess s = .next t ∧ t.mem = s.mem ∧ (∀ c ∈ bs, t.homeRead c.1 1 = [c.2]) ∧
          (∀ x, (∀ c ∈ bs, c.1 ≠ x) → t.homeRead x 1 = s.homeRead x 1) ∧
          let ver := (s.homeWrite r.pa bs v p).1
          (∀ hub place line k, r.back = .writeBack hub place line k →
            ∃ f ∈ t.m.flight, f.msg = .wbAck hub place line k ver) ∧
          ∀ hub id, r.back = .copyWrite hub id → ∃ f ∈ t.m.flight, f.msg = .copyLanded hub id) ∧
      (∀ op ty x y mode a, r.op = .atomic op ty x y mode → r.back = .access a → r.fails = false → r.size ≤ 8 →
        let old := s.homeRead r.pa r.size
        let new := atomicResult op ty (BitVec.ofNat 64 (natOfBytes old)) x y mode
        ∃ t, exec .homeSliceAccess s = .next t ∧ t.mem = s.mem ∧
          t.homeRead r.pa r.size = (List.range r.size).map (fun i => (bytesOfNat r.size new.toNat).getD i 0) ∧
          ∃ f p, f ∈ t.m.flight ∧ f.msg = .accessAck a (bytesOfNat r.size (natOfBytes old)) none p)) ∧
    (∀ r, carries s (.home r) → r.away = none → r.foreign = false → s.m.l2held = [] → s.m.evictions = [] →
      s.reqLocked r = false → r.replica = none → s.l2Line? (homeSlice r.pa) (lineOf r.pa) = none →
      ∃ t, exec .homeSliceAccess s = .next t ∧ (∃ h ∈ t.m.l2held, h.req = r ∧ h.why = .fill) ∧
        (∃ f ∈ t.m.flight, f.msg = .l2Fill (homeSlice r.pa) (lineOf r.pa)) ∧ t.m.l2 = s.m.l2 ∧ t.mem = s.mem) ∧
    (∀ slice line, carries s (.l2Fill slice line) → s.l2Line? slice line = none → (s.l2Victim slice line).2 = none →
      ∃ t l, exec .l2Fill s = .next t ∧ t.l2Line? slice line = some l ∧ l.home = true ∧ l.sectors = s.memLine line ∧
        l.poison = s.memLinePoison line ∧ l.dirty = 0 ∧ l.multi = false ∧ l.replicas = 0 ∧ l.versions = Vector.replicate 4 0 ∧
        (∀ x ∈ s.m.l2, x ∈ t.m.l2) ∧ t.mem = s.mem ∧
        ∀ h ∈ s.m.l2held, h.why = .fill → h.slice = slice → lineOf h.req.pa = line → { h with why := .ready } ∈ t.m.l2held) ∧
    (∀ slice line kid d, carries s (.replicaFill slice line kid d) → s.l2Line? slice line = none →
      (s.l2Victim slice line).2 = none →
      ∃ t l, exec .l2Fill s = .next t ∧ t.l2Line? slice line = some l ∧ l.home = false ∧ l.sectors = d.sectors ∧
        l.poison = d.poison ∧ l.tag = d.tag ∧ l.versions = d.versions ∧ l.placedBy = some kid ∧ t.mem = s.mem) ∧
    (∀ slice line kid d l, carries s (.replicaFill slice line kid d) → s.l2Line? slice line = some l → l.home = true →
      exec .l2Fill s = .next (taken s)) ∧
    ∀ home req hub h, carries s (.promoteAck home req hub) → home < 128 → h ∈ s.m.l2held → h.why = .promote [hub] →
      h.req.id = req →
      ∃ t, exec .promotionAcknowledgement s = .next t ∧
        { h with why := .ready, req := { h.req with rmt := false } } ∈ t.m.l2held ∧
        ∀ l ∈ t.m.l2, l.home = true → l.pa = lineOf h.req.pa → l.multi = false

/-- R147, R148, R150, R153, R154, R162, R192, R194, R210, R214, R221, R457: each message of the memory system leaves the flight and acts
where it arrives: a fill, an acknowledgement of a write-back or of an access, a tack reply, a promotion request, a request at
its home slice, a fill of the slice or a replica for it, a notice, a check, a replica's acknowledgement, a promotion's. A
request that its home held and that is ready reaches its line. A row whose message is gone has no effect. -/
def Sys2Proof.Claims.MessagesArrive : Prop :=
  ∀ s : State,
    let id := s.m.ev.id
    let ready := fun (h : HeldReq) => h.why == .ready && h.req.id == id
    (s.m.flight.find? (·.id == id) = none →
      (∀ i ∈ [Instr.l1FillReturn, .writeBackAck, .releaseAccessAck, .tackReply, .promotionRequest, .l2Fill,
        .writerNotice, .tackCheck, .replicaInvalidationAck, .promotionAcknowledgement], exec i s = .next s) ∧
      (s.m.l2held.find? ready = none → exec .homeSliceAccess s = .next s) ∧
      ∀ h, s.m.l2held.find? ready = some h → exec .homeSliceAccess s = .next
        ((s.modify fun m => { m with l2held := m.l2held.filter (·.req.id != id) }).arriveHome h.req)) ∧
    (∀ hub place line req d, carries s (.l1Fill hub place line req d) →
      exec .l1FillReturn s = .next ((taken s).l1Fill hub place line req d)) ∧
    (∀ hub place line k v, carries s (.wbAck hub place line k v) →
      exec .writeBackAck s = .next ((taken s).writeBackAcked hub place line k v)) ∧
    (∀ src tag v, carries s (.fabricAck src tag v) → exec .writeBackAck s = .next (if s.route src = 0 then taken s
      else (taken s).emit (s.route src) (packet Packet.ack tag 0 (versionBytes v)))) ∧
    (∀ a x v p, carries s (.accessAck a x v p) → exec .releaseAccessAck s = .next ((taken s).accessAcked a x v p)) ∧
    (∀ hub core tok ok, carries s (.tackReply hub core tok ok) → exec .tackReply s = .next ((taken s).tackReply hub core tok ok)) ∧
    (∀ home req hub, carries s (.promoteReq home req hub) → exec .promotionRequest s = .next
      (((taken s).modify fun m => { m with nextId := m.nextId + 1 }).updHub hub fun h => { h with releases := h.releases ++
        [{ id := s.m.nextId, at_ := s.m.cycle, taken := false, waits := [], cont := .promote home req }] })) ∧
    (∀ r, carries s (.home r) → exec .homeSliceAccess s = .next ((taken s).arriveHome r)) ∧
    (∀ slice line, carries s (.l2Fill slice line) → exec .l2Fill s = .next ((taken s).l2FillDone slice line)) ∧
    (∀ slice line kid d, carries s (.replicaFill slice line kid d) →
      exec .l2Fill s = .next ((taken s).replicaArrives slice line kid d)) ∧
    (∀ hub pa, carries s (.notice hub pa) → exec .writerNotice s = .next ((taken s).modify fun m => { m with
      l2 := m.l2.map fun l => if l.home && l.pa == pa / 128 * 128 then
        { l with writer := some hub, multi := l.multi || (l.writer.isSome && l.writer != some hub) } else l })) ∧
    (∀ c, carries s (.check c) →
      let moving := match s.m.page.move with
        | some v => v.ctx == c.ctx && v.region == c.va / 65536
        | none => false
      let ok := !moving && !s.migrating c.pa && (match s.l2Line? (homeSlice c.pa) (lineOf c.pa) with
        | some l => l.tag == c.tag && l.versions.toArray.getD (sectorOf c.pa) 0 == c.version
        | none => false)
      (c.hub < 512 → exec .tackCheck s = .next ((taken s).send .toHub (.tackReply c.hub c.core c.tok ok))) ∧
      (512 ≤ c.hub → exec .tackCheck s = .next (if s.route (c.hub - 512) = 0 then taken s
        else (taken s).emit (s.route (c.hub - 512)) (packet Packet.tackReply c.tok c.pa [if ok then 1 else 0])))) ∧
    (∀ slice line die, carries s (.invAck slice line die) →
      let less := (taken s).modify fun m => { m with l2held := m.l2held.map fun h => match h.why with
        | .invalidate ds => if lineOf h.req.pa == line then { h with why := .invalidate (ds.filter (· != die)) } else h
        | _ => h }
      exec .replicaInvalidationAck s = .next
        ((less.resumeHeld fun h => h.why == .invalidate [] && lineOf h.req.pa == line).evictionAcked line die) ∧
      (s.m.l2held = [] → s.m.evictions = [] → exec .replicaInvalidationAck s = .next (taken s))) ∧
    (∀ home req hub, carries s (.promoteAck home req hub) → exec .promotionAcknowledgement s = .next (if home < 128
      then (taken s).promoted req hub else (taken s).fencePromoted (home - 128) req hub))

/-- R149 to R151, R148, R162, R173, R196, R218: the oldest bump of a hub advances the generation of its class, mod 16, when no line or
fill of the class holds the next one, and else flash-invalidates the class, whose lines leave the slice but those of kc,
and advances when the write-backs of that are acknowledged; a bump whose classes have advanced ends, and its acquires with it; without a bump nothing happens; a release
whose write-backs are acknowledged ends and what waited goes on, and one that still waits stays; an entry of a tack table at
the end of its life is struck. -/
def Sys2Proof.Claims.ReleasesAndBumps : Prop :=
  ∀ s : State,
    let e := s.m.ev
    let h := s.hub e.hub
    let finished := fun (r : Release) => r.id == e.id && r.taken && r.waits.isEmpty
    let ended := s.setHub { h with releases := h.releases.filter (·.id != e.id) }
    (h.flash = none → h.bumps = [] → exec .currentGenerationBump s = .next s) ∧
    (∀ b rest, h.flash = none → h.bumps = b :: rest → b.classD = true →
      (h.holdsGen false ((h.cd + 1) % 16) = false → exec .currentGenerationBump s = .next (s.setHub { h with
        cd := (h.cd + 1) % 16, bumps := { b with classD := false } :: rest })) ∧
      (h.holdsGen false ((h.cd + 1) % 16) = true → exec .currentGenerationBump s = .next (s.flashClass e.hub false))) ∧
    (∀ b rest, h.flash = none → h.bumps = b :: rest → b.classD = false → b.classM = true →
      (h.holdsGen true ((h.cm + 1) % 16) = false → exec .currentGenerationBump s = .next (s.setHub { h with
        cm := (h.cm + 1) % 16, bumps := { b with classM := false } :: rest })) ∧
      (h.holdsGen true ((h.cm + 1) % 16) = true → exec .currentGenerationBump s = .next (s.flashClass e.hub true))) ∧
    (∀ f, h.flash = some f → f.waits ≠ [] → exec .currentGenerationBump s = .next s) ∧
    (∀ f b rest, h.flash = some f → f.waits = [] → h.bumps = b :: rest → exec .currentGenerationBump s = .next (s.setHub (if f.classM
      then { h with flash := none, cm := (h.cm + 1) % 16, bumps := { b with classM := false } :: rest }
      else { h with flash := none, cd := (h.cd + 1) % 16, bumps := { b with classD := false } :: rest }))) ∧
    (∀ b rest, h.flash = none → h.bumps = b :: rest → b.classD = false → b.classM = false →
      exec .currentGenerationBump s = .next ((s.setHub { h with bumps := rest }).modify fun m => { m with
        threads := m.threads.map fun t =>
          { t with wait := t.wait.acquired b.tok, fences := t.fences.filter (·.tok != b.tok) } })) ∧
    (h.releases.any finished = false → exec .releaseWriteBackComplete s = .next s) ∧
    (∀ r, h.releases.find? finished = some r → exec .releaseWriteBackComplete s = .next (ended.released e.hub r.cont)) ∧
    (∀ r a, h.releases.find? finished = some r → r.cont = .access a → exec .releaseWriteBackComplete s = .next (if a.scratch
      then (ended.retryHeld e.hub).updHub e.hub (·.enterPort a) else ((ended.sample a).present a).retryHeld e.hub)) ∧
    (∀ classM, h.flash = none → (∃ b rest, h.bumps = b :: rest ∧ (if classM then b.classD = false ∧ b.classM = true
        else b.classD = true)) → h.holdsGen classM ((if classM then h.cm + 1 else h.cd + 1) % 16) = true →
      ∃ t f, exec .currentGenerationBump s = .next t ∧ (t.hub e.hub).flash = some f ∧ f.classM = classM ∧
        (∀ l ∈ (t.hub e.hub).l1, l.classM = classM → l.gen = none) ∧
        (∀ l ∈ h.l1, (l.classM ≠ classM ∨ l.gen = none) → (∀ x ∈ h.l1, x.place = l.place → x.pa = l.pa → x = l) →
          l ∈ (t.hub e.hub).l1) ∧
        (t.hub e.hub).cd = h.cd ∧ (t.hub e.hub).cm = h.cm) ∧
    (∀ r t, h.releases.find? finished = some r → r.cont = .thread t →
      exec .releaseWriteBackComplete s = .next (ended.updThread t fun t => { t with rel := false })) ∧
    (∀ r home req, h.releases.find? finished = some r → r.cont = .promote home req →
      exec .releaseWriteBackComplete s = .next (ended.send .toHome (.promoteAck home req e.hub))) ∧
    (∀ r kid, h.releases.find? finished = some r → r.cont = .kernelEnd kid →
      exec .releaseWriteBackComplete s = .next (ended.updKernel kid fun k => { k with endRel := k.endRel.filter (· != e.hub) })) ∧
    ((h.cores.toArray.getD e.core Core.fresh).tacks.all (·.tok != e.id) = true → exec .tackEntryExpiry s = .next s) ∧
    (∀ x, (h.cores.toArray.getD e.core Core.fresh).tacks.find? (·.tok == e.id) = some x →
      let c := h.cores.toArray.getD e.core Core.fresh
      let cores := h.cores.setIfInBounds e.core { c with tacks := c.tacks.filter (·.tok != e.id) }
      exec .tackEntryExpiry s = .next ((s.setHub { h with cores := cores }).resolveTack e.hub x.thread false))

/-- R147 to R151, R153, R154, R162, R173, R194, R196, R214, R218, R221, R457: the messages between hubs and homes. -/
def Obligations.MessagesAndReleases : Prop :=
  Sys2Proof.Claims.MessagesArrive ∧ Sys2Proof.Claims.HubsReceive ∧ Sys2Proof.Claims.HomesServe ∧
  Sys2Proof.Claims.ReleasesAndBumps

/-- R157, R171, R191, R213, R214: a write of bytes of one sector that its home slice holds leaves every other byte of the memory as
the homes hold it, puts the bytes in place, advances the sector's version by one when it is the first of the cycle, and
poisons the sector when what it carries is poisoned; a whole sector that is not clears its poison. -/
def Obligations.HomeWriteRule : Prop :=
  ∀ (s : State) (pa : Nat) (bs : List (Nat × Byte)) (carried : Option (BitVec 16)) (poisoned : Bool) (l : L2Line),
    s.l2Line? (homeSlice pa) (lineOf pa) = some l →
    (∀ c ∈ bs, c.1 / 32 = pa / 32) → (bs.map (·.1)).Nodup →
    let t := (s.homeWrite pa bs carried poisoned).2
    let k := sectorOf pa
    (∀ c ∈ bs, t.homeRead c.1 1 = [c.2]) ∧
    (∀ a, (∀ c ∈ bs, c.1 ≠ a) → t.homeRead a 1 = s.homeRead a 1) ∧
    (∃ l', t.l2Line? (homeSlice pa) (lineOf pa) = some l' ∧ l'.tag = l.tag ∧
      l'.versions.toArray.getD k 0 = (if l.wrote.toArray.getD k 0 = s.m.cycle + 1
        then l.versions.toArray.getD k 0 else l.versions.toArray.getD k 0 + 1) ∧
      l'.poison.getLsbD k = (poisoned || (l.poison.getLsbD k && decide (bs.length ≠ 32)))) ∧ t.mem = s.mem

/-! ## Events: the copy engine and the matrix engine -/

namespace Sys2Proof.Claims

/-- Held copies and operations register, the one held longest first, up to the first that cannot. -/
def registersInOrder (hub : Nat) : List HeldWork → State → State
  | [], s => s
  | .copy x :: ws, s => if s.canRegister hub x then registersInOrder hub ws (s.register hub x) else s
  | .entry e :: ws, s => match s.team? e.team with
    | none => s
    | some t => if s.canLock t e then registersInOrder hub ws (s.lockEntry t e) else s

/-- The pieces of a hub's teams that their levels let register, in the order of R183. -/
def piecesReleased (s : State) (hub : Nat) : List (List Nat × TeamRef × (Nat × Option ThreadRef × Dword)) :=
  sortKey (·.1) ((s.m.teams.filter fun t => t.hub == hub && t.st == .resident).flatMap s.releasedPieces)

end Sys2Proof.Claims

/-- R157, R177, R178, R183 to R186, R189, R215: the pieces that their teams' levels release join what is held, and what is held
registers in its order up to the first that cannot: a copy with its ranges, its lines' counts and its place in the queue.
Source bytes that arrive join the copy's buffer, the last of them release the source range, and poison fails the copy at
the poisoned unit; the next read is that of a whole source sector, at once from the scratchpad. The acknowledgement of a
write lands its sectors one after another, and a sector of the scratchpad lands as it is written. A copy that fails ends its
team; without work a row has no effect. -/
def Obligations.CopyEvents : Prop :=
  ∀ s : State,
    let hub := s.m.ev.hub
    let held := (piecesReleased s hub).foldl (fun u p => u.releasePiece hub p.2.1 p.2.2) s
    let nothing := s.m.flight.find? (·.id == s.m.ev.id) = none
    exec .copyRegister s = .next (registersInOrder hub (held.heldWork hub) held) ∧
    (piecesReleased s hub = [] → s.heldWork hub = [] → exec .copyRegister s = .next s) ∧
    (∀ x t, s.team? x.team = some t → (x.piece.toKind ≠ 1 → s.register hub x = s.setHub { s.hub hub with
      locks := (s.hub hub).locks ++ x.locks t
      copies := (s.hub hub).copies.filter (·.id != x.id) ++ [{ x with registered := true }] })) ∧
    (∀ x id bs, carries s (.copyData hub id bs none) → (s.hub hub).copies.find? (·.id == id) = some x →
      let n := x.readPos + bs.length
      let more := (taken s).updCopy hub x.id fun x => { x with readPos := n, buffer := x.buffer ++ bs, asked := false }
      exec .copySourceRead s = .next (if n = x.piece.bytes then (more.unlock hub x.id false).copyDone x x.tokRead else more)) ∧
    (∀ x id bs u, carries s (.copyData hub id bs (some u)) → (s.hub hub).copies.find? (·.id == id) = some x →
      exec .copySourceRead s = .next ((taken s).modify fun m => { m with
        agenda := (.copyFault, { hub := hub, addr := BitVec.ofNat 64 (s.copyUnit x u) }) :: m.agenda })) ∧
    (∀ id bs p, carries s (.copyData hub id bs p) → (s.hub hub).copies.find? (·.id == id) = none →
      exec .copySourceRead s = .next (taken s)) ∧
    (nothing → s.runningCopy hub = none →
      exec .copySourceRead s = .next s ∧ exec .copySectorLand s = .next s ∧ exec .copyFault s = .next s) ∧
    (nothing → exec .copySourceRead s = .next (s.copyRead hub) ∧ exec .copySectorLand s = .next (s.copyWrite hub)) ∧
    (∀ x c, nothing → s.runningCopy hub = some x → x.startAt = some c →
      (s.m.cycle < c ∨ x.asked = true ∨ x.writing ≠ 0 ∨ x.waiting = true ∨ x.piece.bytes ≤ x.readPos ∨ 128 ≤ x.buffer.length →
        exec .copySourceRead s = .next s) ∧
      ∀ t, c ≤ s.m.cycle → x.asked = false → x.writing = 0 → x.waiting = false → x.readPos < x.piece.bytes →
        x.buffer.length < 128 → x.piece.fromKind = 1 → s.team? x.team = some t →
        let a := x.piece.srcAt x.readPos
        let n := Nat.min (32 - a % 32) (x.piece.ext0 - x.readPos % x.piece.ext0)
        exec .copySourceRead s = .next
          (s.copyReceived hub x.id (s.winRead (hsAddr t a) n) (s.winPoisoned (hsAddr t a) n))) ∧
    (∀ x id, carries s (.copyLanded hub id) → (s.hub hub).copies.find? (·.id == id) = some x →
      exec .copySectorLand s = .next ((taken s).sectorsLanded hub id x.writing) ∧
      (x.writing = 1 → exec .copySectorLand s = .next ((taken s).sectorLanded hub x))) ∧
    (∀ id, carries s (.copyLanded hub id) → (s.hub hub).copies.find? (·.id == id) = none →
      exec .copySectorLand s = .next (taken s)) ∧
    (∀ x, nothing → s.runningCopy hub = some x →
      (x.writing ≠ 0 ∨ x.waiting = true ∨ x.buffer.length < 32 → exec .copySectorLand s = .next s) ∧
      ∀ t, x.writing = 0 → x.waiting = false → 32 ≤ x.buffer.length → x.piece.toKind = 1 → s.team? x.team = some t →
        let a := x.piece.dstAt (32 * x.landPos)
        exec .copySectorLand s = .next
          (((s.winWrite (hsAddr t a) (x.buffer.take 32)).updHub hub (·.dropOperands (t.hsBase + a) 32)).sectorLanded hub x)) ∧
    (∀ x, s.runningCopy hub = some x → exec .copyFault s = .next (s.failCopy x 0xD s.m.ev.addr.toNat))

namespace Sys2Proof.Claims

/-- OPERAND_FETCH reads the next rows of a running fetch, at most four, each an activity of the scratchpad; poison in them
ends the team. -/
def fetchReads (s : State) (hub : Nat) (e : Reservation) (t : Team) (f : EngineRun) (d : Desc) (a : Nat) (x : Shape) : Prop :=
  let n := Nat.min 4 (x.rows - f.rows.length)
  let spent := s.activity e.team.kid 3 n
  let put := fun (v : Option EngineRun) => spent.setHub { s.hub hub with fetch := v }
  (s.tilePoison t d a f.rows.length n x.rowBytes = none → exec .operandFetch s = .next (put (some { f with
    rows := f.rows ++ (List.range n).map fun i => s.tileRow t d a x.rowBytes (f.rows.length + i) }))) ∧
  ∀ u, s.tilePoison t d a f.rows.length n x.rowBytes = some u → exec .operandFetch s = .next ((put none).entryError e u)

/-- OPERAND_FETCH begins the fetch of a side of a pass of an entry: on a hit it has the cached rows, without its lines it waits,
and else it reads its first four rows. -/
def fetchBegins (s : State) (hub : Nat) (e : Reservation) (sideB : Bool) (pass : Nat) : Prop :=
  ∀ t d a x, s.team? e.team = some t → e.tile sideB pass = some (d, a, x) →
    let h := s.hub hub
    let run := fun (start : Option Nat) (hit : Bool) (rows : List (List Byte)) =>
      ({ entry := e.entry, sideB := sideB, pass := pass, start := start, og := h.og, hit := hit, rows := rows } : EngineRun)
    (∀ o, h.operandHit t d a x = some o →
      exec .operandFetch s = .next ((s.modify fun m => { m with nextId := m.nextId + 1 }).setHub { h with
        operands := h.operands.map fun p => if p == o then { p with use := s.m.nextId } else p
        fetch := some (run (some s.m.cycle) true o.rows) })) ∧
    (h.operandHit t d a x = none → t.tilePresent d a x = false →
      exec .operandFetch s = .next (s.setHub { h with fetch := some (run none false []) })) ∧
    (h.operandHit t d a x = none → t.tilePresent d a x = true → 0 < x.rows →
      fetchReads s hub e t (run (some s.m.cycle) false []) d a x)

end Sys2Proof.Claims

/-- R176, R225, R244, R245, R247, R248, R251, R257: the free array takes the next pass of the first `mma` that is ready, and the
free port the first other operation; the free fetch unit begins with the first scratch side of the next pass of the first
`mma` that is ready while fewer than two passes are held, and one that waits for its lines begins when they are present; a
unit that is busy, or finds none, has no effect; a pass, a fetch or a port operation that has not had its cycles goes on, and
a fetch reads the next four rows, whose poison ends the team; the last cycle of a port operation has its effect on the tile and frees its entry, or its
poison ends the team; the bump of an sfence whose scratch writes are performed advances the operand generation. -/
def Sys2Proof.Claims.EngineEvents : Prop :=
  ∀ s : State,
    let hub := s.m.ev.hub
    let h := s.hub hub
    let first := leastBy (fun e : Reservation => [4 - e.prio, e.seq])
    let passes := h.reservations.filter fun e => h.passReady e && s.engineRuns e
    let fetches := h.reservations.filter fun e => h.fetchReady e && !e.sides.isEmpty && s.engineRuns e
    let others := h.reservations.filter fun e => e.op != .mma && e.posted && e.locked && (h.earlier e).isEmpty && s.engineRuns e
    let run := fun (e : Reservation) (n : Nat) (rows : List (List Byte)) (cycles : Nat) =>
      ({ entry := e.entry, sideB := false, pass := n, start := some s.m.cycle, og := h.og, hit := false, rows := rows,
         cycles := cycles } : EngineRun)
    (h.pass.isSome = true ∨ passes = [] → exec .passGrant s = .next s) ∧
    (∀ e t, h.pass = none → first passes = some e → s.team? e.team = some t →
      exec .passGrant s = .next (((s.activity e.team.kid 4 1).updHub hub fun h =>
        { h with pass := some (run e e.granted (s.accTile t e.z) 8) }).updEntry hub e.entry fun e =>
          { e with granted := e.granted + 1, fetched := Nat.max e.fetched (e.granted + 1) })) ∧
    (h.port.isSome = true ∨ others = [] → exec .portOperationStart s = .next s) ∧
    (∀ e, h.port = none → first others = some e →
      exec .portOperationStart s = .next ((s.updHub hub fun h => { h with port := some (run e 0 [] e.op.cycles) }).updEntry hub
        e.entry fun e => { e with granted := 1 })) ∧
    (h.fetch = none → 2 ≤ h.heldPasses ∨ fetches = [] → exec .operandFetch s = .next s) ∧
    (∀ e, h.fetch = none → h.heldPasses < 2 → first fetches = some e → h.entry? e.entry = some e →
      fetchBegins s hub e e.descA.isNone e.fetched) ∧
    (∀ f e, h.fetch = some f → f.start = none → h.entry? f.entry = some e → fetchBegins s hub e f.sideB f.pass) ∧
    (∀ f e t d a x c, h.fetch = some f → f.start = some c → h.entry? f.entry = some e → s.team? e.team = some t →
      e.tile f.sideB f.pass = some (d, a, x) →
      (f.hit = true ∨ x.rows ≤ f.rows.length → exec .operandFetch s = .next s) ∧
      (f.hit = false → f.rows.length < x.rows → fetchReads s hub e t f d a x)) ∧
    (h.fetch = none → exec .operandFetchComplete s = .next s) ∧
    (∀ r, h.fetch = some r → r.start = none → exec .operandFetchComplete s = .next s) ∧
    (∀ r c, h.fetch = some r → r.start = some c → s.m.cycle + 1 < c + (if r.hit then 1 else 16) →
      exec .operandFetchComplete s = .next s) ∧
    (h.pass = none → exec .passWrite s = .next s) ∧
    (∀ r c, h.pass = some r → r.start = some c → s.m.cycle + 1 < c + 8 → exec .passWrite s = .next s) ∧
    (h.port = none → exec .portOperationComplete s = .next s) ∧
    (∀ r c, h.port = some r → h.entry? r.entry = none → r.start = some c → exec .portOperationComplete s = .next
      (if c + r.cycles ≤ s.m.cycle + 1 then s.setHub { h with port := none } else s)) ∧
    (∀ r e c, h.port = some r → h.entry? r.entry = some e → r.start = some c →
      (s.m.cycle + 1 < c + r.cycles → exec .portOperationComplete s = .next s) ∧
      ∀ t, c + r.cycles ≤ s.m.cycle + 1 → s.team? e.team = some t →
        (s.portPoison t e = none →
          exec .portOperationComplete s = .next (((s.setHub { h with port := none }).portEffect t e).freeEntry hub e)) ∧
        ∀ u, s.portPoison t e = some u →
          exec .portOperationComplete s = .next ((s.setHub { h with port := none }).entryError e u)) ∧
    (∀ t g, s.thread? s.m.ev.thread = some t → t.ref = s.m.ev.thread → s.gangOf t = some g → t.sfenceWait = some [] →
      exec .operandGenerationBump s = .next ((s.updHub g.hub fun h =>
        { h with og := h.og + 1, operands := h.operands.filter (·.og != h.og + 1) }).updThread t.ref fun t =>
          { t with sfenceWait := none }))

/-- R157, R246, R257, R412: in the eighth cycle of a pass the pass is counted and its tile is written, row by row, and nothing of
HBM4; the last pass frees the entry, the pass of an operation that is gone is discarded, and poison in the accumulators ends
the team. R178, R245, R247: in the last cycle of a fetch its tile is delivered to its entry and, when it was read from scratch,
cached; after the last pass the range of its side is released; after the A tile of two scratch operands the B tile is
next. -/
def Sys2Proof.Claims.PassesAndFetchesEnd : Prop :=
  ∀ (s : State) (r : EngineRun) (c : Nat),
    let hub := s.m.ev.hub
    let h := s.hub hub
    let passed := (s.setHub { h with pass := none }).count hub 10 1
    let unfetched := s.setHub { h with fetch := none }
    r.start = some c →
    (h.pass = some r → c + 8 ≤ s.m.cycle + 1 → h.entry? r.entry = none → exec .passWrite s = .next passed) ∧
    (h.fetch = some r → c + (if r.hit then 1 else 16) ≤ s.m.cycle + 1 → h.entry? r.entry = none →
      exec .operandFetchComplete s = .next unfetched) ∧
    ∀ (e : Reservation) (t : Team), h.entry? r.entry = some e → s.team? e.team = some t →
      (h.pass = some r → c + 8 ≤ s.m.cycle + 1 →
        let cols := (List.range 64).map fun j => e.operandRow true r.pass j
        let written := ((List.range 64).foldl (fun u i =>
          u.setAccRow t e.z i 0 (e.passRow r.pass i (wordsOfRow (r.rows.getD i [])) cols)) passed).updEntry hub e.entry fun e =>
            { e with tiles := e.tiles.filter fun x => x.2.1 != r.pass }
        (∀ u, s.winPoisoned (accAddr hub (t.phys e.z) 0 0) 16384 = some u → exec .passWrite s = .next (passed.entryError e u)) ∧
        (s.winPoisoned (accAddr hub (t.phys e.z) 0 0) 16384 = none →
          exec .passWrite s = .next (if r.pass + 1 = e.passes then written.freeEntry hub e else written) ∧
          ∃ u, exec .passWrite s = .next u ∧ (u.hub hub).pass = none ∧ u.mem = s.mem ∧
            (r.pass + 1 = e.passes → (u.hub hub).entry? e.entry = none))) ∧
      ∀ d a x, h.fetch = some r → c + (if r.hit then 1 else 16) ≤ s.m.cycle + 1 → e.tile r.sideB r.pass = some (d, a, x) →
        let both := e.descA.isSome = true ∧ e.descB.isSome = true ∧ r.sideB = false
        (∃ u, exec .operandFetchComplete s = .next u ∧ u.mem = s.mem ∧ u.m.win = s.m.win ∧
          (∃ e', (u.hub hub).entry? r.entry = some e' ∧ e'.tiles = e.tiles ++ [(r.sideB, r.pass, r.rows)] ∧
            (both → e'.fetched = e.fetched) ∧ (¬ both → e'.fetched = e.fetched + 1)) ∧
          (both → (u.hub hub).fetch = some { r with sideB := true, start := none, hit := false, rows := [] }) ∧
          (¬ both → (u.hub hub).fetch = none) ∧
          (r.hit = true → (u.hub hub).operands = h.operands) ∧
          (r.hit = false → h.operands.length < 16 → ∃ o, (u.hub hub).operands = h.operands ++ [o] ∧ o.rows = r.rows ∧
            o.team = t.ref ∧ o.base = t.hsBase + a ∧ o.og = r.og) ∧
          (u.hub hub).locks = (if r.pass + 1 = e.passes
            then h.locks.filter fun l => !(l.owner == e.entry && l.id == (if r.sideB then 1 else 0)) else h.locks))

/-- R176, R244 to R248, R251, R257: the matrix engines and the fetches of code and tiles. -/
def Obligations.EngineWork : Prop :=
  Sys2Proof.Claims.EngineEvents ∧ Sys2Proof.Claims.PassesAndFetchesEnd

/-! ## Events: issue, wakes, resampling -/

/-- R21, R71, R126, R204, R305, R311, R355, R358, R375: a tick of a quarter without a leader issues nothing, and its sitting threads
come one tick nearer; one with a leader stands the packet at its start, or parks its threads where the translation of that
address is not at hand; a packet whose translation is there stands again where it was, and the threads of a fetch issue anew; a new cadence takes effect; a parked thread whose condition holds commits and goes on, a handler's entry, an
exit, a check and a return end as they would have, and one whose condition does not hold stays. -/
def Sys2Proof.Claims.IssueEvents : Prop :=
  ∀ s : State,
    let q : QRef := { hub := s.m.ev.hub, core := s.m.ev.core, quarter := s.m.ev.quarter }
    let b := (s.modify fun m => { m with ticked := m.ticked ++ [q] }).breakHalts q
    (s.m.ev.flag = false → b.leader (b.readyGangs q) = none → exec .pickerTick s = .next (b.countSkips q)) ∧
    (s.m.ev.flag = true → s.dueResumes.find? (·.threads.head? == some s.m.ev.thread) = none → exec .pickerTick s = .next s) ∧
    (∀ r, s.m.ev.flag = true → s.dueResumes.find? (·.threads.head? == some s.m.ev.thread) = some r →
      let wake : Thread → Thread := fun u => if r.threads.contains u.ref && u.wait == .translation then u.wake else u
      let woken := s.modify fun m => { m with resumes := m.resumes.erase r, threads := m.threads.map wake }
      (r.fetch = true → exec .pickerTick s = .next woken) ∧
      (r.fetch = false → ∃ t, exec .pickerTick s = .next t ∧ t.m.packetPc = r.pc ∧ t.m.packetDenied = r.denied ∧
        t.m.resumes = s.m.resumes.erase r ∧ t.m.threads = woken.m.threads ∧
        (∀ u ∈ s.m.threads, u.ref ∈ r.threads → u.wait = .translation → u.halted = false → u.ref ∈ t.m.packet) ∧
        t.mem = s.mem ∧ t.m.win = s.m.win)) ∧
    (∀ g ts, s.m.ev.flag = false → b.leader (b.readyGangs q) = some (g, ts) →
      let got := (b.fetchAt g (packetStart ts).toNat).1
      ∃ t, exec .pickerTick s = .next t ∧ t.mem = s.mem ∧ t.m.win = s.m.win ∧ q ∈ t.m.ticked ∧
      ((∀ va, got ≠ .wait va) → t.m.packetPc = packetStart ts ∧ t.m.packetDenied = none ∧
        ∀ u ∈ ts, u.pc = packetStart ts → u.ref ∈ t.m.packet) ∧
      (∀ va, got = .wait va → t.m.packet = s.m.packet ∧ ∀ u ∈ ts, u.pc = packetStart ts →
        ∃ y, t.thread? u.ref = some y ∧ y.st = .parked 4 ∧ y.wait = .translation ∧ y.pc = u.pc)) ∧
    exec .cadenceTakesEffect s = .next (s.updQuarter q fun x => { x with cadence := x.pending.getD x.cadence, pending := none }) ∧
    (∀ t, s.thread? s.m.ev.thread = some t → t.ref = s.m.ev.thread →
      (s.wakeable t = false → exec .threadWake s = .next s) ∧
      (s.wakeable t = true →
        (t.wait = .none ∨ t.wait = .present ∨ (∃ c, t.wait = .lkwait c) ∨ (∃ a n, t.wait = .tb a n) ∨ t.wait = .acquire [] →
          exec .threadWake s = .next (s.setThread t.commitAll.wake)) ∧
        (∀ n ph p, t.wait = .bar n ph p → exec .threadWake s = .next (s.setThread
          { t.commitAll.wake with arr := t.arr &&& ~~~(1#16 <<< n) })) ∧
        (t.wait = .exit → exec .threadWake s = .next ((s.setThread t.commitAll).endThread t.commitAll false)) ∧
        (t.wait = .gsync → exec .threadWake s = .next (s.modify fun m => { m with
          threads := m.threads.map fun u => if u.ref.gangRef == t.ref.gangRef then u.commitAll.wake else u })) ∧
        (t.wait = .tret → exec .threadWake s = .next (s.setThread t.commitAll.tret)) ∧
        (∀ target next, t.wait = .tackChk target next → exec .threadWake s = .next (s.setThread (t.tackChecked target next).wake)) ∧
        (∀ x d c, t.wait = .trap x d c → exec .threadWake s = .next (s.enterHandler t x d c)))) ∧
    (s.thread? s.m.ev.thread = none → exec .threadWake s = .next s)

/-- R336 to R342, R346: a resample row of a kernel whose population has not all arrived has no effect; an invalid target or
offset, or a frame that is denied, ends the population with POP_MISUSE; weights that sum to zero return the failure to every
thread; else the copies are planned by their counts, and their images are under way; the completion of a move that is not
under way changes nothing, one whose frames are still being written comes again in the next cycle, and else the kernel is
idle, its copies placed. -/
def Sys2Proof.Claims.ResampleEvents : Prop :=
  (∀ (s : State) (k : Kernel) (l : LaunchRec), s.kernel? s.m.ev.kernel = some k → s.launch? s.m.ev.kernel = some l →
    (k.rsmp ≠ .arrived → exec .resample s = .next s) ∧
    (∀ t0 ts a0, k.rsmp = .arrived → s.population s.m.ev.kernel = t0 :: ts → (t0 :: ts).all (·.atRsmp) = true → t0.rsmp = some a0 →
      let kid := s.m.ev.kernel
      let begun := s.updKernel kid fun k => { k with resampled := true }
      let marked := begun.modify fun m => { m with
        threads := m.threads.map fun t => if t.ref.kid == kid then t.markWeight else t }
      let ws := (t0 :: ts).map fun t => (t.rsmp.map (·.weight)).getD 0
      let cs := prefixSums (sanitise ws)
      let u := if a0.draw then Fp.fin false (rng l.seed t0.lineage t0.rngctr).toNat (-32) else f32 a0.offset
      let below := match u with
        | .fin neg m _ => m == 0 || (!neg && u.cmp (.nat 1) < 0)
        | _ => false
      let good := a0.target ≠ 0 ∧ a0.target.toNat ≤ l.cap ∧ below = true
      let total := cs.getLast?.getD (.nat 0)
      let plan := marked.copyPlan (t0 :: ts) (counts cs a0.target.toNat u)
      (a0.target = 0 ∨ l.cap < a0.target.toNat ∨ (a0.draw = false ∧ ((f32 a0.offset).isNan = true)) →
        exec .resample s = .next (begun.endPopulation k (t0 :: ts) 0)) ∧
      (¬ good → exec .resample s = .next (begun.endPopulation k (t0 :: ts) 0)) ∧
      (good → total.isZero = true →
        exec .resample s = .next (marked.rsmpFails k (t0 :: ts) (ws.any weightBad) a0.draw)) ∧
      (∀ addr v, good → total.isZero = false → marked.framePages k l plan = (.error addr, v) →
        exec .resample s = .next (v.endPopulation k (t0 :: ts) (addr57 (BitVec.ofNat 64 addr)))) ∧
      (∀ pages v, good → total.isZero = false → marked.framePages k l plan = (.ok pages, v) →
        ∃ t k', exec .resample s = .next t ∧ t.kernel? kid = some k' ∧ k'.rsmp = .resampling ∧ k'.plan = plan ∧
          k'.resampled = true ∧ (∃ f ∈ t.m.flight, f.msg = .rsmpDone kid) ∧
          ∀ x ∈ s.m.threads, x.ref.kid = kid → (¬ ∃ p ∈ plan, p.parent.ref = x.ref) → t.thread? x.ref = none))) ∧
  ∀ (s : State) (kid : Nat) (k : Kernel) (l : LaunchRec), carries s (.rsmpDone kid) → s.kernel? kid = some k → s.launch? kid = some l →
    k.kid = kid →
    (k.rsmp ≠ .resampling → (taken s).unitBusy (.frames kid) = false → exec .resampleComplete s = .next (taken s)) ∧
    ((taken s).unitBusy (.frames kid) = true →
      exec .resampleComplete s = .next ((taken s).sendAt (s.m.cycle + 1) (.rsmpDone kid))) ∧
    (k.rsmp = .resampling → (taken s).unitBusy (.frames kid) = false → ∃ t k', exec .resampleComplete s = .next t ∧ t.kernel? kid = some k' ∧ k'.rsmp = .idle ∧ k'.plan = [] ∧
      t.mem = s.mem)

/-- R21, R71, R126, R305, R311, R336, R340, R341, R346, R355, R358: issue, and the resampling of a population. -/
def Obligations.IssueAndResampling : Prop :=
  Sys2Proof.Claims.IssueEvents ∧ Sys2Proof.Claims.ResampleEvents

/-! ## Events: counters, samples, errors, energy -/

/-- R157, R158, R412, R416 to R418, R422, R427: a counter that is cleared reads zero; the sampling period of every hub doubles,
halves or stays by its entries; a completed sample leaves its entry with one record; the epoch's energy is summed, the grant
steps by it, and every context starts at zero; the thermal cap is held between 1 and 16; an uncorrectable error of a register, a
scratchpad, an accumulator, an L2 sector or memory poisons it, one of a translation drops it, one of a tack entry strikes it,
one of any other array ends the thread's team, and one record is written or counted as dropped; a clean L1 sector has its
home's bytes again, with the hub's own write-backs on their way. The array code of another array's record is a free value (log entry 114). -/
def Obligations.MeasureEvents : Prop :=
  ∀ s : State,
    let e := s.m.ev
    exec .counterClear s = .next { s with hcnt := s.hcnt.filter (·.1 != (e.hub, e.index)) } ∧
    (∃ t, exec .samplePeriodTest s = .next t ∧ t.mem = s.mem ∧ ∀ n ∈ allHubs,
      let h := s.hub n
      (t.hub n).samplePeriod = if 48 < h.samples.length then Nat.min (2 * h.samplePeriod) (2 ^ 20)
        else if h.samples.length < 16 then Nat.max (h.samplePeriod / 2) 64 else h.samplePeriod) ∧
    (∀ x, ((s.hub e.hub).samples.find? fun x => x.index == e.index && x.finish.isSome) = some x → (s.hub e.hub).hub = e.hub →
      ∃ t r, exec .sampledAccessComplete s = .next t ∧ t.m.traces = s.m.traces ++ [r] ∧ r.src = 7 ∧ r.lineage = x.acc.lineage ∧
        (t.hub e.hub).samples = (s.hub e.hub).samples.filter (·.index != e.index) ∧ t.mem = s.mem) ∧
    (((s.hub e.hub).samples.find? fun x => x.index == e.index && x.finish.isSome) = none →
      exec .sampledAccessComplete s = .next s) ∧
    (∃ t, exec .epochEnd s = .next t ∧ t.m.threads = s.m.threads ∧ t.mem = s.mem ∧
      (let total := (s.m.contexts.toList.map (·.epochEnergy)).sum / 10 ^ 9
        let budget := s.m.pwrbud * 65536 / 1050
        t.m.eprev = BitVec.ofNat 64 total ∧ (∀ c ∈ t.m.contexts.toList, c.epochEnergy = 0) ∧
        t.m.grant = if budget < total then Nat.max (s.m.grant - 1) 1
          else if total < 7 * budget / 8 then Nat.min (s.m.grant + 1) 16 else s.m.grant)) ∧
    (∃ t, exec .thermalLimit s = .next t ∧ t.m.tcap = Nat.min (Nat.max (e.item.desc.toNat / 256 % 32) 1) 16 ∧
      t.m.threads = s.m.threads ∧ t.mem = s.mem) ∧
    (∀ r k t g, e.unit = .threadReg r k → s.thread? r = some t → t.ref = r → s.gangOf t = some g →
      ∃ u t', exec .uncorrectableError s = .next u ∧ u.thread? r = some t' ∧ k ∈ t'.poison ∧ t'.v = t.v) ∧
    (∀ r k g, e.unit = .gangReg r k → s.gang? r = some g → g.ref = r →
      ∃ u g', exec .uncorrectableError s = .next u ∧ u.gang? r = some g' ∧ k ∈ g'.poison ∧ g'.g = g.g) ∧
    (∀ pa, e.unit = .hbm pa ∨ e.unit = .ddr pa →
      ∃ u, exec .uncorrectableError s = .next u ∧ lineOf pa ∈ u.memPoison ∧ u.m.threads = s.m.threads ∧
      (if s.mgmt.elogtail - s.mgmt.eloghead = s.mgmt.elogsize then u.mgmt.elogtail = s.mgmt.elogtail ∧ u.mem = s.mem
        else u.mgmt.elogtail = s.mgmt.elogtail + 1)) ∧
    (∀ w, e.unit = .hubScratch w ∨ e.unit = .coreScratch w ∨ e.unit = .accumulator w →
      ∃ u, exec .uncorrectableError s = .next u ∧ w / 8 ∈ u.m.winPoison ∧ u.m.win = s.m.win ∧ u.m.threads = s.m.threads) ∧
    (∀ slice pa k, e.unit = .l2 slice pa k → k < 4 → ∃ u, exec .uncorrectableError s = .next u ∧ u.m.threads = s.m.threads ∧
      ∀ l ∈ u.m.l2, l.slice = slice → l.pa = lineOf pa → l.poison.getLsbD k = true) ∧
    (∀ hub pa k, e.unit = .l1Data hub pa k → exec .uncorrectableError s = .next
      ((s.l1DataError hub pa k).logHub (lineOf pa + 32 * k) 3 (if s.l1Dirty hub pa k then 1 else 2) hub)) ∧
    (∀ hub pa, e.unit = .l1Tag hub pa →
      exec .uncorrectableError s = .next ((s.l1TagError hub pa).logHub (lineOf pa) 4 1 hub)) ∧
    (∀ hub ctx page, e.unit = .translation hub ctx page → ∃ u, exec .uncorrectableError s = .next u ∧
      (u.hub hub).tlb2 = (s.hub hub).tlb2.filter (fun x => !(x.ctx == ctx && x.covers (page * 4096))) ∧
      u.m.threads = s.m.threads) ∧
    (∀ hub core i x, e.unit = .tack hub core i → ((s.hub hub).cores.toArray.getD core Core.fresh).tacks[i]? = some x →
      ∃ u, exec .uncorrectableError s = .next u ∧ (∃ f ∈ u.m.flight, f.msg = .tackReply hub core x.tok false) ∧
        u.m.threads = s.m.threads) ∧
    (∀ r a t, e.unit = .other r a → s.thread? r = some t →
      let hub := ((s.gangOf t).map (·.hub)).getD 0
      exec .uncorrectableError s = .next
        (((s.freeBytes 1).2.logHub a (fieldAt (s.freeBytes 1).1 0 1) 1 hub).fatal t Cause.memError t.pc (BitVec.ofNat 64 a) false 0 0)) ∧
    ((∀ hub pa k, e.unit ≠ .l1Data hub pa k) → exec .cleanRefetch s = .next s) ∧
    (∀ hub pa k, e.unit = .l1Data hub pa k →
      (s.l1Dirty hub pa k = true → exec .cleanRefetch s = .next s) ∧
      (s.l1Dirty hub pa k = false → exec .cleanRefetch s = .next
        ((s.l1DataError hub pa k).logHub (lineOf pa + 32 * k) 3 2 hub) ∧
        ∀ l, (s.hub hub).anyLine pa = some l → k < 4 → l.place = .here → ∃ u l', exec .cleanRefetch s = .next u ∧
          (u.hub hub).line? .here l.pa = some l' ∧ l'.sector k = s.refetched hub l k ∧ (l'.sector k).mask = 0 ∧
          (s.backsOf hub l.pa k = [] → (l'.sector k).data = sectorOfBytes (s.homeRead (l.pa + 32 * k) 32))))

/-! ## Encoding (R47 to R54, R63, R68 to R70) -/

/-- R47, R48, R50, R63: every word of a well-formed instruction is read back as that instruction, with every operand at every
value its field holds. -/
def Obligations.DecodeOfEncode : Prop :=
  ∀ i : Instr, i.isEvent = false → i.wellFormed = true → decodeList (encode i) = .ok i

/-- R47, R48, R50, R63, R69, R70: what the decoder accepts is well formed, and its words are the ones read: no bit of them is
dropped. -/
def Obligations.EncodeOfDecode : Prop :=
  ∀ (ws : List Word) (i : Instr), decodeList ws = .ok i →
    i.wellFormed = true ∧ i.isEvent = false ∧ encode i = (List.range (encode i).length).map fun k => ws.getD k 0

/-- R444's words, and further words written out from R47 to R53, stand for the instructions that the spec names. -/
def Obligations.WordsOfTheSpecDecode : Prop :=
  decodeList [0x15408400] = .ok (.srd { s := false, d := 1, a := 4, b := 0, m := false, lit := none }) ∧
  decodeList [0x86C1A000, 0x01000020, 2] = .ok (.leaExt { s := false, d := 6, a := 0x80, sub := 0, b := 1, c := 0, n := false, p := 0
                                                          rnd := 0, fmt := 1, scope := 0, ord := 0, imm := 2, lit := none }) ∧
  decodeList [0x360406E0] = .ok (.ld { s := true, d := 8, a := 6, b := 0x70, m := false, lit := none }) ∧
  decodeList [0xB6830280, 0x71000028, 0] = .ok (.atom { s := true, d := 12, a := 10, sub := 0, b := 0x71, c := 0, n := false, p := 0
                                                        rnd := 0, fmt := 1, scope := 2, ord := 0, imm := 0, lit := none }) ∧
  decodeList [0x16460EE0] = .ok (.st { s := false, d := 12, a := 14, b := 0x70, m := false, lit := none }) ∧
  decodeList [0x178104E0] = .ok (.pres { s := false, d := 2, a := 4, b := 0x70, m := false, lit := none }) ∧
  decodeList [0x17C00000] = .ok (.sfence { s := false, d := 0, a := 0, b := 0, m := false, lit := none }) ∧
  decodeList [0x1F8004C8] = .ok (.sysCad { s := false, d := 0, a := 4, b := 0x64, m := false, lit := none })

/-! ## The step (R18 to R20, R121, R428) -/

namespace Sys2Proof.Claims

/-- A module that runs, with a packet standing at its program counter: t is the packet's first thread, and g its gang. -/
def standing (s : State) (t : Thread) (g : Gang) : Prop :=
  s.m.bringUp = 1 ∧ s.frozen = false ∧ s.m.packet.head? = some t.ref ∧ s.thread? t.ref = some t ∧ s.gangOf t = some g ∧
  s.m.packetPc.toNat < 2 ^ 57

/-- The states agree but for the code words that kernels have fetched (R293) and the recency of the first level's translations
that the fetch has used (R372). -/
def sameButFetched (s t : State) : Prop :=
  let blank := fun (c : Core) => { c with tlb := c.tlb.map fun (e : Tlb) => { e with use := 0 } }
  t = { s with m := { s.m with kernels := t.m.kernels, hubs := t.m.hubs, nextId := t.m.nextId } } ∧
  t.m.kernels.map (fun k => { k with fetched := [] }) = s.m.kernels.map (fun k => { k with fetched := [] }) ∧
  ∀ n, t.hub n = { s.hub n with cores := (t.hub n).cores } ∧ (t.hub n).cores.map blank = (s.hub n).cores.map blank

/-- How many words the instruction that begins with this word has (R47). -/
def wordCount (w0 : Word) : Nat := 1 + (if isExt w0 then 2 else 0) + (if hasLit w0 then 2 else 0)

/-- The address of word k of the packet's instruction, in the 57-bit address space (log entry 96). -/
def wordAddress (s : State) (k : Nat) : Nat := (s.m.packetPc.toNat + 4 * k) % 2 ^ 57

/-- The address that a fault of the fetch of word k reports: that of the word, or of the literal that it is part of (R121). -/
def faultAddress (s : State) (w0 : Word) (k : Nat) : Nat :=
  wordAddress s (if hasLit w0 = true ∧ k + 1 = wordCount w0 ∧ 0 < k then k - 1 else k)

end Sys2Proof.Claims

/-- R47, R71, R121, R293: where the words at the packet's program counter are those of a well-formed instruction i, one step is exec
of i, after which the packet has issued; and a word is fetched from memory where the page is mapped executable in this
module, and the kernel has fetched nothing else there. -/
def Sys2Proof.Claims.StepRunsDecodedInstruction : Prop :=
  (∀ (s : State) (t : Thread) (g : Gang) (i : Instr), standing s t g → i.isEvent = false → i.wellFormed = true →
    (∀ k < (encode i).length, s.codeWord g.hub g.core (s.ctxOf t.ref.kid) t.ref.kid (wordAddress s k) =
      .words [(encode i).getD k 0]) →
    ∃ u, sameButFetched s u ∧ step s = (match exec i u with
      | .next v => .next v.endPacket
      | .fault f => .fault f
      | .refused r => .refused r)) ∧
  ∀ (s : State) (hub core ctx kid va : Nat) (e : Tlb), s.xlat hub core ctx va = .hit e → e.x = true → e.place = .here →
    let w := BitVec.ofNat 32 (natOfBytes (s.homeRead (e.target va) 4))
    (∀ k, s.kernel? kid = some k → ∀ f ∈ k.fetched, f.1 = va → f.2 = w) → s.codeWord hub core ctx kid va = .words [w]

/-- R70, R71, R121, R306, R375: where the words at the program counter do not decode, or the fetch of one faults, the step is the
trap of the packet's threads, with the words fetched before it; where the fetch of a word waits for its translation, they park
with reason 4 at their addresses; and the packet has issued. -/
def Sys2Proof.Claims.StepTrapsOnBadFetch : Prop :=
  ∀ (s : State) (t : Thread) (g : Gang) (ws : List Word), standing s t g →
    let word := fun (k : Nat) => s.codeWord g.hub g.core (s.ctxOf t.ref.kid) t.ref.kid (wordAddress s k)
    let w0 := ws.getD 0 0
    (∀ k < ws.length, word k = .words [ws.getD k 0]) →
    (∀ why x, ws.length = wordCount w0 → decodeList ws = .illegal why x →
      ∃ u, sameButFetched s u ∧ step s = .next (u.illegal ws why).endPacket) ∧
    (ws = [] ∨ ws.length < wordCount w0 →
      (∀ cause, word ws.length = .bad cause → ∃ u, sameButFetched s u ∧
        step s = .next (u.fetchFault cause (if ws = [] then s.m.packetPc.toNat else faultAddress s w0 ws.length) ws).endPacket) ∧
      (word ws.length = .wait → ∃ u, step s = .next u ∧ u.m.packet = [] ∧ u.mem = s.mem ∧ u.m.win = s.m.win ∧
        ∀ r ∈ s.m.packet, ∀ x, s.thread? r = some x → ∃ y, u.thread? r = some y ∧ y.st = .parked 4 ∧ y.wait = .translation ∧
          y.pc = x.pc ∧ y.v = x.v ∧ y.p = x.p))

/-- R47, R70, R71, R121, R293: the step fetches, decodes and runs the instruction at the packet's program counter, or
takes the trap of a bad fetch. -/
def Obligations.StepFetchesAndRuns : Prop :=
  Sys2Proof.Claims.StepRunsDecodedInstruction ∧ Sys2Proof.Claims.StepTrapsOnBadFetch

/-- R18 to R20, R178, R396, R404: with no packet standing, the row at the head of the agenda acts with its operands, and the rest of the agenda
stays behind it; at the end of the last part the next cycle begins, or the module freezes when it must. That the parts of a
cycle come in this order is a choice of the model (log entry 6). -/
def Obligations.StepRunsAgenda : Prop :=
  ∀ s : State, s.m.bringUp = 1 → s.frozen = false → s.m.packet = [] →
    (∀ (i : Instr) (e : Event) (rest : List (Instr × Event)), s.m.agenda = (i, e) :: rest → e.item.kind = 0 →
      step s = exec i (s.modify fun m => { m with agenda := rest, ev := e })) ∧
    (s.m.agenda = [] → 22 < s.m.phase →
      (s.freezeDue = false → step s = .next (s.modify fun m =>
        { m with cycle := m.cycle + 1, phase := 0, agenda := [], before := [], ticked := [], registered := false
                 hubs := m.hubs.map fun h => { h with locks := h.locks.filter (·.ended.isNone) } })) ∧
      (s.freezeDue = true → step s = .next (s.modify fun m => { m with agenda := [(.freeze, {})] })))

/-- R428: a module whose bring-up has halted stops, until a reset or a power-on waits at its pins. -/
def Sys2Proof.Claims.HaltedBringUpStops : Prop :=
  ∀ s : State, s.m.bringUp = 2 →
    ((s.inbox.all fun i => (i.other.filter resets).isNone) = true → step s = .fault .bringUpHalted) ∧
    ∀ x e, s.inbox = [x] → x.other = some (.powerOn, e) → e.item.kind = 0 →
      step s = .next { State.reset with inbox := [], outbox := s.outbox }

/-- R20, R396, R398, R428, R429, R460: the resets, and the bring-up that has halted. -/
def Obligations.ResetAndHalt : Prop :=
  Sys2Proof.Claims.ResetEvents ∧ Sys2Proof.Claims.HaltedBringUpStops

/-! ## Reset and the invariant -/

/-- R15, R21, R260, R278, R294, R382, R383, R394, R398, R402, R403, R421, R460: the state after reset: cycle 0, nothing listed in
memory, no kernel, team, gang or thread, every context FREE, no queue but DISABLED ones, every port DISABLED, the stamp log
off with HORIZON all ones, STOPCYC all ones, and the planner's registers. One partition of eight dies is a choice of the
model (log entry 11). -/
def Sys2Proof.Claims.ResetState : Prop :=
  let s := State.reset
  s.m.cycle = 0 ∧ s.mem = [] ∧ s.m.win = [] ∧ s.memPoison = [] ∧ s.m.kernels = [] ∧ s.m.teams = [] ∧ s.m.gangs = [] ∧
  s.m.threads = [] ∧ (∀ n < 64, (s.context n).st = .free ∧ (s.context n).num = n) ∧ (∀ n, (s.queue n).st = .disabled) ∧
  s.m.links.length = 45 ∧ (∀ l ∈ s.m.links, l.st = 0 ∧ l.errcnt = 0) ∧ s.slog.mode = 0 ∧ s.slog.ovf = false ∧
  s.slog.horizon = BitVec.allOnes 64 ∧ s.slog.refused = 0 ∧ s.slog.outsum = 0 ∧ s.mgmt.stopcyc = BitVec.allOnes 64 ∧
  s.mgmt.frzst = 0 ∧ s.frozen = false ∧ s.m.pwrbud = 3000 ∧ s.m.grant = 16 ∧ s.m.tcap = 16 ∧ s.m.eprev = 0 ∧
  s.m.page.hintthr = 256 ∧ s.m.page.hinten = false ∧ s.m.seq = 0 ∧ s.hcnt = [] ∧ s.modnum = 0 ∧ s.m.refmod = 0 ∧
  s.m.layout = [8] ∧ ∀ q, (s.quarter q).cadence = 16

/-- Every byte memory of the reset state stands in its canonical form, and FST says that the module is not frozen. -/
def Sys2Proof.Claims.InvariantAtReset : Prop := State.reset.canonical = true ∧ State.reset.freezeShown = true

/-- R15, R21, R260, R278, R294, R382, R383, R394, R398, R402, R403, R421, R460: the state after reset, and that the
invariants hold there. -/
def Obligations.ResetStateAndInvariant : Prop :=
  Sys2Proof.Claims.ResetState ∧ Sys2Proof.Claims.InvariantAtReset

/-- R138, R139, R144, R391, R393, R406: in every state, also one that no run reaches, a step keeps the byte memories in their
canonical form, HBM4 and DDR-5, the routing table, the windows, the debug registers and the images. The form is the model's
own; it makes equal memories equal states. -/
def Obligations.EveryStepKeepsMemoriesCanonical : Prop :=
  ∀ s t : State, s.canonical = true → step s = .next t → t.canonical = true

/-- The memory operations: a byte written is read back, every other address reads as before, and the form is kept; what nothing
has written reads 0 (log entry 2). -/
def Obligations.MemoryReadAfterWrite : Prop :=
  (∀ a : Nat, Memory.read [] a = 0) ∧
  ∀ (m : Memory) (a : Nat) (bs : List Byte), m.wf = true →
    (Memory.writeBytes m a bs).wf = true ∧
    (∀ k < bs.length, Memory.read (Memory.writeBytes m a bs) (a + k) = bs.getD k 0) ∧
    (∀ x, (x < a ∨ a + bs.length ≤ x) → Memory.read (Memory.writeBytes m a bs) x = Memory.read m x) ∧
    ∀ m' : Memory, m'.wf = true → (∀ x, Memory.read m' x = Memory.read m x) → m' = m

/-- R70, R72, R76: what the assembler answers for an instruction of a line is the words of one well-formed instruction; a
guard that is written chooses the extended form; a `!` at the end, and nothing else, sets S; and a literal that the loader
relocates is the last two words. -/
def Obligations.AssembledInstructions : Prop :=
  ∀ (env : Biras.Names) (here : Nat) (ts : List Biras.Token) (e : Biras.Emitted),
    Biras.instruction env here ts = some e →
    (∃ i : Instr, decodeList e.words = .ok i ∧ i.wellFormed = true ∧ encode i = e.words) ∧
    (ts.head? = some (.punct '(') → isExt (e.words.getD 0 0) = true) ∧
    (e.words.getD 0 0).getLsbD 29 = (ts.getLast? == some (.punct '!')) ∧
    ∀ off b, e.reloc = some (off, b) → off + 8 = 4 * e.words.length ∧ hasLit (e.words.getD 0 0) = true

/-- A bit of an image, as Ixsor numbers it; a bit that the image lacks reads false. -/
def Sys2Proof.Claims.imageBit (x : Ixsor.Sections) (p : Ixsor.BitPlace) : Bool :=
  ((x.sections.getD p.sect []).getD (p.bit / 8) 0).getLsbD (p.bit % 8)

/-- R408: Ixsor reports the bits that differ and no others, in scan order, and those of the first differing section when
asked; and its bisection returns a cycle at which the runs differ and before which they agree, the first one where runs that
have diverged stay apart. -/
def Obligations.IxsorFindsDifferences : Prop :=
  (∀ x y : Ixsor.Sections, x.mapid = y.mapid → x.sections.length = y.sections.length →
    ∃ l, Ixsor.compare false x y = some l ∧
      (∀ p, p ∈ l ↔ Sys2Proof.Claims.imageBit x p ≠ Sys2Proof.Claims.imageBit y p) ∧
      l.Pairwise (fun p q => p.sect < q.sect ∨ p.sect = q.sect ∧ p.bit < q.bit) ∧
      Ixsor.compare true x y = some (l.filter fun p => l.head?.any fun q => p.sect == q.sect)) ∧
  ∀ (a b : Nat → Ixsor.Sections) (lo hi : Nat), lo < hi → a lo = b lo → a hi ≠ b hi →
    let c := Ixsor.firstDivergence a b lo hi
    lo < c ∧ c ≤ hi ∧ a (c - 1) = b (c - 1) ∧ a c ≠ b c ∧ (Ixsor.divergence a b lo hi).1 = c ∧
    (Ixsor.divergence a b lo hi).2 = Ixsor.compare false (a c) (b c) ∧
    ((∀ x y, lo ≤ x → x ≤ y → y ≤ hi → a x ≠ b x → a y ≠ b y) → ∀ x, lo ≤ x → x < c → a x = b x)
end

