-- ==== Sys2Proof/Laws/Issue.lean ====
section
/-! SUPPORT. What one instruction does to the threads of its packet: the fold over the packet is one change of every
thread in it. -/

namespace Sys2Proof.Machine

/-- The state with another list of threads. -/
def State.withThreads (s : State) (ts : List Thread) : State := s.modify fun m => { m with threads := ts }

theorem State.withThreads_threads (s : State) : s.withThreads s.m.threads = s := rfl
@[simp] theorem State.withThreads_m_threads (s : State) (ts : List Thread) : (s.withThreads ts).m.threads = ts := rfl
@[simp] theorem State.withThreads_m_packet (s : State) (ts : List Thread) : (s.withThreads ts).m.packet = s.m.packet := rfl
@[simp] theorem State.withThreads_m_gangs (s : State) (ts : List Thread) : (s.withThreads ts).m.gangs = s.m.gangs := rfl
@[simp] theorem State.withThreads_m_kernels (s : State) (ts : List Thread) : (s.withThreads ts).m.kernels = s.m.kernels := rfl
theorem State.withThreads_setThread (s : State) (ts : List Thread) (t : Thread) :
    (s.withThreads ts).setThread t = s.withThreads (updBy (·.ref == t.ref) (fun _ => t) ts) := rfl
@[simp] theorem State.withThreads_lane (s : State) (ts : List Thread) (c : Code) (t : Thread) :
    (s.withThreads ts).lane c t = s.lane c t := rfl
@[simp] theorem State.withThreads_outOfRange (s : State) (ts : List Thread) (c : Code) (t : Thread) :
    (s.withThreads ts).outOfRange c t = s.outOfRange c t := rfl
@[simp] theorem State.withThreads_poisonRead (s : State) (ts : List Thread) (c : Code) (t : Thread) :
    (s.withThreads ts).poisonRead c t = s.poisonRead c t := rfl

/-- Changing every entry with a key in a list with distinct keys. -/
theorem updBy_eq_map {ts : List Thread} (hn : (ts.map (·.ref)).Nodup) {r : ThreadRef} {t : Thread}
    (ht : ts.find? (·.ref == r) = some t) (g : Thread → Thread) :
    updBy (·.ref == t.ref) (fun _ => g t) ts = ts.map fun u => if u.ref = r then g u else u := by
  have hr : t.ref = r := by simpa using List.find?_some ht
  unfold updBy
  refine List.map_congr_left fun u hu => ?_
  by_cases h : u.ref = r
  · have hut : u = t := by
      have hm : t ∈ ts := List.mem_of_find?_eq_some ht
      exact List.inj_on_of_nodup_map hn hu hm (h.trans hr.symm)
    simp [hut, hr]
  · have : ¬ u.ref = t.ref := by rw [hr]; exact h
    simp [h, this]

/-- A fold over names, each of which changes its own thread, changes every named thread. -/
theorem foldl_threads (s : State) (body : State → Thread → State) (g : Thread → Thread)
    (hg : ∀ t, (g t).ref = t.ref) (l : List ThreadRef) (ts : List Thread) (hl : l.Nodup)
    (hn : (ts.map (·.ref)).Nodup)
    (hb : ∀ ts' t, t ∈ ts → t.ref ∈ l → body (s.withThreads ts') t = (s.withThreads ts').setThread (g t)) :
    l.foldl (fun s r => match s.thread? r with
      | some t => body s t
      | none => s) (s.withThreads ts)
      = s.withThreads (ts.map fun t => if l.contains t.ref then g t else t) := by
  induction l generalizing ts with
  | nil => simp
  | cons r rs ih =>
    obtain ⟨hr, hrs⟩ := List.nodup_cons.mp hl
    simp only [List.foldl_cons]
    cases hf : ts.find? (·.ref == r) with
    | none =>
      have hno : ∀ t ∈ ts, t.ref ≠ r := by simpa using hf
      have h1 : (s.withThreads ts).thread? r = none := hf
      simp only [h1]
      rw [ih ts hrs hn (fun ts' t ht hm => hb ts' t ht (by simp [hm]))]
      congr 1
      refine List.map_congr_left fun t ht => ?_
      simp [hno t ht]
    | some t =>
      have h1 : (s.withThreads ts).thread? r = some t := hf
      have hm : t ∈ ts := List.mem_of_find?_eq_some hf
      have hr' : t.ref = r := by simpa using List.find?_some hf
      simp only [h1]
      rw [hb ts t hm (by simp [hr']), State.withThreads_setThread, hg t, updBy_eq_map hn hf g]
      have hrefs : ((ts.map fun u => if u.ref = r then g u else u).map (·.ref)) = ts.map (·.ref) := by
        rw [List.map_map]
        refine List.map_congr_left fun u _ => ?_
        simp only [Function.comp]
        split
        · exact hg u
        · rfl
      rw [ih _ hrs (by rw [hrefs]; exact hn)]
      · congr 1
        rw [List.map_map]
        refine List.map_congr_left fun u hu => ?_
        simp only [Function.comp]
        by_cases hur : u.ref = r
        · have : ¬ r ∈ rs := hr
          simp [hur, hg, this]
        · simp [hur]
      · intro ts' u hu hmem
        obtain ⟨v, hv, rfl⟩ := List.mem_map.mp hu
        by_cases hvr : v.ref = r
        · simp only [hvr, if_true] at hmem
          rw [hg, hvr] at hmem
          exact absurd hmem hr
        · simp only [hvr, if_false] at hmem ⊢
          exact hb ts' v hv (by simp [hmem])

/-- An instruction whose body sets its own thread changes every thread of the packet so, and nothing else. -/
theorem State.eachThread_eq (s : State) (body : State → Thread → State) (g : Thread → Thread)
    (hg : ∀ t, (g t).ref = t.ref) (hp : s.m.packet.Nodup) (hn : (s.m.threads.map (·.ref)).Nodup)
    (hb : ∀ ts t, t ∈ s.m.threads → t.ref ∈ s.m.packet → body (s.withThreads ts) t = (s.withThreads ts).setThread (g t)) :
    s.eachThread body = s.modify fun m =>
      { m with threads := m.threads.map fun t => if m.packet.contains t.ref then g t else t } :=
  foldl_threads s body g hg s.m.packet s.m.threads hp hn hb

/-- A thread found by its name. -/
theorem State.thread?_of_mem {s : State} (hn : (s.m.threads.map (·.ref)).Nodup) {t : Thread} (ht : t ∈ s.m.threads) :
    s.thread? t.ref = some t := by
  unfold State.thread?
  cases hf : s.m.threads.find? (·.ref == t.ref) with
  | none => exact ((List.find?_eq_none.mp hf t ht) (by simp)).elim
  | some u =>
    have hu : u ∈ s.m.threads := List.mem_of_find?_eq_some hf
    have : u.ref = t.ref := by simpa using List.find?_some hf
    exact congrArg some (List.inj_on_of_nodup_map hn hu ht this)

/-- Two settings of one thread are the second. -/
@[simp] theorem State.setThread_setThread (s : State) (t u : Thread) (h : u.ref = t.ref) :
    (s.setThread t).setThread u = s.setThread u := by
  unfold State.setThread State.modify updBy
  simp only [List.map_map]
  congr 2
  refine List.map_congr_left fun v _ => ?_
  simp only [Function.comp, h]
  by_cases hv : v.ref = t.ref <;> simp [hv]

/-- An instruction with an immediate effect g in a thread where the guard is true, the registers are held and none read is
poisoned; with a window open it is no release form. -/
theorem State.runThread_setThread (s : State) (c : Code) (body : State → Thread → State) (g : Thread → Thread)
    (t : Thread) (hg : (g t).ref = t.ref)
    (hr : guardTrue c.fields t = true → s.outOfRange c t = false ∧ Code.barred c t = false ∧ s.poisonRead c t = none)
    (hb : guardTrue c.fields t = true → body (s.setThread t) t = (s.setThread t).setThread (g t)) :
    s.runThread c false body t = s.setThread (if guardTrue c.fields t then g t else t.finish c) := by
  unfold State.runThread
  by_cases h : guardTrue c.fields t
  · obtain ⟨h1, hw, h2⟩ := hr h
    have h1' : (s.setThread t).outOfRange c t = false := h1
    have h2' : (s.setThread t).poisonRead c t = none := h2
    simp [h, h1', hw, h2', hb h, hg]
  · simp [h]

/-- The same in the packet. -/
theorem State.run_eq (s : State) (c : Code) (body : State → Thread → State) (g : Thread → Thread)
    (hg : ∀ t, (g t).ref = t.ref) (hf : ∀ t : Thread, (t.finish c).ref = t.ref)
    (hp : s.m.packet.Nodup) (hn : (s.m.threads.map (·.ref)).Nodup)
    (hr : ∀ t, t ∈ s.m.threads → t.ref ∈ s.m.packet → guardTrue c.fields t = true →
      s.outOfRange c t = false ∧ Code.barred c t = false ∧ s.poisonRead c t = none)
    (hb : ∀ ts t, t ∈ s.m.threads → t.ref ∈ s.m.packet → guardTrue c.fields t = true →
      body ((s.withThreads ts).setThread t) t = ((s.withThreads ts).setThread t).setThread (g t)) :
    s.run c body = s.modify fun m =>
      { m with threads := m.threads.map fun t =>
                 if m.packet.contains t.ref then (if guardTrue c.fields t then g t else t.finish c) else t } := by
  unfold State.run
  refine s.eachThread_eq _ (fun t => if guardTrue c.fields t then g t else t.finish c) (fun t => ?_) hp hn ?_
  · split
    · exact hg t
    · exact hf t
  · intro ts t ht hm
    exact State.runThread_setThread _ c body g t (hg t) (fun h => hr t ht hm h) (fun h => hb ts t ht hm h)

/-- Setting a thread to what it is changes nothing. -/
theorem State.setThread_self {s : State} (hn : (s.m.threads.map (·.ref)).Nodup) {t : Thread}
    (ht : s.thread? t.ref = some t) : s.setThread t = s := by
  have h := updBy_eq_map hn ht fun u => u
  have h2 : updBy (·.ref == t.ref) (fun _ => t) s.m.threads = s.m.threads := by rw [h]; simp
  exact (congrArg s.withThreads h2 :)

/-- The fold over a packet of one thread. -/
theorem State.eachThread_one {s : State} {body : State → Thread → State} {t : Thread} (hp : s.m.packet = [t.ref])
    (ht : s.thread? t.ref = some t) : s.eachThread body = body s t := by
  unfold State.eachThread
  rw [hp, List.foldl_cons, List.foldl_nil, ht]

/-- An instruction in a packet of one thread in which it may act. -/
theorem State.run_one {s : State} {c : Code} {body : State → Thread → State} {defers : Bool} {t : Thread}
    (hn : (s.m.threads.map (·.ref)).Nodup) (hp : s.m.packet = [t.ref]) (ht : s.thread? t.ref = some t)
    (hg : guardTrue c.fields t = true) (hr : s.outOfRange c t = false) (hw : Code.barred c t = false)
    (hq : s.poisonRead c t = none) (hd : defers = true → t.pend.length < 8) : s.run c body defers = body s t := by
  have h8 : (defers && decide (8 ≤ t.pend.length)) = false := by
    cases defers
    · rfl
    · have := hd rfl
      simp; omega
  unfold State.run
  rw [State.eachThread_one hp ht]
  unfold State.runThread
  simp [hg, h8, State.setThread_self hn ht, hr, hw, hq]

/-- A register that the gang does not hold (R23). -/
theorem State.run_outOfRange {s : State} {c : Code} {body : State → Thread → State} {defers : Bool} {t : Thread}
    (hn : (s.m.threads.map (·.ref)).Nodup) (hp : s.m.packet = [t.ref]) (ht : s.thread? t.ref = some t)
    (hg : guardTrue c.fields t = true) (hr : s.outOfRange c t = true) (hd : defers = true → t.pend.length < 8) :
    s.run c body defers = s.raiseAt t c { cause := Cause.regRange } := by
  have h8 : (defers && decide (8 ≤ t.pend.length)) = false := by
    cases defers
    · rfl
    · have := hd rfl
      simp; omega
  unfold State.run
  rw [State.eachThread_one hp ht]
  unfold State.runThread
  simp [hg, h8, State.setThread_self hn ht, hr]

/-- A release form with a window open (R206). -/
theorem State.run_barred {s : State} {c : Code} {body : State → Thread → State} {defers : Bool} {t : Thread}
    (hn : (s.m.threads.map (·.ref)).Nodup) (hp : s.m.packet = [t.ref]) (ht : s.thread? t.ref = some t)
    (hg : guardTrue c.fields t = true) (hr : s.outOfRange c t = false) (hw : Code.barred c t = true)
    (hd : defers = true → t.pend.length < 8) :
    s.run c body defers = s.raiseAt t c { cause := Cause.tackRelease } := by
  have h8 : (defers && decide (8 ≤ t.pend.length)) = false := by
    cases defers
    · rfl
    · have := hd rfl
      simp; omega
  unfold State.run
  rw [State.eachThread_one hp ht]
  unfold State.runThread
  simp [hg, h8, State.setThread_self hn ht, hr, hw]

/-- A poisoned register that is read (R157). -/
theorem State.run_poison {s : State} {c : Code} {body : State → Thread → State} {defers : Bool} {t : Thread} {a : Dword}
    (hn : (s.m.threads.map (·.ref)).Nodup) (hp : s.m.packet = [t.ref]) (ht : s.thread? t.ref = some t)
    (hg : guardTrue c.fields t = true) (hr : s.outOfRange c t = false) (hw : Code.barred c t = false)
    (hq : s.poisonRead c t = some a) (hd : defers = true → t.pend.length < 8) :
    s.run c body defers = s.raiseAt t c { cause := Cause.memError, addr := a } := by
  have h8 : (defers && decide (8 ≤ t.pend.length)) = false := by
    cases defers
    · rfl
    · have := hd rfl
      simp; omega
  unfold State.run
  rw [State.eachThread_one hp ht]
  unfold State.runThread
  simp [hg, h8, State.setThread_self hn ht, hr, hw, hq]

/-- A deferred instruction waits while the pending list is full (R59). -/
theorem State.run_full {s : State} {c : Code} {body : State → Thread → State} {t : Thread} (hp : s.m.packet = [t.ref])
    (ht : s.thread? t.ref = some t) (hg : guardTrue c.fields t = true) (h8 : 8 ≤ t.pend.length)
    (hr : t.allReturned = false) : s.run c body true = s.setThread (t.park 1 .none) := by
  unfold State.run
  rw [State.eachThread_one hp ht]
  unfold State.runThread
  simp [hg, h8, hr]

/-! ## What the changes of a thread keep -/

@[simp] theorem Thread.setRegs_ref (t : Thread) (n : Nat) (ws : List Word) : (t.setRegs n ws).ref = t.ref := rfl
@[simp] theorem Thread.setPred_ref (t : Thread) (n : Nat) (x : Bool) : (t.setPred n x).ref = t.ref := by
  unfold Thread.setPred; split <;> rfl
@[simp] theorem Thread.park_ref (t : Thread) (r : Nat) (w : WaitFor) : (t.park r w).ref = t.ref := rfl
theorem foldl_thread_ref {α : Type} (f : Thread → α → Thread) (hf : ∀ t a, (f t a).ref = t.ref) (l : List α) (t : Thread) :
    (l.foldl f t).ref = t.ref := by
  induction l generalizing t with
  | nil => rfl
  | cons a l ih => rw [List.foldl_cons, ih, hf]
@[simp] theorem Thread.commitAll_ref (t : Thread) : t.commitAll.ref = t.ref :=
  foldl_thread_ref (fun t (e : Pending) => t.setRegs e.reg ((e.value.getD []).take e.count)) (fun _ _ => rfl) t.pend t
@[simp] theorem Thread.marker_ref (t : Thread) : t.marker.ref = t.ref := by
  unfold Thread.marker; split <;> simp
@[simp] theorem Thread.goTo_ref (t : Thread) (c : Code) (pc : Dword) : (t.goTo c pc).ref = t.ref := by
  unfold Thread.goTo; split <;> simp
@[simp] theorem Thread.finish_ref (t : Thread) (c : Code) : (t.finish c).ref = t.ref := Thread.goTo_ref _ _ _
@[simp] theorem Thread.applyFlags_ref (t : Thread) (x : Calc) : (t.applyFlags x).ref = t.ref := by
  have h : (x.preds.foldl (fun t p => Thread.setPred t p.1 p.2) t).ref = t.ref :=
    foldl_thread_ref _ (fun _ _ => Thread.setPred_ref _ _ _) _ _
  unfold Thread.applyFlags
  split <;> exact h

end Sys2Proof.Machine
end

