-- ==== Sys2Proof/Laws/State.lean ====
section
/-! SUPPORT. What each update of the state leaves and writes, field by field. -/

namespace Sys2Proof.Machine

@[simp] theorem State.modify_mem (s : State) (f : Module → Module) : (s.modify f).mem = s.mem := rfl
@[simp] theorem State.modify_memPoison (s : State) (f : Module → Module) : (s.modify f).memPoison = s.memPoison := rfl
@[simp] theorem State.modify_slog (s : State) (f : Module → Module) : (s.modify f).slog = s.slog := rfl
@[simp] theorem State.modify_mgmt (s : State) (f : Module → Module) : (s.modify f).mgmt = s.mgmt := rfl
@[simp] theorem State.modify_modnum (s : State) (f : Module → Module) : (s.modify f).modnum = s.modnum := rfl
@[simp] theorem State.modify_routes (s : State) (f : Module → Module) : (s.modify f).routes = s.routes := rfl
@[simp] theorem State.modify_hcnt (s : State) (f : Module → Module) : (s.modify f).hcnt = s.hcnt := rfl
@[simp] theorem State.modify_logNext (s : State) (f : Module → Module) : (s.modify f).logNext = s.logNext := rfl
@[simp] theorem State.modify_images (s : State) (f : Module → Module) : (s.modify f).images = s.images := rfl
@[simp] theorem State.modify_inbox (s : State) (f : Module → Module) : (s.modify f).inbox = s.inbox := rfl
@[simp] theorem State.modify_outbox (s : State) (f : Module → Module) : (s.modify f).outbox = s.outbox := rfl
@[simp] theorem State.modify_nonce (s : State) (f : Module → Module) : (s.modify f).nonce = s.nonce := rfl
@[simp] theorem State.modify_report (s : State) (f : Module → Module) : (s.modify f).report = s.report := rfl
@[simp] theorem State.modify_frozen (s : State) (f : Module → Module) : (s.modify f).frozen = s.frozen := rfl
@[simp] theorem State.modify_m (s : State) (f : Module → Module) : (s.modify f).m =
    f s.m := rfl

@[simp] theorem State.setThread_mem (s : State) (t : Thread) : (s.setThread t).mem = s.mem := rfl
@[simp] theorem State.setThread_memPoison (s : State) (t : Thread) : (s.setThread t).memPoison = s.memPoison := rfl
@[simp] theorem State.setThread_slog (s : State) (t : Thread) : (s.setThread t).slog = s.slog := rfl
@[simp] theorem State.setThread_mgmt (s : State) (t : Thread) : (s.setThread t).mgmt = s.mgmt := rfl
@[simp] theorem State.setThread_modnum (s : State) (t : Thread) : (s.setThread t).modnum = s.modnum := rfl
@[simp] theorem State.setThread_routes (s : State) (t : Thread) : (s.setThread t).routes = s.routes := rfl
@[simp] theorem State.setThread_hcnt (s : State) (t : Thread) : (s.setThread t).hcnt = s.hcnt := rfl
@[simp] theorem State.setThread_logNext (s : State) (t : Thread) : (s.setThread t).logNext = s.logNext := rfl
@[simp] theorem State.setThread_images (s : State) (t : Thread) : (s.setThread t).images = s.images := rfl
@[simp] theorem State.setThread_inbox (s : State) (t : Thread) : (s.setThread t).inbox = s.inbox := rfl
@[simp] theorem State.setThread_outbox (s : State) (t : Thread) : (s.setThread t).outbox = s.outbox := rfl
@[simp] theorem State.setThread_nonce (s : State) (t : Thread) : (s.setThread t).nonce = s.nonce := rfl
@[simp] theorem State.setThread_report (s : State) (t : Thread) : (s.setThread t).report = s.report := rfl
@[simp] theorem State.setThread_frozen (s : State) (t : Thread) : (s.setThread t).frozen = s.frozen := rfl
@[simp] theorem State.setThread_m (s : State) (t : Thread) : (s.setThread t).m =
    { s.m with threads := updBy (·.ref == t.ref) (fun _ => t) s.m.threads } := rfl

@[simp] theorem State.updThread_mem (s : State) (r : ThreadRef) (f : Thread → Thread) : (s.updThread r f).mem = s.mem := rfl
@[simp] theorem State.updThread_memPoison (s : State) (r : ThreadRef) (f : Thread → Thread) : (s.updThread r f).memPoison = s.memPoison := rfl
@[simp] theorem State.updThread_slog (s : State) (r : ThreadRef) (f : Thread → Thread) : (s.updThread r f).slog = s.slog := rfl
@[simp] theorem State.updThread_mgmt (s : State) (r : ThreadRef) (f : Thread → Thread) : (s.updThread r f).mgmt = s.mgmt := rfl
@[simp] theorem State.updThread_modnum (s : State) (r : ThreadRef) (f : Thread → Thread) : (s.updThread r f).modnum = s.modnum := rfl
@[simp] theorem State.updThread_routes (s : State) (r : ThreadRef) (f : Thread → Thread) : (s.updThread r f).routes = s.routes := rfl
@[simp] theorem State.updThread_hcnt (s : State) (r : ThreadRef) (f : Thread → Thread) : (s.updThread r f).hcnt = s.hcnt := rfl
@[simp] theorem State.updThread_logNext (s : State) (r : ThreadRef) (f : Thread → Thread) : (s.updThread r f).logNext = s.logNext := rfl
@[simp] theorem State.updThread_images (s : State) (r : ThreadRef) (f : Thread → Thread) : (s.updThread r f).images = s.images := rfl
@[simp] theorem State.updThread_inbox (s : State) (r : ThreadRef) (f : Thread → Thread) : (s.updThread r f).inbox = s.inbox := rfl
@[simp] theorem State.updThread_outbox (s : State) (r : ThreadRef) (f : Thread → Thread) : (s.updThread r f).outbox = s.outbox := rfl
@[simp] theorem State.updThread_nonce (s : State) (r : ThreadRef) (f : Thread → Thread) : (s.updThread r f).nonce = s.nonce := rfl
@[simp] theorem State.updThread_report (s : State) (r : ThreadRef) (f : Thread → Thread) : (s.updThread r f).report = s.report := rfl
@[simp] theorem State.updThread_frozen (s : State) (r : ThreadRef) (f : Thread → Thread) : (s.updThread r f).frozen = s.frozen := rfl
@[simp] theorem State.updThread_m (s : State) (r : ThreadRef) (f : Thread → Thread) : (s.updThread r f).m =
    { s.m with threads := updBy (·.ref == r) f s.m.threads } := rfl

@[simp] theorem State.updGang_mem (s : State) (r : GangRef) (f : Gang → Gang) : (s.updGang r f).mem = s.mem := rfl
@[simp] theorem State.updGang_memPoison (s : State) (r : GangRef) (f : Gang → Gang) : (s.updGang r f).memPoison = s.memPoison := rfl
@[simp] theorem State.updGang_slog (s : State) (r : GangRef) (f : Gang → Gang) : (s.updGang r f).slog = s.slog := rfl
@[simp] theorem State.updGang_mgmt (s : State) (r : GangRef) (f : Gang → Gang) : (s.updGang r f).mgmt = s.mgmt := rfl
@[simp] theorem State.updGang_modnum (s : State) (r : GangRef) (f : Gang → Gang) : (s.updGang r f).modnum = s.modnum := rfl
@[simp] theorem State.updGang_routes (s : State) (r : GangRef) (f : Gang → Gang) : (s.updGang r f).routes = s.routes := rfl
@[simp] theorem State.updGang_hcnt (s : State) (r : GangRef) (f : Gang → Gang) : (s.updGang r f).hcnt = s.hcnt := rfl
@[simp] theorem State.updGang_logNext (s : State) (r : GangRef) (f : Gang → Gang) : (s.updGang r f).logNext = s.logNext := rfl
@[simp] theorem State.updGang_images (s : State) (r : GangRef) (f : Gang → Gang) : (s.updGang r f).images = s.images := rfl
@[simp] theorem State.updGang_inbox (s : State) (r : GangRef) (f : Gang → Gang) : (s.updGang r f).inbox = s.inbox := rfl
@[simp] theorem State.updGang_outbox (s : State) (r : GangRef) (f : Gang → Gang) : (s.updGang r f).outbox = s.outbox := rfl
@[simp] theorem State.updGang_nonce (s : State) (r : GangRef) (f : Gang → Gang) : (s.updGang r f).nonce = s.nonce := rfl
@[simp] theorem State.updGang_report (s : State) (r : GangRef) (f : Gang → Gang) : (s.updGang r f).report = s.report := rfl
@[simp] theorem State.updGang_frozen (s : State) (r : GangRef) (f : Gang → Gang) : (s.updGang r f).frozen = s.frozen := rfl
@[simp] theorem State.updGang_m (s : State) (r : GangRef) (f : Gang → Gang) : (s.updGang r f).m =
    { s.m with gangs := updBy (·.ref == r) f s.m.gangs } := rfl

@[simp] theorem State.updTeam_mem (s : State) (r : TeamRef) (f : Team → Team) : (s.updTeam r f).mem = s.mem := rfl
@[simp] theorem State.updTeam_memPoison (s : State) (r : TeamRef) (f : Team → Team) : (s.updTeam r f).memPoison = s.memPoison := rfl
@[simp] theorem State.updTeam_slog (s : State) (r : TeamRef) (f : Team → Team) : (s.updTeam r f).slog = s.slog := rfl
@[simp] theorem State.updTeam_mgmt (s : State) (r : TeamRef) (f : Team → Team) : (s.updTeam r f).mgmt = s.mgmt := rfl
@[simp] theorem State.updTeam_modnum (s : State) (r : TeamRef) (f : Team → Team) : (s.updTeam r f).modnum = s.modnum := rfl
@[simp] theorem State.updTeam_routes (s : State) (r : TeamRef) (f : Team → Team) : (s.updTeam r f).routes = s.routes := rfl
@[simp] theorem State.updTeam_hcnt (s : State) (r : TeamRef) (f : Team → Team) : (s.updTeam r f).hcnt = s.hcnt := rfl
@[simp] theorem State.updTeam_logNext (s : State) (r : TeamRef) (f : Team → Team) : (s.updTeam r f).logNext = s.logNext := rfl
@[simp] theorem State.updTeam_images (s : State) (r : TeamRef) (f : Team → Team) : (s.updTeam r f).images = s.images := rfl
@[simp] theorem State.updTeam_inbox (s : State) (r : TeamRef) (f : Team → Team) : (s.updTeam r f).inbox = s.inbox := rfl
@[simp] theorem State.updTeam_outbox (s : State) (r : TeamRef) (f : Team → Team) : (s.updTeam r f).outbox = s.outbox := rfl
@[simp] theorem State.updTeam_nonce (s : State) (r : TeamRef) (f : Team → Team) : (s.updTeam r f).nonce = s.nonce := rfl
@[simp] theorem State.updTeam_report (s : State) (r : TeamRef) (f : Team → Team) : (s.updTeam r f).report = s.report := rfl
@[simp] theorem State.updTeam_frozen (s : State) (r : TeamRef) (f : Team → Team) : (s.updTeam r f).frozen = s.frozen := rfl
@[simp] theorem State.updTeam_m (s : State) (r : TeamRef) (f : Team → Team) : (s.updTeam r f).m =
    { s.m with teams := updBy (·.ref == r) f s.m.teams } := rfl

@[simp] theorem State.updKernel_mem (s : State) (n : Nat) (f : Kernel → Kernel) : (s.updKernel n f).mem = s.mem := rfl
@[simp] theorem State.updKernel_memPoison (s : State) (n : Nat) (f : Kernel → Kernel) : (s.updKernel n f).memPoison = s.memPoison := rfl
@[simp] theorem State.updKernel_slog (s : State) (n : Nat) (f : Kernel → Kernel) : (s.updKernel n f).slog = s.slog := rfl
@[simp] theorem State.updKernel_mgmt (s : State) (n : Nat) (f : Kernel → Kernel) : (s.updKernel n f).mgmt = s.mgmt := rfl
@[simp] theorem State.updKernel_modnum (s : State) (n : Nat) (f : Kernel → Kernel) : (s.updKernel n f).modnum = s.modnum := rfl
@[simp] theorem State.updKernel_routes (s : State) (n : Nat) (f : Kernel → Kernel) : (s.updKernel n f).routes = s.routes := rfl
@[simp] theorem State.updKernel_hcnt (s : State) (n : Nat) (f : Kernel → Kernel) : (s.updKernel n f).hcnt = s.hcnt := rfl
@[simp] theorem State.updKernel_logNext (s : State) (n : Nat) (f : Kernel → Kernel) : (s.updKernel n f).logNext = s.logNext := rfl
@[simp] theorem State.updKernel_images (s : State) (n : Nat) (f : Kernel → Kernel) : (s.updKernel n f).images = s.images := rfl
@[simp] theorem State.updKernel_inbox (s : State) (n : Nat) (f : Kernel → Kernel) : (s.updKernel n f).inbox = s.inbox := rfl
@[simp] theorem State.updKernel_outbox (s : State) (n : Nat) (f : Kernel → Kernel) : (s.updKernel n f).outbox = s.outbox := rfl
@[simp] theorem State.updKernel_nonce (s : State) (n : Nat) (f : Kernel → Kernel) : (s.updKernel n f).nonce = s.nonce := rfl
@[simp] theorem State.updKernel_report (s : State) (n : Nat) (f : Kernel → Kernel) : (s.updKernel n f).report = s.report := rfl
@[simp] theorem State.updKernel_frozen (s : State) (n : Nat) (f : Kernel → Kernel) : (s.updKernel n f).frozen = s.frozen := rfl
@[simp] theorem State.updKernel_m (s : State) (n : Nat) (f : Kernel → Kernel) : (s.updKernel n f).m =
    { s.m with kernels := updBy (·.kid == n) f s.m.kernels } := rfl

@[simp] theorem State.setHub_mem (s : State) (x : Hub) : (s.setHub x).mem = s.mem := rfl
@[simp] theorem State.setHub_memPoison (s : State) (x : Hub) : (s.setHub x).memPoison = s.memPoison := rfl
@[simp] theorem State.setHub_slog (s : State) (x : Hub) : (s.setHub x).slog = s.slog := rfl
@[simp] theorem State.setHub_mgmt (s : State) (x : Hub) : (s.setHub x).mgmt = s.mgmt := rfl
@[simp] theorem State.setHub_modnum (s : State) (x : Hub) : (s.setHub x).modnum = s.modnum := rfl
@[simp] theorem State.setHub_routes (s : State) (x : Hub) : (s.setHub x).routes = s.routes := rfl
@[simp] theorem State.setHub_hcnt (s : State) (x : Hub) : (s.setHub x).hcnt = s.hcnt := rfl
@[simp] theorem State.setHub_logNext (s : State) (x : Hub) : (s.setHub x).logNext = s.logNext := rfl
@[simp] theorem State.setHub_images (s : State) (x : Hub) : (s.setHub x).images = s.images := rfl
@[simp] theorem State.setHub_inbox (s : State) (x : Hub) : (s.setHub x).inbox = s.inbox := rfl
@[simp] theorem State.setHub_outbox (s : State) (x : Hub) : (s.setHub x).outbox = s.outbox := rfl
@[simp] theorem State.setHub_nonce (s : State) (x : Hub) : (s.setHub x).nonce = s.nonce := rfl
@[simp] theorem State.setHub_report (s : State) (x : Hub) : (s.setHub x).report = s.report := rfl
@[simp] theorem State.setHub_frozen (s : State) (x : Hub) : (s.setHub x).frozen = s.frozen := rfl
@[simp] theorem State.setHub_m (s : State) (x : Hub) : (s.setHub x).m =
    { s.m with hubs := putBy (·.hub == x.hub) x s.m.hubs } := rfl

@[simp] theorem State.updHub_mem (s : State) (n : Nat) (f : Hub → Hub) : (s.updHub n f).mem = s.mem := rfl
@[simp] theorem State.updHub_memPoison (s : State) (n : Nat) (f : Hub → Hub) : (s.updHub n f).memPoison = s.memPoison := rfl
@[simp] theorem State.updHub_slog (s : State) (n : Nat) (f : Hub → Hub) : (s.updHub n f).slog = s.slog := rfl
@[simp] theorem State.updHub_mgmt (s : State) (n : Nat) (f : Hub → Hub) : (s.updHub n f).mgmt = s.mgmt := rfl
@[simp] theorem State.updHub_modnum (s : State) (n : Nat) (f : Hub → Hub) : (s.updHub n f).modnum = s.modnum := rfl
@[simp] theorem State.updHub_routes (s : State) (n : Nat) (f : Hub → Hub) : (s.updHub n f).routes = s.routes := rfl
@[simp] theorem State.updHub_hcnt (s : State) (n : Nat) (f : Hub → Hub) : (s.updHub n f).hcnt = s.hcnt := rfl
@[simp] theorem State.updHub_logNext (s : State) (n : Nat) (f : Hub → Hub) : (s.updHub n f).logNext = s.logNext := rfl
@[simp] theorem State.updHub_images (s : State) (n : Nat) (f : Hub → Hub) : (s.updHub n f).images = s.images := rfl
@[simp] theorem State.updHub_inbox (s : State) (n : Nat) (f : Hub → Hub) : (s.updHub n f).inbox = s.inbox := rfl
@[simp] theorem State.updHub_outbox (s : State) (n : Nat) (f : Hub → Hub) : (s.updHub n f).outbox = s.outbox := rfl
@[simp] theorem State.updHub_nonce (s : State) (n : Nat) (f : Hub → Hub) : (s.updHub n f).nonce = s.nonce := rfl
@[simp] theorem State.updHub_report (s : State) (n : Nat) (f : Hub → Hub) : (s.updHub n f).report = s.report := rfl
@[simp] theorem State.updHub_frozen (s : State) (n : Nat) (f : Hub → Hub) : (s.updHub n f).frozen = s.frozen := rfl
@[simp] theorem State.updHub_m (s : State) (n : Nat) (f : Hub → Hub) : (s.updHub n f).m =
    { s.m with hubs := putBy (·.hub == (f (s.hub n)).hub) (f (s.hub n)) s.m.hubs } := rfl

@[simp] theorem State.setQuarter_mem (s : State) (x : Quarter) : (s.setQuarter x).mem = s.mem := rfl
@[simp] theorem State.setQuarter_memPoison (s : State) (x : Quarter) : (s.setQuarter x).memPoison = s.memPoison := rfl
@[simp] theorem State.setQuarter_slog (s : State) (x : Quarter) : (s.setQuarter x).slog = s.slog := rfl
@[simp] theorem State.setQuarter_mgmt (s : State) (x : Quarter) : (s.setQuarter x).mgmt = s.mgmt := rfl
@[simp] theorem State.setQuarter_modnum (s : State) (x : Quarter) : (s.setQuarter x).modnum = s.modnum := rfl
@[simp] theorem State.setQuarter_routes (s : State) (x : Quarter) : (s.setQuarter x).routes = s.routes := rfl
@[simp] theorem State.setQuarter_hcnt (s : State) (x : Quarter) : (s.setQuarter x).hcnt = s.hcnt := rfl
@[simp] theorem State.setQuarter_logNext (s : State) (x : Quarter) : (s.setQuarter x).logNext = s.logNext := rfl
@[simp] theorem State.setQuarter_images (s : State) (x : Quarter) : (s.setQuarter x).images = s.images := rfl
@[simp] theorem State.setQuarter_inbox (s : State) (x : Quarter) : (s.setQuarter x).inbox = s.inbox := rfl
@[simp] theorem State.setQuarter_outbox (s : State) (x : Quarter) : (s.setQuarter x).outbox = s.outbox := rfl
@[simp] theorem State.setQuarter_nonce (s : State) (x : Quarter) : (s.setQuarter x).nonce = s.nonce := rfl
@[simp] theorem State.setQuarter_report (s : State) (x : Quarter) : (s.setQuarter x).report = s.report := rfl
@[simp] theorem State.setQuarter_frozen (s : State) (x : Quarter) : (s.setQuarter x).frozen = s.frozen := rfl
@[simp] theorem State.setQuarter_m (s : State) (x : Quarter) : (s.setQuarter x).m =
    { s.m with quarters := putBy (·.q == x.q) x s.m.quarters } := rfl

@[simp] theorem State.updQuarter_mem (s : State) (q : QRef) (f : Quarter → Quarter) : (s.updQuarter q f).mem = s.mem := rfl
@[simp] theorem State.updQuarter_memPoison (s : State) (q : QRef) (f : Quarter → Quarter) : (s.updQuarter q f).memPoison = s.memPoison := rfl
@[simp] theorem State.updQuarter_slog (s : State) (q : QRef) (f : Quarter → Quarter) : (s.updQuarter q f).slog = s.slog := rfl
@[simp] theorem State.updQuarter_mgmt (s : State) (q : QRef) (f : Quarter → Quarter) : (s.updQuarter q f).mgmt = s.mgmt := rfl
@[simp] theorem State.updQuarter_modnum (s : State) (q : QRef) (f : Quarter → Quarter) : (s.updQuarter q f).modnum = s.modnum := rfl
@[simp] theorem State.updQuarter_routes (s : State) (q : QRef) (f : Quarter → Quarter) : (s.updQuarter q f).routes = s.routes := rfl
@[simp] theorem State.updQuarter_hcnt (s : State) (q : QRef) (f : Quarter → Quarter) : (s.updQuarter q f).hcnt = s.hcnt := rfl
@[simp] theorem State.updQuarter_logNext (s : State) (q : QRef) (f : Quarter → Quarter) : (s.updQuarter q f).logNext = s.logNext := rfl
@[simp] theorem State.updQuarter_images (s : State) (q : QRef) (f : Quarter → Quarter) : (s.updQuarter q f).images = s.images := rfl
@[simp] theorem State.updQuarter_inbox (s : State) (q : QRef) (f : Quarter → Quarter) : (s.updQuarter q f).inbox = s.inbox := rfl
@[simp] theorem State.updQuarter_outbox (s : State) (q : QRef) (f : Quarter → Quarter) : (s.updQuarter q f).outbox = s.outbox := rfl
@[simp] theorem State.updQuarter_nonce (s : State) (q : QRef) (f : Quarter → Quarter) : (s.updQuarter q f).nonce = s.nonce := rfl
@[simp] theorem State.updQuarter_report (s : State) (q : QRef) (f : Quarter → Quarter) : (s.updQuarter q f).report = s.report := rfl
@[simp] theorem State.updQuarter_frozen (s : State) (q : QRef) (f : Quarter → Quarter) : (s.updQuarter q f).frozen = s.frozen := rfl
@[simp] theorem State.updQuarter_m (s : State) (q : QRef) (f : Quarter → Quarter) : (s.updQuarter q f).m =
    { s.m with quarters := putBy (·.q == (f (s.quarter q)).q) (f (s.quarter q)) s.m.quarters } := rfl

@[simp] theorem State.updContext_mem (s : State) (n : Nat) (f : Context → Context) : (s.updContext n f).mem = s.mem := rfl
@[simp] theorem State.updContext_memPoison (s : State) (n : Nat) (f : Context → Context) : (s.updContext n f).memPoison = s.memPoison := rfl
@[simp] theorem State.updContext_slog (s : State) (n : Nat) (f : Context → Context) : (s.updContext n f).slog = s.slog := rfl
@[simp] theorem State.updContext_mgmt (s : State) (n : Nat) (f : Context → Context) : (s.updContext n f).mgmt = s.mgmt := rfl
@[simp] theorem State.updContext_modnum (s : State) (n : Nat) (f : Context → Context) : (s.updContext n f).modnum = s.modnum := rfl
@[simp] theorem State.updContext_routes (s : State) (n : Nat) (f : Context → Context) : (s.updContext n f).routes = s.routes := rfl
@[simp] theorem State.updContext_hcnt (s : State) (n : Nat) (f : Context → Context) : (s.updContext n f).hcnt = s.hcnt := rfl
@[simp] theorem State.updContext_logNext (s : State) (n : Nat) (f : Context → Context) : (s.updContext n f).logNext = s.logNext := rfl
@[simp] theorem State.updContext_images (s : State) (n : Nat) (f : Context → Context) : (s.updContext n f).images = s.images := rfl
@[simp] theorem State.updContext_inbox (s : State) (n : Nat) (f : Context → Context) : (s.updContext n f).inbox = s.inbox := rfl
@[simp] theorem State.updContext_outbox (s : State) (n : Nat) (f : Context → Context) : (s.updContext n f).outbox = s.outbox := rfl
@[simp] theorem State.updContext_nonce (s : State) (n : Nat) (f : Context → Context) : (s.updContext n f).nonce = s.nonce := rfl
@[simp] theorem State.updContext_report (s : State) (n : Nat) (f : Context → Context) : (s.updContext n f).report = s.report := rfl
@[simp] theorem State.updContext_frozen (s : State) (n : Nat) (f : Context → Context) : (s.updContext n f).frozen = s.frozen := rfl
@[simp] theorem State.updContext_m (s : State) (n : Nat) (f : Context → Context) : (s.updContext n f).m =
    { s.m with contexts := s.m.contexts.setIfInBounds n (f (s.context n)) } := rfl

@[simp] theorem State.updQueue_mem (s : State) (n : Nat) (f : Queue → Queue) : (s.updQueue n f).mem = s.mem := rfl
@[simp] theorem State.updQueue_memPoison (s : State) (n : Nat) (f : Queue → Queue) : (s.updQueue n f).memPoison = s.memPoison := rfl
@[simp] theorem State.updQueue_slog (s : State) (n : Nat) (f : Queue → Queue) : (s.updQueue n f).slog = s.slog := rfl
@[simp] theorem State.updQueue_mgmt (s : State) (n : Nat) (f : Queue → Queue) : (s.updQueue n f).mgmt = s.mgmt := rfl
@[simp] theorem State.updQueue_modnum (s : State) (n : Nat) (f : Queue → Queue) : (s.updQueue n f).modnum = s.modnum := rfl
@[simp] theorem State.updQueue_routes (s : State) (n : Nat) (f : Queue → Queue) : (s.updQueue n f).routes = s.routes := rfl
@[simp] theorem State.updQueue_hcnt (s : State) (n : Nat) (f : Queue → Queue) : (s.updQueue n f).hcnt = s.hcnt := rfl
@[simp] theorem State.updQueue_logNext (s : State) (n : Nat) (f : Queue → Queue) : (s.updQueue n f).logNext = s.logNext := rfl
@[simp] theorem State.updQueue_images (s : State) (n : Nat) (f : Queue → Queue) : (s.updQueue n f).images = s.images := rfl
@[simp] theorem State.updQueue_inbox (s : State) (n : Nat) (f : Queue → Queue) : (s.updQueue n f).inbox = s.inbox := rfl
@[simp] theorem State.updQueue_outbox (s : State) (n : Nat) (f : Queue → Queue) : (s.updQueue n f).outbox = s.outbox := rfl
@[simp] theorem State.updQueue_nonce (s : State) (n : Nat) (f : Queue → Queue) : (s.updQueue n f).nonce = s.nonce := rfl
@[simp] theorem State.updQueue_report (s : State) (n : Nat) (f : Queue → Queue) : (s.updQueue n f).report = s.report := rfl
@[simp] theorem State.updQueue_frozen (s : State) (n : Nat) (f : Queue → Queue) : (s.updQueue n f).frozen = s.frozen := rfl
@[simp] theorem State.updQueue_m (s : State) (n : Nat) (f : Queue → Queue) : (s.updQueue n f).m =
    { s.m with queues := putBy (·.num == (f (s.queue n)).num) (f (s.queue n)) s.m.queues } := rfl

@[simp] theorem State.updLink_mem (s : State) (p : Nat) (f : LinkPort → LinkPort) : (s.updLink p f).mem = s.mem := rfl
@[simp] theorem State.updLink_memPoison (s : State) (p : Nat) (f : LinkPort → LinkPort) : (s.updLink p f).memPoison = s.memPoison := rfl
@[simp] theorem State.updLink_slog (s : State) (p : Nat) (f : LinkPort → LinkPort) : (s.updLink p f).slog = s.slog := rfl
@[simp] theorem State.updLink_mgmt (s : State) (p : Nat) (f : LinkPort → LinkPort) : (s.updLink p f).mgmt = s.mgmt := rfl
@[simp] theorem State.updLink_modnum (s : State) (p : Nat) (f : LinkPort → LinkPort) : (s.updLink p f).modnum = s.modnum := rfl
@[simp] theorem State.updLink_routes (s : State) (p : Nat) (f : LinkPort → LinkPort) : (s.updLink p f).routes = s.routes := rfl
@[simp] theorem State.updLink_hcnt (s : State) (p : Nat) (f : LinkPort → LinkPort) : (s.updLink p f).hcnt = s.hcnt := rfl
@[simp] theorem State.updLink_logNext (s : State) (p : Nat) (f : LinkPort → LinkPort) : (s.updLink p f).logNext = s.logNext := rfl
@[simp] theorem State.updLink_images (s : State) (p : Nat) (f : LinkPort → LinkPort) : (s.updLink p f).images = s.images := rfl
@[simp] theorem State.updLink_inbox (s : State) (p : Nat) (f : LinkPort → LinkPort) : (s.updLink p f).inbox = s.inbox := rfl
@[simp] theorem State.updLink_outbox (s : State) (p : Nat) (f : LinkPort → LinkPort) : (s.updLink p f).outbox = s.outbox := rfl
@[simp] theorem State.updLink_nonce (s : State) (p : Nat) (f : LinkPort → LinkPort) : (s.updLink p f).nonce = s.nonce := rfl
@[simp] theorem State.updLink_report (s : State) (p : Nat) (f : LinkPort → LinkPort) : (s.updLink p f).report = s.report := rfl
@[simp] theorem State.updLink_frozen (s : State) (p : Nat) (f : LinkPort → LinkPort) : (s.updLink p f).frozen = s.frozen := rfl
@[simp] theorem State.updLink_m (s : State) (p : Nat) (f : LinkPort → LinkPort) : (s.updLink p f).m =
    { s.m with links := updBy (·.num == p) f s.m.links } := rfl

@[simp] theorem State.send_mem (s : State) (k : Config.Lat) (x : Msg) : (s.send k x).mem = s.mem := rfl
@[simp] theorem State.send_memPoison (s : State) (k : Config.Lat) (x : Msg) : (s.send k x).memPoison = s.memPoison := rfl
@[simp] theorem State.send_slog (s : State) (k : Config.Lat) (x : Msg) : (s.send k x).slog = s.slog := rfl
@[simp] theorem State.send_mgmt (s : State) (k : Config.Lat) (x : Msg) : (s.send k x).mgmt = s.mgmt := rfl
@[simp] theorem State.send_modnum (s : State) (k : Config.Lat) (x : Msg) : (s.send k x).modnum = s.modnum := rfl
@[simp] theorem State.send_routes (s : State) (k : Config.Lat) (x : Msg) : (s.send k x).routes = s.routes := rfl
@[simp] theorem State.send_hcnt (s : State) (k : Config.Lat) (x : Msg) : (s.send k x).hcnt = s.hcnt := rfl
@[simp] theorem State.send_logNext (s : State) (k : Config.Lat) (x : Msg) : (s.send k x).logNext = s.logNext := rfl
@[simp] theorem State.send_images (s : State) (k : Config.Lat) (x : Msg) : (s.send k x).images = s.images := rfl
@[simp] theorem State.send_inbox (s : State) (k : Config.Lat) (x : Msg) : (s.send k x).inbox = s.inbox := rfl
@[simp] theorem State.send_outbox (s : State) (k : Config.Lat) (x : Msg) : (s.send k x).outbox = s.outbox := rfl
@[simp] theorem State.send_nonce (s : State) (k : Config.Lat) (x : Msg) : (s.send k x).nonce = s.nonce := rfl
@[simp] theorem State.send_report (s : State) (k : Config.Lat) (x : Msg) : (s.send k x).report = s.report := rfl
@[simp] theorem State.send_frozen (s : State) (k : Config.Lat) (x : Msg) : (s.send k x).frozen = s.frozen := rfl
@[simp] theorem State.send_m_cycle (s : State) (k : Config.Lat) (x : Msg) : (s.send k x).m.cycle = s.m.cycle := rfl
@[simp] theorem State.send_m_phase (s : State) (k : Config.Lat) (x : Msg) : (s.send k x).m.phase = s.m.phase := rfl
@[simp] theorem State.send_m_agenda (s : State) (k : Config.Lat) (x : Msg) : (s.send k x).m.agenda = s.m.agenda := rfl
@[simp] theorem State.send_m_resumes (s : State) (k : Config.Lat) (x : Msg) : (s.send k x).m.resumes = s.m.resumes := rfl
@[simp] theorem State.send_m_ev (s : State) (k : Config.Lat) (x : Msg) : (s.send k x).m.ev = s.m.ev := rfl
@[simp] theorem State.send_m_packet (s : State) (k : Config.Lat) (x : Msg) : (s.send k x).m.packet = s.m.packet := rfl
@[simp] theorem State.send_m_packetPc (s : State) (k : Config.Lat) (x : Msg) : (s.send k x).m.packetPc = s.m.packetPc := rfl
@[simp] theorem State.send_m_packetDenied (s : State) (k : Config.Lat) (x : Msg) : (s.send k x).m.packetDenied = s.m.packetDenied := rfl
@[simp] theorem State.send_m_remote (s : State) (k : Config.Lat) (x : Msg) : (s.send k x).m.remote = s.m.remote := rfl
@[simp] theorem State.send_m_hostTags (s : State) (k : Config.Lat) (x : Msg) : (s.send k x).m.hostTags = s.m.hostTags := rfl
@[simp] theorem State.send_m_hostQueue (s : State) (k : Config.Lat) (x : Msg) : (s.send k x).m.hostQueue = s.m.hostQueue := rfl
@[simp] theorem State.send_m_evictions (s : State) (k : Config.Lat) (x : Msg) : (s.send k x).m.evictions = s.m.evictions := rfl
@[simp] theorem State.send_m_records (s : State) (k : Config.Lat) (x : Msg) : (s.send k x).m.records = s.m.records := rfl
@[simp] theorem State.send_m_traces (s : State) (k : Config.Lat) (x : Msg) : (s.send k x).m.traces = s.m.traces := rfl
@[simp] theorem State.send_m_before (s : State) (k : Config.Lat) (x : Msg) : (s.send k x).m.before = s.m.before := rfl
@[simp] theorem State.send_m_free (s : State) (k : Config.Lat) (x : Msg) : (s.send k x).m.free = s.m.free := rfl
@[simp] theorem State.send_m_threads (s : State) (k : Config.Lat) (x : Msg) : (s.send k x).m.threads = s.m.threads := rfl
@[simp] theorem State.send_m_gangs (s : State) (k : Config.Lat) (x : Msg) : (s.send k x).m.gangs = s.m.gangs := rfl
@[simp] theorem State.send_m_teams (s : State) (k : Config.Lat) (x : Msg) : (s.send k x).m.teams = s.m.teams := rfl
@[simp] theorem State.send_m_kernels (s : State) (k : Config.Lat) (x : Msg) : (s.send k x).m.kernels = s.m.kernels := rfl
@[simp] theorem State.send_m_nextKid (s : State) (k : Config.Lat) (x : Msg) : (s.send k x).m.nextKid = s.m.nextKid := rfl
@[simp] theorem State.send_m_early (s : State) (k : Config.Lat) (x : Msg) : (s.send k x).m.early = s.m.early := rfl
@[simp] theorem State.send_m_hubs (s : State) (k : Config.Lat) (x : Msg) : (s.send k x).m.hubs = s.m.hubs := rfl
@[simp] theorem State.send_m_quarters (s : State) (k : Config.Lat) (x : Msg) : (s.send k x).m.quarters = s.m.quarters := rfl
@[simp] theorem State.send_m_win (s : State) (k : Config.Lat) (x : Msg) : (s.send k x).m.win = s.m.win := rfl
@[simp] theorem State.send_m_winPoison (s : State) (k : Config.Lat) (x : Msg) : (s.send k x).m.winPoison = s.m.winPoison := rfl
@[simp] theorem State.send_m_l2 (s : State) (k : Config.Lat) (x : Msg) : (s.send k x).m.l2 = s.m.l2 := rfl
@[simp] theorem State.send_m_l2held (s : State) (k : Config.Lat) (x : Msg) : (s.send k x).m.l2held = s.m.l2held := rfl
@[simp] theorem State.send_m_fillCtr (s : State) (k : Config.Lat) (x : Msg) : (s.send k x).m.fillCtr = s.m.fillCtr := rfl
@[simp] theorem State.send_m_contexts (s : State) (k : Config.Lat) (x : Msg) : (s.send k x).m.contexts = s.m.contexts := rfl
@[simp] theorem State.send_m_queues (s : State) (k : Config.Lat) (x : Msg) : (s.send k x).m.queues = s.m.queues := rfl
@[simp] theorem State.send_m_qtbase (s : State) (k : Config.Lat) (x : Msg) : (s.send k x).m.qtbase = s.m.qtbase := rfl
@[simp] theorem State.send_m_page (s : State) (k : Config.Lat) (x : Msg) : (s.send k x).m.page = s.m.page := rfl
@[simp] theorem State.send_m_links (s : State) (k : Config.Lat) (x : Msg) : (s.send k x).m.links = s.m.links := rfl
@[simp] theorem State.send_m_eth (s : State) (k : Config.Lat) (x : Msg) : (s.send k x).m.eth = s.m.eth := rfl
@[simp] theorem State.send_m_domofs (s : State) (k : Config.Lat) (x : Msg) : (s.send k x).m.domofs = s.m.domofs := rfl
@[simp] theorem State.send_m_domdly (s : State) (k : Config.Lat) (x : Msg) : (s.send k x).m.domdly = s.m.domdly := rfl
@[simp] theorem State.send_m_refmod (s : State) (k : Config.Lat) (x : Msg) : (s.send k x).m.refmod = s.m.refmod := rfl
@[simp] theorem State.send_m_alignSent (s : State) (k : Config.Lat) (x : Msg) : (s.send k x).m.alignSent = s.m.alignSent := rfl
@[simp] theorem State.send_m_debugRegs (s : State) (k : Config.Lat) (x : Msg) : (s.send k x).m.debugRegs = s.m.debugRegs := rfl
@[simp] theorem State.send_m_pwrbud (s : State) (k : Config.Lat) (x : Msg) : (s.send k x).m.pwrbud = s.m.pwrbud := rfl
@[simp] theorem State.send_m_grant (s : State) (k : Config.Lat) (x : Msg) : (s.send k x).m.grant = s.m.grant := rfl
@[simp] theorem State.send_m_tcap (s : State) (k : Config.Lat) (x : Msg) : (s.send k x).m.tcap = s.m.tcap := rfl
@[simp] theorem State.send_m_eprev (s : State) (k : Config.Lat) (x : Msg) : (s.send k x).m.eprev = s.m.eprev := rfl
@[simp] theorem State.send_m_seq (s : State) (k : Config.Lat) (x : Msg) : (s.send k x).m.seq = s.m.seq := rfl
@[simp] theorem State.send_m_bar0 (s : State) (k : Config.Lat) (x : Msg) : (s.send k x).m.bar0 = s.m.bar0 := rfl
@[simp] theorem State.send_m_bar2 (s : State) (k : Config.Lat) (x : Msg) : (s.send k x).m.bar2 = s.m.bar2 := rfl
@[simp] theorem State.send_m_bar4 (s : State) (k : Config.Lat) (x : Msg) : (s.send k x).m.bar4 = s.m.bar4 := rfl
@[simp] theorem State.send_m_ctxbase (s : State) (k : Config.Lat) (x : Msg) : (s.send k x).m.ctxbase = s.m.ctxbase := rfl
@[simp] theorem State.send_m_layout (s : State) (k : Config.Lat) (x : Msg) : (s.send k x).m.layout = s.m.layout := rfl
@[simp] theorem State.send_m_nextLayout (s : State) (k : Config.Lat) (x : Msg) : (s.send k x).m.nextLayout = s.m.nextLayout := rfl
@[simp] theorem State.send_m_bringUp (s : State) (k : Config.Lat) (x : Msg) : (s.send k x).m.bringUp = s.m.bringUp := rfl
@[simp] theorem State.send_m_failing (s : State) (k : Config.Lat) (x : Msg) : (s.send k x).m.failing = s.m.failing := rfl

@[simp] theorem State.sendAt_mem (s : State) (d : Nat) (x : Msg) : (s.sendAt d x).mem = s.mem := rfl
@[simp] theorem State.sendAt_memPoison (s : State) (d : Nat) (x : Msg) : (s.sendAt d x).memPoison = s.memPoison := rfl
@[simp] theorem State.sendAt_slog (s : State) (d : Nat) (x : Msg) : (s.sendAt d x).slog = s.slog := rfl
@[simp] theorem State.sendAt_mgmt (s : State) (d : Nat) (x : Msg) : (s.sendAt d x).mgmt = s.mgmt := rfl
@[simp] theorem State.sendAt_modnum (s : State) (d : Nat) (x : Msg) : (s.sendAt d x).modnum = s.modnum := rfl
@[simp] theorem State.sendAt_routes (s : State) (d : Nat) (x : Msg) : (s.sendAt d x).routes = s.routes := rfl
@[simp] theorem State.sendAt_hcnt (s : State) (d : Nat) (x : Msg) : (s.sendAt d x).hcnt = s.hcnt := rfl
@[simp] theorem State.sendAt_logNext (s : State) (d : Nat) (x : Msg) : (s.sendAt d x).logNext = s.logNext := rfl
@[simp] theorem State.sendAt_images (s : State) (d : Nat) (x : Msg) : (s.sendAt d x).images = s.images := rfl
@[simp] theorem State.sendAt_inbox (s : State) (d : Nat) (x : Msg) : (s.sendAt d x).inbox = s.inbox := rfl
@[simp] theorem State.sendAt_outbox (s : State) (d : Nat) (x : Msg) : (s.sendAt d x).outbox = s.outbox := rfl
@[simp] theorem State.sendAt_nonce (s : State) (d : Nat) (x : Msg) : (s.sendAt d x).nonce = s.nonce := rfl
@[simp] theorem State.sendAt_report (s : State) (d : Nat) (x : Msg) : (s.sendAt d x).report = s.report := rfl
@[simp] theorem State.sendAt_frozen (s : State) (d : Nat) (x : Msg) : (s.sendAt d x).frozen = s.frozen := rfl
@[simp] theorem State.sendAt_m_cycle (s : State) (d : Nat) (x : Msg) : (s.sendAt d x).m.cycle = s.m.cycle := rfl
@[simp] theorem State.sendAt_m_phase (s : State) (d : Nat) (x : Msg) : (s.sendAt d x).m.phase = s.m.phase := rfl
@[simp] theorem State.sendAt_m_agenda (s : State) (d : Nat) (x : Msg) : (s.sendAt d x).m.agenda = s.m.agenda := rfl
@[simp] theorem State.sendAt_m_resumes (s : State) (d : Nat) (x : Msg) : (s.sendAt d x).m.resumes = s.m.resumes := rfl
@[simp] theorem State.sendAt_m_ev (s : State) (d : Nat) (x : Msg) : (s.sendAt d x).m.ev = s.m.ev := rfl
@[simp] theorem State.sendAt_m_packet (s : State) (d : Nat) (x : Msg) : (s.sendAt d x).m.packet = s.m.packet := rfl
@[simp] theorem State.sendAt_m_packetPc (s : State) (d : Nat) (x : Msg) : (s.sendAt d x).m.packetPc = s.m.packetPc := rfl
@[simp] theorem State.sendAt_m_packetDenied (s : State) (d : Nat) (x : Msg) : (s.sendAt d x).m.packetDenied = s.m.packetDenied := rfl
@[simp] theorem State.sendAt_m_remote (s : State) (d : Nat) (x : Msg) : (s.sendAt d x).m.remote = s.m.remote := rfl
@[simp] theorem State.sendAt_m_hostTags (s : State) (d : Nat) (x : Msg) : (s.sendAt d x).m.hostTags = s.m.hostTags := rfl
@[simp] theorem State.sendAt_m_hostQueue (s : State) (d : Nat) (x : Msg) : (s.sendAt d x).m.hostQueue = s.m.hostQueue := rfl
@[simp] theorem State.sendAt_m_evictions (s : State) (d : Nat) (x : Msg) : (s.sendAt d x).m.evictions = s.m.evictions := rfl
@[simp] theorem State.sendAt_m_records (s : State) (d : Nat) (x : Msg) : (s.sendAt d x).m.records = s.m.records := rfl
@[simp] theorem State.sendAt_m_traces (s : State) (d : Nat) (x : Msg) : (s.sendAt d x).m.traces = s.m.traces := rfl
@[simp] theorem State.sendAt_m_before (s : State) (d : Nat) (x : Msg) : (s.sendAt d x).m.before = s.m.before := rfl
@[simp] theorem State.sendAt_m_free (s : State) (d : Nat) (x : Msg) : (s.sendAt d x).m.free = s.m.free := rfl
@[simp] theorem State.sendAt_m_threads (s : State) (d : Nat) (x : Msg) : (s.sendAt d x).m.threads = s.m.threads := rfl
@[simp] theorem State.sendAt_m_gangs (s : State) (d : Nat) (x : Msg) : (s.sendAt d x).m.gangs = s.m.gangs := rfl
@[simp] theorem State.sendAt_m_teams (s : State) (d : Nat) (x : Msg) : (s.sendAt d x).m.teams = s.m.teams := rfl
@[simp] theorem State.sendAt_m_kernels (s : State) (d : Nat) (x : Msg) : (s.sendAt d x).m.kernels = s.m.kernels := rfl
@[simp] theorem State.sendAt_m_nextKid (s : State) (d : Nat) (x : Msg) : (s.sendAt d x).m.nextKid = s.m.nextKid := rfl
@[simp] theorem State.sendAt_m_early (s : State) (d : Nat) (x : Msg) : (s.sendAt d x).m.early = s.m.early := rfl
@[simp] theorem State.sendAt_m_hubs (s : State) (d : Nat) (x : Msg) : (s.sendAt d x).m.hubs = s.m.hubs := rfl
@[simp] theorem State.sendAt_m_quarters (s : State) (d : Nat) (x : Msg) : (s.sendAt d x).m.quarters = s.m.quarters := rfl
@[simp] theorem State.sendAt_m_win (s : State) (d : Nat) (x : Msg) : (s.sendAt d x).m.win = s.m.win := rfl
@[simp] theorem State.sendAt_m_winPoison (s : State) (d : Nat) (x : Msg) : (s.sendAt d x).m.winPoison = s.m.winPoison := rfl
@[simp] theorem State.sendAt_m_l2 (s : State) (d : Nat) (x : Msg) : (s.sendAt d x).m.l2 = s.m.l2 := rfl
@[simp] theorem State.sendAt_m_l2held (s : State) (d : Nat) (x : Msg) : (s.sendAt d x).m.l2held = s.m.l2held := rfl
@[simp] theorem State.sendAt_m_fillCtr (s : State) (d : Nat) (x : Msg) : (s.sendAt d x).m.fillCtr = s.m.fillCtr := rfl
@[simp] theorem State.sendAt_m_contexts (s : State) (d : Nat) (x : Msg) : (s.sendAt d x).m.contexts = s.m.contexts := rfl
@[simp] theorem State.sendAt_m_queues (s : State) (d : Nat) (x : Msg) : (s.sendAt d x).m.queues = s.m.queues := rfl
@[simp] theorem State.sendAt_m_qtbase (s : State) (d : Nat) (x : Msg) : (s.sendAt d x).m.qtbase = s.m.qtbase := rfl
@[simp] theorem State.sendAt_m_page (s : State) (d : Nat) (x : Msg) : (s.sendAt d x).m.page = s.m.page := rfl
@[simp] theorem State.sendAt_m_links (s : State) (d : Nat) (x : Msg) : (s.sendAt d x).m.links = s.m.links := rfl
@[simp] theorem State.sendAt_m_eth (s : State) (d : Nat) (x : Msg) : (s.sendAt d x).m.eth = s.m.eth := rfl
@[simp] theorem State.sendAt_m_domofs (s : State) (d : Nat) (x : Msg) : (s.sendAt d x).m.domofs = s.m.domofs := rfl
@[simp] theorem State.sendAt_m_domdly (s : State) (d : Nat) (x : Msg) : (s.sendAt d x).m.domdly = s.m.domdly := rfl
@[simp] theorem State.sendAt_m_refmod (s : State) (d : Nat) (x : Msg) : (s.sendAt d x).m.refmod = s.m.refmod := rfl
@[simp] theorem State.sendAt_m_alignSent (s : State) (d : Nat) (x : Msg) : (s.sendAt d x).m.alignSent = s.m.alignSent := rfl
@[simp] theorem State.sendAt_m_debugRegs (s : State) (d : Nat) (x : Msg) : (s.sendAt d x).m.debugRegs = s.m.debugRegs := rfl
@[simp] theorem State.sendAt_m_pwrbud (s : State) (d : Nat) (x : Msg) : (s.sendAt d x).m.pwrbud = s.m.pwrbud := rfl
@[simp] theorem State.sendAt_m_grant (s : State) (d : Nat) (x : Msg) : (s.sendAt d x).m.grant = s.m.grant := rfl
@[simp] theorem State.sendAt_m_tcap (s : State) (d : Nat) (x : Msg) : (s.sendAt d x).m.tcap = s.m.tcap := rfl
@[simp] theorem State.sendAt_m_eprev (s : State) (d : Nat) (x : Msg) : (s.sendAt d x).m.eprev = s.m.eprev := rfl
@[simp] theorem State.sendAt_m_seq (s : State) (d : Nat) (x : Msg) : (s.sendAt d x).m.seq = s.m.seq := rfl
@[simp] theorem State.sendAt_m_bar0 (s : State) (d : Nat) (x : Msg) : (s.sendAt d x).m.bar0 = s.m.bar0 := rfl
@[simp] theorem State.sendAt_m_bar2 (s : State) (d : Nat) (x : Msg) : (s.sendAt d x).m.bar2 = s.m.bar2 := rfl
@[simp] theorem State.sendAt_m_bar4 (s : State) (d : Nat) (x : Msg) : (s.sendAt d x).m.bar4 = s.m.bar4 := rfl
@[simp] theorem State.sendAt_m_ctxbase (s : State) (d : Nat) (x : Msg) : (s.sendAt d x).m.ctxbase = s.m.ctxbase := rfl
@[simp] theorem State.sendAt_m_layout (s : State) (d : Nat) (x : Msg) : (s.sendAt d x).m.layout = s.m.layout := rfl
@[simp] theorem State.sendAt_m_nextLayout (s : State) (d : Nat) (x : Msg) : (s.sendAt d x).m.nextLayout = s.m.nextLayout := rfl
@[simp] theorem State.sendAt_m_bringUp (s : State) (d : Nat) (x : Msg) : (s.sendAt d x).m.bringUp = s.m.bringUp := rfl
@[simp] theorem State.sendAt_m_failing (s : State) (d : Nat) (x : Msg) : (s.sendAt d x).m.failing = s.m.failing := rfl

@[simp] theorem State.winWrite_mem (s : State) (a : Nat) (bs : List Byte) : (s.winWrite a bs).mem = s.mem := rfl
@[simp] theorem State.winWrite_memPoison (s : State) (a : Nat) (bs : List Byte) : (s.winWrite a bs).memPoison = s.memPoison := rfl
@[simp] theorem State.winWrite_slog (s : State) (a : Nat) (bs : List Byte) : (s.winWrite a bs).slog = s.slog := rfl
@[simp] theorem State.winWrite_mgmt (s : State) (a : Nat) (bs : List Byte) : (s.winWrite a bs).mgmt = s.mgmt := rfl
@[simp] theorem State.winWrite_modnum (s : State) (a : Nat) (bs : List Byte) : (s.winWrite a bs).modnum = s.modnum := rfl
@[simp] theorem State.winWrite_routes (s : State) (a : Nat) (bs : List Byte) : (s.winWrite a bs).routes = s.routes := rfl
@[simp] theorem State.winWrite_hcnt (s : State) (a : Nat) (bs : List Byte) : (s.winWrite a bs).hcnt = s.hcnt := rfl
@[simp] theorem State.winWrite_logNext (s : State) (a : Nat) (bs : List Byte) : (s.winWrite a bs).logNext = s.logNext := rfl
@[simp] theorem State.winWrite_images (s : State) (a : Nat) (bs : List Byte) : (s.winWrite a bs).images = s.images := rfl
@[simp] theorem State.winWrite_inbox (s : State) (a : Nat) (bs : List Byte) : (s.winWrite a bs).inbox = s.inbox := rfl
@[simp] theorem State.winWrite_outbox (s : State) (a : Nat) (bs : List Byte) : (s.winWrite a bs).outbox = s.outbox := rfl
@[simp] theorem State.winWrite_nonce (s : State) (a : Nat) (bs : List Byte) : (s.winWrite a bs).nonce = s.nonce := rfl
@[simp] theorem State.winWrite_report (s : State) (a : Nat) (bs : List Byte) : (s.winWrite a bs).report = s.report := rfl
@[simp] theorem State.winWrite_frozen (s : State) (a : Nat) (bs : List Byte) : (s.winWrite a bs).frozen = s.frozen := rfl
@[simp] theorem State.winWrite_m_cycle (s : State) (a : Nat) (bs : List Byte) : (s.winWrite a bs).m.cycle = s.m.cycle := rfl
@[simp] theorem State.winWrite_m_phase (s : State) (a : Nat) (bs : List Byte) : (s.winWrite a bs).m.phase = s.m.phase := rfl
@[simp] theorem State.winWrite_m_agenda (s : State) (a : Nat) (bs : List Byte) : (s.winWrite a bs).m.agenda = s.m.agenda := rfl
@[simp] theorem State.winWrite_m_resumes (s : State) (a : Nat) (bs : List Byte) : (s.winWrite a bs).m.resumes = s.m.resumes := rfl
@[simp] theorem State.winWrite_m_ev (s : State) (a : Nat) (bs : List Byte) : (s.winWrite a bs).m.ev = s.m.ev := rfl
@[simp] theorem State.winWrite_m_packet (s : State) (a : Nat) (bs : List Byte) : (s.winWrite a bs).m.packet = s.m.packet := rfl
@[simp] theorem State.winWrite_m_packetPc (s : State) (a : Nat) (bs : List Byte) : (s.winWrite a bs).m.packetPc = s.m.packetPc := rfl
@[simp] theorem State.winWrite_m_packetDenied (s : State) (a : Nat) (bs : List Byte) : (s.winWrite a bs).m.packetDenied = s.m.packetDenied := rfl
@[simp] theorem State.winWrite_m_flight (s : State) (a : Nat) (bs : List Byte) : (s.winWrite a bs).m.flight = s.m.flight := rfl
@[simp] theorem State.winWrite_m_remote (s : State) (a : Nat) (bs : List Byte) : (s.winWrite a bs).m.remote = s.m.remote := rfl
@[simp] theorem State.winWrite_m_hostTags (s : State) (a : Nat) (bs : List Byte) : (s.winWrite a bs).m.hostTags = s.m.hostTags := rfl
@[simp] theorem State.winWrite_m_hostQueue (s : State) (a : Nat) (bs : List Byte) : (s.winWrite a bs).m.hostQueue = s.m.hostQueue := rfl
@[simp] theorem State.winWrite_m_evictions (s : State) (a : Nat) (bs : List Byte) : (s.winWrite a bs).m.evictions = s.m.evictions := rfl
@[simp] theorem State.winWrite_m_records (s : State) (a : Nat) (bs : List Byte) : (s.winWrite a bs).m.records = s.m.records := rfl
@[simp] theorem State.winWrite_m_traces (s : State) (a : Nat) (bs : List Byte) : (s.winWrite a bs).m.traces = s.m.traces := rfl
@[simp] theorem State.winWrite_m_before (s : State) (a : Nat) (bs : List Byte) : (s.winWrite a bs).m.before = s.m.before := rfl
@[simp] theorem State.winWrite_m_nextId (s : State) (a : Nat) (bs : List Byte) : (s.winWrite a bs).m.nextId = s.m.nextId := rfl
@[simp] theorem State.winWrite_m_free (s : State) (a : Nat) (bs : List Byte) : (s.winWrite a bs).m.free = s.m.free := rfl
@[simp] theorem State.winWrite_m_threads (s : State) (a : Nat) (bs : List Byte) : (s.winWrite a bs).m.threads = s.m.threads := rfl
@[simp] theorem State.winWrite_m_gangs (s : State) (a : Nat) (bs : List Byte) : (s.winWrite a bs).m.gangs = s.m.gangs := rfl
@[simp] theorem State.winWrite_m_teams (s : State) (a : Nat) (bs : List Byte) : (s.winWrite a bs).m.teams = s.m.teams := rfl
@[simp] theorem State.winWrite_m_kernels (s : State) (a : Nat) (bs : List Byte) : (s.winWrite a bs).m.kernels = s.m.kernels := rfl
@[simp] theorem State.winWrite_m_nextKid (s : State) (a : Nat) (bs : List Byte) : (s.winWrite a bs).m.nextKid = s.m.nextKid := rfl
@[simp] theorem State.winWrite_m_early (s : State) (a : Nat) (bs : List Byte) : (s.winWrite a bs).m.early = s.m.early := rfl
@[simp] theorem State.winWrite_m_hubs (s : State) (a : Nat) (bs : List Byte) : (s.winWrite a bs).m.hubs = s.m.hubs := rfl
@[simp] theorem State.winWrite_m_quarters (s : State) (a : Nat) (bs : List Byte) : (s.winWrite a bs).m.quarters = s.m.quarters := rfl
@[simp] theorem State.winWrite_m_l2 (s : State) (a : Nat) (bs : List Byte) : (s.winWrite a bs).m.l2 = s.m.l2 := rfl
@[simp] theorem State.winWrite_m_l2held (s : State) (a : Nat) (bs : List Byte) : (s.winWrite a bs).m.l2held = s.m.l2held := rfl
@[simp] theorem State.winWrite_m_fillCtr (s : State) (a : Nat) (bs : List Byte) : (s.winWrite a bs).m.fillCtr = s.m.fillCtr := rfl
@[simp] theorem State.winWrite_m_contexts (s : State) (a : Nat) (bs : List Byte) : (s.winWrite a bs).m.contexts = s.m.contexts := rfl
@[simp] theorem State.winWrite_m_queues (s : State) (a : Nat) (bs : List Byte) : (s.winWrite a bs).m.queues = s.m.queues := rfl
@[simp] theorem State.winWrite_m_qtbase (s : State) (a : Nat) (bs : List Byte) : (s.winWrite a bs).m.qtbase = s.m.qtbase := rfl
@[simp] theorem State.winWrite_m_page (s : State) (a : Nat) (bs : List Byte) : (s.winWrite a bs).m.page = s.m.page := rfl
@[simp] theorem State.winWrite_m_links (s : State) (a : Nat) (bs : List Byte) : (s.winWrite a bs).m.links = s.m.links := rfl
@[simp] theorem State.winWrite_m_eth (s : State) (a : Nat) (bs : List Byte) : (s.winWrite a bs).m.eth = s.m.eth := rfl
@[simp] theorem State.winWrite_m_domofs (s : State) (a : Nat) (bs : List Byte) : (s.winWrite a bs).m.domofs = s.m.domofs := rfl
@[simp] theorem State.winWrite_m_domdly (s : State) (a : Nat) (bs : List Byte) : (s.winWrite a bs).m.domdly = s.m.domdly := rfl
@[simp] theorem State.winWrite_m_refmod (s : State) (a : Nat) (bs : List Byte) : (s.winWrite a bs).m.refmod = s.m.refmod := rfl
@[simp] theorem State.winWrite_m_alignSent (s : State) (a : Nat) (bs : List Byte) : (s.winWrite a bs).m.alignSent = s.m.alignSent := rfl
@[simp] theorem State.winWrite_m_debugRegs (s : State) (a : Nat) (bs : List Byte) : (s.winWrite a bs).m.debugRegs = s.m.debugRegs := rfl
@[simp] theorem State.winWrite_m_pwrbud (s : State) (a : Nat) (bs : List Byte) : (s.winWrite a bs).m.pwrbud = s.m.pwrbud := rfl
@[simp] theorem State.winWrite_m_grant (s : State) (a : Nat) (bs : List Byte) : (s.winWrite a bs).m.grant = s.m.grant := rfl
@[simp] theorem State.winWrite_m_tcap (s : State) (a : Nat) (bs : List Byte) : (s.winWrite a bs).m.tcap = s.m.tcap := rfl
@[simp] theorem State.winWrite_m_eprev (s : State) (a : Nat) (bs : List Byte) : (s.winWrite a bs).m.eprev = s.m.eprev := rfl
@[simp] theorem State.winWrite_m_seq (s : State) (a : Nat) (bs : List Byte) : (s.winWrite a bs).m.seq = s.m.seq := rfl
@[simp] theorem State.winWrite_m_bar0 (s : State) (a : Nat) (bs : List Byte) : (s.winWrite a bs).m.bar0 = s.m.bar0 := rfl
@[simp] theorem State.winWrite_m_bar2 (s : State) (a : Nat) (bs : List Byte) : (s.winWrite a bs).m.bar2 = s.m.bar2 := rfl
@[simp] theorem State.winWrite_m_bar4 (s : State) (a : Nat) (bs : List Byte) : (s.winWrite a bs).m.bar4 = s.m.bar4 := rfl
@[simp] theorem State.winWrite_m_ctxbase (s : State) (a : Nat) (bs : List Byte) : (s.winWrite a bs).m.ctxbase = s.m.ctxbase := rfl
@[simp] theorem State.winWrite_m_layout (s : State) (a : Nat) (bs : List Byte) : (s.winWrite a bs).m.layout = s.m.layout := rfl
@[simp] theorem State.winWrite_m_nextLayout (s : State) (a : Nat) (bs : List Byte) : (s.winWrite a bs).m.nextLayout = s.m.nextLayout := rfl
@[simp] theorem State.winWrite_m_bringUp (s : State) (a : Nat) (bs : List Byte) : (s.winWrite a bs).m.bringUp = s.m.bringUp := rfl
@[simp] theorem State.winWrite_m_failing (s : State) (a : Nat) (bs : List Byte) : (s.winWrite a bs).m.failing = s.m.failing := rfl

@[simp] theorem State.winClear_mem (s : State) (a n : Nat) : (s.winClear a n).mem = s.mem := rfl
@[simp] theorem State.winClear_memPoison (s : State) (a n : Nat) : (s.winClear a n).memPoison = s.memPoison := rfl
@[simp] theorem State.winClear_slog (s : State) (a n : Nat) : (s.winClear a n).slog = s.slog := rfl
@[simp] theorem State.winClear_mgmt (s : State) (a n : Nat) : (s.winClear a n).mgmt = s.mgmt := rfl
@[simp] theorem State.winClear_modnum (s : State) (a n : Nat) : (s.winClear a n).modnum = s.modnum := rfl
@[simp] theorem State.winClear_routes (s : State) (a n : Nat) : (s.winClear a n).routes = s.routes := rfl
@[simp] theorem State.winClear_hcnt (s : State) (a n : Nat) : (s.winClear a n).hcnt = s.hcnt := rfl
@[simp] theorem State.winClear_logNext (s : State) (a n : Nat) : (s.winClear a n).logNext = s.logNext := rfl
@[simp] theorem State.winClear_images (s : State) (a n : Nat) : (s.winClear a n).images = s.images := rfl
@[simp] theorem State.winClear_inbox (s : State) (a n : Nat) : (s.winClear a n).inbox = s.inbox := rfl
@[simp] theorem State.winClear_outbox (s : State) (a n : Nat) : (s.winClear a n).outbox = s.outbox := rfl
@[simp] theorem State.winClear_nonce (s : State) (a n : Nat) : (s.winClear a n).nonce = s.nonce := rfl
@[simp] theorem State.winClear_report (s : State) (a n : Nat) : (s.winClear a n).report = s.report := rfl
@[simp] theorem State.winClear_frozen (s : State) (a n : Nat) : (s.winClear a n).frozen = s.frozen := rfl
@[simp] theorem State.winClear_m_cycle (s : State) (a n : Nat) : (s.winClear a n).m.cycle = s.m.cycle := rfl
@[simp] theorem State.winClear_m_phase (s : State) (a n : Nat) : (s.winClear a n).m.phase = s.m.phase := rfl
@[simp] theorem State.winClear_m_agenda (s : State) (a n : Nat) : (s.winClear a n).m.agenda = s.m.agenda := rfl
@[simp] theorem State.winClear_m_resumes (s : State) (a n : Nat) : (s.winClear a n).m.resumes = s.m.resumes := rfl
@[simp] theorem State.winClear_m_ev (s : State) (a n : Nat) : (s.winClear a n).m.ev = s.m.ev := rfl
@[simp] theorem State.winClear_m_packet (s : State) (a n : Nat) : (s.winClear a n).m.packet = s.m.packet := rfl
@[simp] theorem State.winClear_m_packetPc (s : State) (a n : Nat) : (s.winClear a n).m.packetPc = s.m.packetPc := rfl
@[simp] theorem State.winClear_m_packetDenied (s : State) (a n : Nat) : (s.winClear a n).m.packetDenied = s.m.packetDenied := rfl
@[simp] theorem State.winClear_m_flight (s : State) (a n : Nat) : (s.winClear a n).m.flight = s.m.flight := rfl
@[simp] theorem State.winClear_m_remote (s : State) (a n : Nat) : (s.winClear a n).m.remote = s.m.remote := rfl
@[simp] theorem State.winClear_m_hostTags (s : State) (a n : Nat) : (s.winClear a n).m.hostTags = s.m.hostTags := rfl
@[simp] theorem State.winClear_m_hostQueue (s : State) (a n : Nat) : (s.winClear a n).m.hostQueue = s.m.hostQueue := rfl
@[simp] theorem State.winClear_m_evictions (s : State) (a n : Nat) : (s.winClear a n).m.evictions = s.m.evictions := rfl
@[simp] theorem State.winClear_m_records (s : State) (a n : Nat) : (s.winClear a n).m.records = s.m.records := rfl
@[simp] theorem State.winClear_m_traces (s : State) (a n : Nat) : (s.winClear a n).m.traces = s.m.traces := rfl
@[simp] theorem State.winClear_m_before (s : State) (a n : Nat) : (s.winClear a n).m.before = s.m.before := rfl
@[simp] theorem State.winClear_m_nextId (s : State) (a n : Nat) : (s.winClear a n).m.nextId = s.m.nextId := rfl
@[simp] theorem State.winClear_m_free (s : State) (a n : Nat) : (s.winClear a n).m.free = s.m.free := rfl
@[simp] theorem State.winClear_m_threads (s : State) (a n : Nat) : (s.winClear a n).m.threads = s.m.threads := rfl
@[simp] theorem State.winClear_m_gangs (s : State) (a n : Nat) : (s.winClear a n).m.gangs = s.m.gangs := rfl
@[simp] theorem State.winClear_m_teams (s : State) (a n : Nat) : (s.winClear a n).m.teams = s.m.teams := rfl
@[simp] theorem State.winClear_m_kernels (s : State) (a n : Nat) : (s.winClear a n).m.kernels = s.m.kernels := rfl
@[simp] theorem State.winClear_m_nextKid (s : State) (a n : Nat) : (s.winClear a n).m.nextKid = s.m.nextKid := rfl
@[simp] theorem State.winClear_m_early (s : State) (a n : Nat) : (s.winClear a n).m.early = s.m.early := rfl
@[simp] theorem State.winClear_m_hubs (s : State) (a n : Nat) : (s.winClear a n).m.hubs = s.m.hubs := rfl
@[simp] theorem State.winClear_m_quarters (s : State) (a n : Nat) : (s.winClear a n).m.quarters = s.m.quarters := rfl
@[simp] theorem State.winClear_m_l2 (s : State) (a n : Nat) : (s.winClear a n).m.l2 = s.m.l2 := rfl
@[simp] theorem State.winClear_m_l2held (s : State) (a n : Nat) : (s.winClear a n).m.l2held = s.m.l2held := rfl
@[simp] theorem State.winClear_m_fillCtr (s : State) (a n : Nat) : (s.winClear a n).m.fillCtr = s.m.fillCtr := rfl
@[simp] theorem State.winClear_m_contexts (s : State) (a n : Nat) : (s.winClear a n).m.contexts = s.m.contexts := rfl
@[simp] theorem State.winClear_m_queues (s : State) (a n : Nat) : (s.winClear a n).m.queues = s.m.queues := rfl
@[simp] theorem State.winClear_m_qtbase (s : State) (a n : Nat) : (s.winClear a n).m.qtbase = s.m.qtbase := rfl
@[simp] theorem State.winClear_m_page (s : State) (a n : Nat) : (s.winClear a n).m.page = s.m.page := rfl
@[simp] theorem State.winClear_m_links (s : State) (a n : Nat) : (s.winClear a n).m.links = s.m.links := rfl
@[simp] theorem State.winClear_m_eth (s : State) (a n : Nat) : (s.winClear a n).m.eth = s.m.eth := rfl
@[simp] theorem State.winClear_m_domofs (s : State) (a n : Nat) : (s.winClear a n).m.domofs = s.m.domofs := rfl
@[simp] theorem State.winClear_m_domdly (s : State) (a n : Nat) : (s.winClear a n).m.domdly = s.m.domdly := rfl
@[simp] theorem State.winClear_m_refmod (s : State) (a n : Nat) : (s.winClear a n).m.refmod = s.m.refmod := rfl
@[simp] theorem State.winClear_m_alignSent (s : State) (a n : Nat) : (s.winClear a n).m.alignSent = s.m.alignSent := rfl
@[simp] theorem State.winClear_m_debugRegs (s : State) (a n : Nat) : (s.winClear a n).m.debugRegs = s.m.debugRegs := rfl
@[simp] theorem State.winClear_m_pwrbud (s : State) (a n : Nat) : (s.winClear a n).m.pwrbud = s.m.pwrbud := rfl
@[simp] theorem State.winClear_m_grant (s : State) (a n : Nat) : (s.winClear a n).m.grant = s.m.grant := rfl
@[simp] theorem State.winClear_m_tcap (s : State) (a n : Nat) : (s.winClear a n).m.tcap = s.m.tcap := rfl
@[simp] theorem State.winClear_m_eprev (s : State) (a n : Nat) : (s.winClear a n).m.eprev = s.m.eprev := rfl
@[simp] theorem State.winClear_m_seq (s : State) (a n : Nat) : (s.winClear a n).m.seq = s.m.seq := rfl
@[simp] theorem State.winClear_m_bar0 (s : State) (a n : Nat) : (s.winClear a n).m.bar0 = s.m.bar0 := rfl
@[simp] theorem State.winClear_m_bar2 (s : State) (a n : Nat) : (s.winClear a n).m.bar2 = s.m.bar2 := rfl
@[simp] theorem State.winClear_m_bar4 (s : State) (a n : Nat) : (s.winClear a n).m.bar4 = s.m.bar4 := rfl
@[simp] theorem State.winClear_m_ctxbase (s : State) (a n : Nat) : (s.winClear a n).m.ctxbase = s.m.ctxbase := rfl
@[simp] theorem State.winClear_m_layout (s : State) (a n : Nat) : (s.winClear a n).m.layout = s.m.layout := rfl
@[simp] theorem State.winClear_m_nextLayout (s : State) (a n : Nat) : (s.winClear a n).m.nextLayout = s.m.nextLayout := rfl
@[simp] theorem State.winClear_m_bringUp (s : State) (a n : Nat) : (s.winClear a n).m.bringUp = s.m.bringUp := rfl
@[simp] theorem State.winClear_m_failing (s : State) (a n : Nat) : (s.winClear a n).m.failing = s.m.failing := rfl

/-- A changed thread is found again with its change, when its name stays. -/
theorem updBy_find? {α : Type} (p : α → Bool) (f : α → α) (hp : ∀ x, p x = true → p (f x) = true) (l : List α) :
    (updBy p f l).find? p = (l.find? p).map f := by
  induction l with
  | nil => rfl
  | cons x l ih =>
    cases h : p x with
    | true => simp [updBy, h, hp x h]
    | false => simpa [updBy, h] using ih

/-- An update of entries that another key does not name leaves the entry that the key finds. -/
theorem updBy_find?_other {α : Type} (p q : α → Bool) (f : α → α) (hf : ∀ x, p x = true → q x = false ∧ q (f x) = false)
    (l : List α) : (updBy p f l).find? q = l.find? q := by
  induction l with
  | nil => rfl
  | cons x l ih =>
    cases h : p x with
    | true => simpa [updBy, h, (hf x h).1, (hf x h).2] using ih
    | false =>
      cases hq : q x with
      | true => simp [updBy, h, hq]
      | false => simpa [updBy, h, hq] using ih

/-- What is put under a key is what the key finds. -/
theorem putBy_find? {α : Type} (p : α → Bool) (x : α) (hx : p x = true) (l : List α) : (putBy p x l).find? p = some x := by
  induction l with
  | nil => simp [putBy, hx]
  | cons y l ih =>
    cases h : p y with
    | true => simp [putBy, h, hx]
    | false => simpa [putBy, h] using ih

/-- A thread that is set is the thread of its name, when the machine has one of that name. -/
theorem State.thread?_setThread (s : State) (t : Thread) (h : (s.thread? t.ref).isSome) :
    (s.setThread t).thread? t.ref = some t := by
  obtain ⟨u, hu⟩ := Option.isSome_iff_exists.mp h
  have h1 := updBy_find? (fun x : Thread => x.ref == t.ref) (fun _ => t) (by simp) s.m.threads
  exact h1.trans (congrArg (Option.map fun _ => t) hu)

/-- The other threads stay. -/
theorem State.thread?_setThread_other (s : State) (t : Thread) (r : ThreadRef) (h : r ≠ t.ref) :
    (s.setThread t).thread? r = s.thread? r := by
  refine updBy_find?_other (fun x : Thread => x.ref == t.ref) (fun x : Thread => x.ref == r) (fun _ => t) ?_ s.m.threads
  intro x hx
  have : x.ref = t.ref := by simpa using hx
  simp [this, Ne.symm h]

/-- A hub that is set is read back, and the others stay. -/
theorem State.hub_setHub (s : State) (x : Hub) : (s.setHub x).hub x.hub = x := by
  show ((putBy (fun y : Hub => y.hub == x.hub) x s.m.hubs).find? (fun y : Hub => y.hub == x.hub)).getD _ = x
  rw [putBy_find? (fun y : Hub => y.hub == x.hub) x (by simp)]; rfl

/-- A quarter that is set is read back. -/
theorem State.quarter_setQuarter (s : State) (x : Quarter) : (s.setQuarter x).quarter x.q = x := by
  show ((putBy (fun y : Quarter => y.q == x.q) x s.m.quarters).find? (fun y : Quarter => y.q == x.q)).getD _ = x
  rw [putBy_find? (fun y : Quarter => y.q == x.q) x (by simp)]; rfl

/-! ## An operation performed, a record noted, a tack resolved -/

@[simp] theorem State.performed_mem (s : State) (r : ThreadRef) (tok : Nat) : (s.performed r tok).mem = s.mem := rfl
@[simp] theorem State.performed_memPoison (s : State) (r : ThreadRef) (tok : Nat) : (s.performed r tok).memPoison = s.memPoison := rfl
@[simp] theorem State.performed_slog (s : State) (r : ThreadRef) (tok : Nat) : (s.performed r tok).slog = s.slog := rfl
@[simp] theorem State.performed_mgmt (s : State) (r : ThreadRef) (tok : Nat) : (s.performed r tok).mgmt = s.mgmt := rfl
@[simp] theorem State.performed_modnum (s : State) (r : ThreadRef) (tok : Nat) : (s.performed r tok).modnum = s.modnum := rfl
@[simp] theorem State.performed_routes (s : State) (r : ThreadRef) (tok : Nat) : (s.performed r tok).routes = s.routes := rfl
@[simp] theorem State.performed_hcnt (s : State) (r : ThreadRef) (tok : Nat) : (s.performed r tok).hcnt = s.hcnt := rfl
@[simp] theorem State.performed_logNext (s : State) (r : ThreadRef) (tok : Nat) : (s.performed r tok).logNext = s.logNext := rfl
@[simp] theorem State.performed_images (s : State) (r : ThreadRef) (tok : Nat) : (s.performed r tok).images = s.images := rfl
@[simp] theorem State.performed_inbox (s : State) (r : ThreadRef) (tok : Nat) : (s.performed r tok).inbox = s.inbox := rfl
@[simp] theorem State.performed_outbox (s : State) (r : ThreadRef) (tok : Nat) : (s.performed r tok).outbox = s.outbox := rfl
@[simp] theorem State.performed_nonce (s : State) (r : ThreadRef) (tok : Nat) : (s.performed r tok).nonce = s.nonce := rfl
@[simp] theorem State.performed_report (s : State) (r : ThreadRef) (tok : Nat) : (s.performed r tok).report = s.report := rfl
@[simp] theorem State.performed_frozen (s : State) (r : ThreadRef) (tok : Nat) : (s.performed r tok).frozen = s.frozen := rfl
@[simp] theorem State.performed_m (s : State) (r : ThreadRef) (tok : Nat) : (s.performed r tok).m =
    { s.m with threads := updBy (·.ref == r) (·.performed tok) s.m.threads } := rfl

@[simp] theorem State.settleTack_mem (s : State) (hub core tok : Nat) (c : Bool) : (s.settleTack hub core tok c).mem = s.mem := rfl
@[simp] theorem State.settleTack_memPoison (s : State) (hub core tok : Nat) (c : Bool) : (s.settleTack hub core tok c).memPoison = s.memPoison := rfl
@[simp] theorem State.settleTack_slog (s : State) (hub core tok : Nat) (c : Bool) : (s.settleTack hub core tok c).slog = s.slog := rfl
@[simp] theorem State.settleTack_mgmt (s : State) (hub core tok : Nat) (c : Bool) : (s.settleTack hub core tok c).mgmt = s.mgmt := rfl
@[simp] theorem State.settleTack_modnum (s : State) (hub core tok : Nat) (c : Bool) : (s.settleTack hub core tok c).modnum = s.modnum := rfl
@[simp] theorem State.settleTack_routes (s : State) (hub core tok : Nat) (c : Bool) : (s.settleTack hub core tok c).routes = s.routes := rfl
@[simp] theorem State.settleTack_hcnt (s : State) (hub core tok : Nat) (c : Bool) : (s.settleTack hub core tok c).hcnt = s.hcnt := rfl
@[simp] theorem State.settleTack_logNext (s : State) (hub core tok : Nat) (c : Bool) : (s.settleTack hub core tok c).logNext = s.logNext := rfl
@[simp] theorem State.settleTack_images (s : State) (hub core tok : Nat) (c : Bool) : (s.settleTack hub core tok c).images = s.images := rfl
@[simp] theorem State.settleTack_inbox (s : State) (hub core tok : Nat) (c : Bool) : (s.settleTack hub core tok c).inbox = s.inbox := rfl
@[simp] theorem State.settleTack_outbox (s : State) (hub core tok : Nat) (c : Bool) : (s.settleTack hub core tok c).outbox = s.outbox := rfl
@[simp] theorem State.settleTack_nonce (s : State) (hub core tok : Nat) (c : Bool) : (s.settleTack hub core tok c).nonce = s.nonce := rfl
@[simp] theorem State.settleTack_report (s : State) (hub core tok : Nat) (c : Bool) : (s.settleTack hub core tok c).report = s.report := rfl
@[simp] theorem State.settleTack_frozen (s : State) (hub core tok : Nat) (c : Bool) : (s.settleTack hub core tok c).frozen = s.frozen := rfl
@[simp] theorem State.settleTack_m (s : State) (hub core tok : Nat) (c : Bool) : (s.settleTack hub core tok c).m =
    { s.m with nextId := s.m.nextId + 1, flight := s.m.flight ++ [{ id := s.m.nextId, due := s.m.cycle, msg := .tackReply hub core tok c }] } := rfl

/-- Counting an event changes the counters alone. -/
theorem State.count_eq (s : State) (hub code n : Nat) : s.count hub code n = { s with hcnt := (s.count hub code n).hcnt } := by
  unfold State.count
  refine List.foldlRecOn (motive := fun t : State => t = { s with hcnt := t.hcnt }) _ _ rfl fun t ht k _ => ?_
  split
  · rw [ht]
  · exact ht
@[simp] theorem State.count_m (s : State) (hub code n : Nat) : (s.count hub code n).m = s.m := by rw [State.count_eq]
@[simp] theorem State.count_mem (s : State) (hub code n : Nat) : (s.count hub code n).mem = s.mem := by rw [State.count_eq]
@[simp] theorem State.count_mgmt (s : State) (hub code n : Nat) : (s.count hub code n).mgmt = s.mgmt := by rw [State.count_eq]

/-- A resolved entry changes `tackst` of its thread and the counters. -/
theorem State.resolveTack_m (s : State) (hub : Nat) (r : ThreadRef) (confirm : Bool) : (s.resolveTack hub r confirm).m =
    { s.m with threads := updBy (·.ref == r) (fun t => { t with tackst := tackResolved t.tackst confirm }) s.m.threads } := by
  unfold State.resolveTack
  rw [State.count_m]
  rfl

/-- An item that is sent changes the outside of the module alone. -/
@[simp] theorem State.transmit_m (s : State) (port : Nat) (bytes : List Byte) : (s.transmit port bytes).m = s.m := by
  unfold State.transmit
  split <;> rfl
@[simp] theorem State.transmit_mem (s : State) (port : Nat) (bytes : List Byte) : (s.transmit port bytes).mem = s.mem := by
  unfold State.transmit
  split <;> rfl

/-- The counts of an operation performed. -/
@[simp] theorem Thread.performed_ref (t : Thread) (tok : Nat) : (t.performed tok).ref = t.ref := rfl
@[simp] theorem Thread.performed_v (t : Thread) (tok : Nat) : (t.performed tok).v = t.v := rfl
@[simp] theorem Thread.performed_pc (t : Thread) (tok : Nat) : (t.performed tok).pc = t.pc := rfl
@[simp] theorem Thread.performed_pend (t : Thread) (tok : Nat) : (t.performed tok).pend = t.pend := rfl
/-- No operation of that number is outstanding after. -/
theorem Thread.performed_out (t : Thread) (tok : Nat) : ∀ o ∈ (t.performed tok).out, o.tok ≠ tok := by
  intro o ho
  have := (List.mem_filter.mp ho).2
  simpa using this

end Sys2Proof.Machine
end

