-- ==== Sys2Proof/Laws/Memory.lean ====
section
/-! SUPPORT. The byte memories: reads after writes, and the canonical form. -/

namespace Sys2Proof.Machine

/-- A memory whose cells all stand at or above the bound. -/
theorem Memory.wfFrom_mono {m : Memory} {a b : Nat} (hab : a ≤ b) (h : Memory.wfFrom b m = true) : Memory.wfFrom a m = true := by
  cases m with
  | nil => rfl
  | cons c m =>
    simp only [Memory.wfFrom, Bool.and_eq_true, decide_eq_true_eq] at h ⊢
    exact ⟨⟨by omega, h.1.2⟩, h.2⟩

/-- Below its bound a memory lists nothing. -/
theorem Memory.read_below {m : Memory} {lo a : Nat} (h : Memory.wfFrom lo m = true) (ha : a < lo) : m.read a = 0 := by
  cases m with
  | nil => rfl
  | cons c m =>
    simp only [Memory.wfFrom, Bool.and_eq_true, decide_eq_true_eq] at h
    have h1 : (c.1 == a) = false := by simp; omega
    have h2 : a < c.1 := by omega
    simp [Memory.read, h1, h2]

/-- A write keeps the canonical form. -/
theorem Memory.wfFrom_write {m : Memory} {lo a : Nat} (b : Byte) (h : Memory.wfFrom lo m = true) (ha : lo ≤ a) :
    Memory.wfFrom lo (m.write a b) = true := by
  induction m generalizing lo with
  | nil =>
    unfold Memory.write
    split
    · rfl
    · simp_all [Memory.wfFrom]
  | cons c m ih =>
    obtain ⟨k, c⟩ := c
    simp only [Memory.wfFrom, Bool.and_eq_true, decide_eq_true_eq] at h
    unfold Memory.write
    split
    · split
      · exact Memory.wfFrom_mono (by omega) h.2
      · simp_all [Memory.wfFrom]
    · rename_i hne
      have hne : k ≠ a := by simpa using hne
      split
      · split
        · simp_all [Memory.wfFrom]
        · simp_all [Memory.wfFrom]
      · have := ih h.2 (by omega)
        simp_all [Memory.wfFrom]

theorem Memory.wf_write {m : Memory} (a : Nat) (b : Byte) (h : m.wf = true) : (m.write a b).wf = true :=
  Memory.wfFrom_write b h (Nat.zero_le a)

theorem Memory.wf_writeBytes {m : Memory} (a : Nat) (bs : List Byte) (h : m.wf = true) : (m.writeBytes a bs).wf = true := by
  induction bs generalizing m a with
  | nil => exact h
  | cons b bs ih => exact ih (a + 1) (Memory.wf_write a b h)

/-- Leaving out cells keeps the canonical form. -/
theorem Memory.wfFrom_filter {m : Memory} {lo : Nat} (p : Host.Cell → Bool) (h : Memory.wfFrom lo m = true) :
    Memory.wfFrom lo (m.filter p) = true := by
  induction m generalizing lo with
  | nil => rfl
  | cons c m ih =>
    obtain ⟨k, c⟩ := c
    simp only [Memory.wfFrom, Bool.and_eq_true, decide_eq_true_eq] at h
    rw [List.filter_cons]
    split
    · simp [Memory.wfFrom, h.1.1, ih h.2]
      simpa using h.1.2
    · exact Memory.wfFrom_mono (by omega) (ih h.2)

theorem Memory.wf_filter {m : Memory} (p : Host.Cell → Bool) (h : m.wf = true) : Memory.wf (m.filter p) = true :=
  Memory.wfFrom_filter p h

/-- Cells written one by one have the canonical form. -/
theorem Memory.wf_tidy (m : Memory) : (Memory.tidy m).wf = true := by
  unfold Memory.tidy
  exact List.foldlRecOn (motive := fun t : Memory => t.wf = true) _ _ rfl fun t ht c _ => Memory.wf_write c.1 c.2 ht

/-- An image has its memories in canonical form once tidied. -/
theorem Image.tidy_wf (x : Image) (memimg : Bool) :
    Memory.wf (x.tidy memimg).module.win = true ∧ Memory.wf (x.tidy memimg).module.debugRegs = true ∧
    ∀ h, (x.tidy memimg).memory = some h → Memory.wf h = true := by
  refine ⟨Memory.wf_tidy _, Memory.wf_tidy _, fun h hh => ?_⟩
  cases memimg
  · exact nomatch hh
  · exact Option.some.inj hh ▸ Memory.wf_filter _ (Memory.wf_tidy _)

/-- A byte written is read back. -/
theorem Memory.read_write_self {m : Memory} {lo a : Nat} (b : Byte) (h : Memory.wfFrom lo m = true) :
    (m.write a b).read a = b := by
  induction m generalizing lo with
  | nil =>
    unfold Memory.write
    split
    · rename_i hb; simp_all [Memory.read]
    · simp [Memory.read]
  | cons c m ih =>
    obtain ⟨k, c⟩ := c
    simp only [Memory.wfFrom, Bool.and_eq_true, decide_eq_true_eq] at h
    unfold Memory.write
    split
    · rename_i hk
      have hk : k = a := by simpa using hk
      split
      · rename_i hb
        rw [Memory.read_below h.2 (by omega)]; simpa using (Eq.symm (by simpa using hb))
      · simp [Memory.read, hk]
    · rename_i hk
      split
      · rename_i hlt
        split
        · rename_i hb
          have hb : b = 0 := by simpa using hb
          simp [Memory.read, hk, hlt, hb]
        · simp [Memory.read]
      · rename_i hlt
        simp [Memory.read, hk, hlt]
        exact ih h.2

/-- Every other address reads as before. -/
theorem Memory.read_write_other {m : Memory} {lo a x : Nat} (b : Byte) (h : Memory.wfFrom lo m = true) (hx : x ≠ a) :
    (m.write a b).read x = m.read x := by
  induction m generalizing lo with
  | nil =>
    unfold Memory.write
    split
    · rfl
    · have : (a == x) = false := by simp; omega
      simp [Memory.read, this]
  | cons c m ih =>
    obtain ⟨k, c⟩ := c
    simp only [Memory.wfFrom, Bool.and_eq_true, decide_eq_true_eq] at h
    unfold Memory.write
    split
    · rename_i hk
      have hk : k = a := by simpa using hk
      have hkx : (k == x) = false := by simp; omega
      split
      · by_cases hlt : x < k
        · rw [Memory.read_below h.2 (by omega)]; simp [Memory.read, hkx, hlt]
        · simp [Memory.read, hkx, hlt]
      · simp [Memory.read, hkx]
    · rename_i hk
      split
      · rename_i hlt
        split
        · rfl
        · have hax : (a == x) = false := by simp; omega
          by_cases hxa : x < a
          · have hkx : (k == x) = false := by simp; omega
            have : x < k := by omega
            simp [Memory.read, hax, hxa, hkx, this]
          · simp [Memory.read, hax, hxa]
      · unfold Memory.read
        rw [ih h.2]

/-- A cleared range keeps the windows' canonical form, as does a write. -/
theorem State.winWrite_wf (s : State) (a : Nat) (bs : List Byte) (h : Memory.wf s.m.win = true) :
    Memory.wf (s.winWrite a bs).m.win = true := Memory.wf_writeBytes a bs h
theorem State.winClear_wf (s : State) (a n : Nat) (h : Memory.wf s.m.win = true) :
    Memory.wf (s.winClear a n).m.win = true := Memory.wf_filter _ h

end Sys2Proof.Machine
end

