-- ==== Sys2Proof/Laws/PerInstr.lean ====
section
/-! SUPPORT. Family Words: the form that a constructor stands for is read back as that constructor, where its selecting
field holds the constructor's value (R63, R68, R69). One lemma for each constructor; an event has no form. -/

namespace Sys2Proof.Laws.Words

/-- The instruction's form names the instruction. -/
def Statement (i : Instr) : Prop := ∀ c, i.code = some c → i.selects = true → c.instr? = some i

theorem add (o : Base) : Statement (.add o) := by intro _ h _; cases h; rfl
theorem addExt (o : Ext) : Statement (.addExt o) := by intro _ h _; cases h; rfl
theorem sub (o : Base) : Statement (.sub o) := by intro _ h _; cases h; rfl
theorem subExt (o : Ext) : Statement (.subExt o) := by intro _ h _; cases h; rfl
theorem mul (o : Base) : Statement (.mul o) := by intro _ h _; cases h; rfl
theorem mulExt (o : Ext) : Statement (.mulExt o) := by intro _ h _; cases h; rfl
theorem mulh (o : Base) : Statement (.mulh o) := by intro _ h _; cases h; rfl
theorem mulhExt (o : Ext) : Statement (.mulhExt o) := by intro _ h _; cases h; rfl
theorem mad (o : Base) : Statement (.mad o) := by intro _ h _; cases h; rfl
theorem madExt (o : Ext) : Statement (.madExt o) := by intro _ h _; cases h; rfl
theorem neg (o : Base) : Statement (.neg o) := by intro _ h _; cases h; rfl
theorem negExt (o : Ext) : Statement (.negExt o) := by intro _ h _; cases h; rfl
theorem abs (o : Base) : Statement (.abs o) := by intro _ h _; cases h; rfl
theorem absExt (o : Ext) : Statement (.absExt o) := by intro _ h _; cases h; rfl
theorem min (o : Base) : Statement (.min o) := by intro _ h _; cases h; rfl
theorem minExt (o : Ext) : Statement (.minExt o) := by intro _ h _; cases h; rfl
theorem max (o : Base) : Statement (.max o) := by intro _ h _; cases h; rfl
theorem maxExt (o : Ext) : Statement (.maxExt o) := by intro _ h _; cases h; rfl
theorem and (o : Base) : Statement (.and o) := by intro _ h _; cases h; rfl
theorem andExt (o : Ext) : Statement (.andExt o) := by intro _ h _; cases h; rfl
theorem or (o : Base) : Statement (.or o) := by intro _ h _; cases h; rfl
theorem orExt (o : Ext) : Statement (.orExt o) := by intro _ h _; cases h; rfl
theorem xor (o : Base) : Statement (.xor o) := by intro _ h _; cases h; rfl
theorem xorExt (o : Ext) : Statement (.xorExt o) := by intro _ h _; cases h; rfl
theorem not (o : Base) : Statement (.not o) := by intro _ h _; cases h; rfl
theorem notExt (o : Ext) : Statement (.notExt o) := by intro _ h _; cases h; rfl
theorem andn (o : Base) : Statement (.andn o) := by intro _ h _; cases h; rfl
theorem andnExt (o : Ext) : Statement (.andnExt o) := by intro _ h _; cases h; rfl
theorem shl (o : Base) : Statement (.shl o) := by intro _ h _; cases h; rfl
theorem shlExt (o : Ext) : Statement (.shlExt o) := by intro _ h _; cases h; rfl
theorem shr (o : Base) : Statement (.shr o) := by intro _ h _; cases h; rfl
theorem shrExt (o : Ext) : Statement (.shrExt o) := by intro _ h _; cases h; rfl
theorem sar (o : Base) : Statement (.sar o) := by intro _ h _; cases h; rfl
theorem sarExt (o : Ext) : Statement (.sarExt o) := by intro _ h _; cases h; rfl
theorem rot (o : Base) : Statement (.rot o) := by intro _ h _; cases h; rfl
theorem rotExt (o : Ext) : Statement (.rotExt o) := by intro _ h _; cases h; rfl
theorem bfe (o : Base) : Statement (.bfe o) := by intro _ h _; cases h; rfl
theorem bfeExt (o : Ext) : Statement (.bfeExt o) := by intro _ h _; cases h; rfl
theorem bfi (o : Base) : Statement (.bfi o) := by intro _ h _; cases h; rfl
theorem bfiExt (o : Ext) : Statement (.bfiExt o) := by intro _ h _; cases h; rfl
theorem popc (o : Base) : Statement (.popc o) := by intro _ h _; cases h; rfl
theorem popcExt (o : Ext) : Statement (.popcExt o) := by intro _ h _; cases h; rfl
theorem clz (o : Base) : Statement (.clz o) := by intro _ h _; cases h; rfl
theorem clzExt (o : Ext) : Statement (.clzExt o) := by intro _ h _; cases h; rfl
theorem ctz (o : Base) : Statement (.ctz o) := by intro _ h _; cases h; rfl
theorem ctzExt (o : Ext) : Statement (.ctzExt o) := by intro _ h _; cases h; rfl
theorem brev (o : Base) : Statement (.brev o) := by intro _ h _; cases h; rfl
theorem brevExt (o : Ext) : Statement (.brevExt o) := by intro _ h _; cases h; rfl
theorem sel (o : Ext) : Statement (.sel o) := by intro _ h _; cases h; rfl
theorem mov (o : Base) : Statement (.mov o) := by intro _ h _; cases h; rfl
theorem movExt (o : Ext) : Statement (.movExt o) := by intro _ h _; cases h; rfl
theorem movk (o : Base) : Statement (.movk o) := by intro _ h _; cases h; rfl
theorem movkExt (o : Ext) : Statement (.movkExt o) := by intro _ h _; cases h; rfl
theorem lea (o : Base) : Statement (.lea o) := by intro _ h _; cases h; rfl
theorem leaExt (o : Ext) : Statement (.leaExt o) := by intro _ h _; cases h; rfl
theorem cmp (o : Base) : Statement (.cmp o) := by intro _ h _; cases h; rfl
theorem cmpExt (o : Ext) : Statement (.cmpExt o) := by intro _ h _; cases h; rfl
theorem div (o : Base) : Statement (.div o) := by intro _ h _; cases h; rfl
theorem divExt (o : Ext) : Statement (.divExt o) := by intro _ h _; cases h; rfl
theorem rem (o : Base) : Statement (.rem o) := by intro _ h _; cases h; rfl
theorem remExt (o : Ext) : Statement (.remExt o) := by intro _ h _; cases h; rfl
theorem fadd (o : Base) : Statement (.fadd o) := by intro _ h _; cases h; rfl
theorem faddExt (o : Ext) : Statement (.faddExt o) := by intro _ h _; cases h; rfl
theorem fsub (o : Base) : Statement (.fsub o) := by intro _ h _; cases h; rfl
theorem fsubExt (o : Ext) : Statement (.fsubExt o) := by intro _ h _; cases h; rfl
theorem fmul (o : Base) : Statement (.fmul o) := by intro _ h _; cases h; rfl
theorem fmulExt (o : Ext) : Statement (.fmulExt o) := by intro _ h _; cases h; rfl
theorem ffma (o : Base) : Statement (.ffma o) := by intro _ h _; cases h; rfl
theorem ffmaExt (o : Ext) : Statement (.ffmaExt o) := by intro _ h _; cases h; rfl
theorem fmin (o : Base) : Statement (.fmin o) := by intro _ h _; cases h; rfl
theorem fminExt (o : Ext) : Statement (.fminExt o) := by intro _ h _; cases h; rfl
theorem fmax (o : Base) : Statement (.fmax o) := by intro _ h _; cases h; rfl
theorem fmaxExt (o : Ext) : Statement (.fmaxExt o) := by intro _ h _; cases h; rfl
theorem fabs (o : Base) : Statement (.fabs o) := by intro _ h _; cases h; rfl
theorem fabsExt (o : Ext) : Statement (.fabsExt o) := by intro _ h _; cases h; rfl
theorem fneg (o : Base) : Statement (.fneg o) := by intro _ h _; cases h; rfl
theorem fnegExt (o : Ext) : Statement (.fnegExt o) := by intro _ h _; cases h; rfl
theorem fcmp (o : Base) : Statement (.fcmp o) := by intro _ h _; cases h; rfl
theorem fcmpExt (o : Ext) : Statement (.fcmpExt o) := by intro _ h _; cases h; rfl
theorem frnd (o : Base) : Statement (.frnd o) := by intro _ h _; cases h; rfl
theorem frndExt (o : Ext) : Statement (.frndExt o) := by intro _ h _; cases h; rfl
theorem fclass (o : Base) : Statement (.fclass o) := by intro _ h _; cases h; rfl
theorem fclassExt (o : Ext) : Statement (.fclassExt o) := by intro _ h _; cases h; rfl
theorem fscale (o : Base) : Statement (.fscale o) := by intro _ h _; cases h; rfl
theorem fscaleExt (o : Ext) : Statement (.fscaleExt o) := by intro _ h _; cases h; rfl
theorem fcvt (o : Base) : Statement (.fcvt o) := by intro _ h _; cases h; rfl
theorem fcvtExt (o : Ext) : Statement (.fcvtExt o) := by intro _ h _; cases h; rfl
theorem fdp4 (o : Base) : Statement (.fdp4 o) := by intro _ h _; cases h; rfl
theorem fdp4Ext (o : Ext) : Statement (.fdp4Ext o) := by intro _ h _; cases h; rfl
theorem hadd2 (o : Base) : Statement (.hadd2 o) := by intro _ h _; cases h; rfl
theorem hadd2Ext (o : Ext) : Statement (.hadd2Ext o) := by intro _ h _; cases h; rfl
theorem hmul2 (o : Base) : Statement (.hmul2 o) := by intro _ h _; cases h; rfl
theorem hmul2Ext (o : Ext) : Statement (.hmul2Ext o) := by intro _ h _; cases h; rfl
theorem hfma2 (o : Base) : Statement (.hfma2 o) := by intro _ h _; cases h; rfl
theorem hfma2Ext (o : Ext) : Statement (.hfma2Ext o) := by intro _ h _; cases h; rfl
theorem hmin2 (o : Base) : Statement (.hmin2 o) := by intro _ h _; cases h; rfl
theorem hmin2Ext (o : Ext) : Statement (.hmin2Ext o) := by intro _ h _; cases h; rfl
theorem hmax2 (o : Base) : Statement (.hmax2 o) := by intro _ h _; cases h; rfl
theorem hmax2Ext (o : Ext) : Statement (.hmax2Ext o) := by intro _ h _; cases h; rfl
theorem hcmp2 (o : Base) : Statement (.hcmp2 o) := by intro _ h _; cases h; rfl
theorem hcmp2Ext (o : Ext) : Statement (.hcmp2Ext o) := by intro _ h _; cases h; rfl
theorem ex2 (o : Base) : Statement (.ex2 o) := by intro _ h _; cases h; rfl
theorem ex2Ext (o : Ext) : Statement (.ex2Ext o) := by intro _ h _; cases h; rfl
theorem lg2 (o : Base) : Statement (.lg2 o) := by intro _ h _; cases h; rfl
theorem lg2Ext (o : Ext) : Statement (.lg2Ext o) := by intro _ h _; cases h; rfl
theorem rcp (o : Base) : Statement (.rcp o) := by intro _ h _; cases h; rfl
theorem rcpExt (o : Ext) : Statement (.rcpExt o) := by intro _ h _; cases h; rfl
theorem rsq (o : Base) : Statement (.rsq o) := by intro _ h _; cases h; rfl
theorem rsqExt (o : Ext) : Statement (.rsqExt o) := by intro _ h _; cases h; rfl
theorem sqrt (o : Base) : Statement (.sqrt o) := by intro _ h _; cases h; rfl
theorem sqrtExt (o : Ext) : Statement (.sqrtExt o) := by intro _ h _; cases h; rfl
theorem sin (o : Base) : Statement (.sin o) := by intro _ h _; cases h; rfl
theorem sinExt (o : Ext) : Statement (.sinExt o) := by intro _ h _; cases h; rfl
theorem cos (o : Base) : Statement (.cos o) := by intro _ h _; cases h; rfl
theorem cosExt (o : Ext) : Statement (.cosExt o) := by intro _ h _; cases h; rfl
theorem bra (o : Ext) : Statement (.bra o) := by intro _ h _; cases h; rfl
theorem brx (o : Base) : Statement (.brx o) := by intro _ h _; cases h; rfl
theorem brxExt (o : Ext) : Statement (.brxExt o) := by intro _ h _; cases h; rfl
theorem call (o : Ext) : Statement (.call o) := by intro _ h _; cases h; rfl
theorem callx (o : Base) : Statement (.callx o) := by intro _ h _; cases h; rfl
theorem callxExt (o : Ext) : Statement (.callxExt o) := by intro _ h _; cases h; rfl
theorem ret (o : Base) : Statement (.ret o) := by intro _ h _; cases h; rfl
theorem retExt (o : Ext) : Statement (.retExt o) := by intro _ h _; cases h; rfl
theorem exit (o : Base) : Statement (.exit o) := by intro _ h _; cases h; rfl
theorem exitExt (o : Ext) : Statement (.exitExt o) := by intro _ h _; cases h; rfl
theorem nop (o : Base) : Statement (.nop o) := by intro _ h _; cases h; rfl
theorem nopExt (o : Ext) : Statement (.nopExt o) := by intro _ h _; cases h; rfl
theorem yield (o : Base) : Statement (.yield o) := by intro _ h _; cases h; rfl
theorem yieldExt (o : Ext) : Statement (.yieldExt o) := by intro _ h _; cases h; rfl
theorem brk (o : Base) : Statement (.brk o) := by intro _ h _; cases h; rfl
theorem brkExt (o : Ext) : Statement (.brkExt o) := by intro _ h _; cases h; rfl
theorem plog (o : Ext) : Statement (.plog o) := by intro _ h _; cases h; rfl
theorem pmov (o : Base) : Statement (.pmov o) := by intro _ h _; cases h; rfl
theorem pmovExt (o : Ext) : Statement (.pmovExt o) := by intro _ h _; cases h; rfl
theorem shfl (o : Ext) : Statement (.shfl o) := by intro _ h _; cases h; rfl
theorem vote (o : Ext) : Statement (.vote o) := by intro _ h _; cases h; rfl
theorem rdfl (o : Base) : Statement (.rdfl o) := by intro _ h _; cases h; rfl
theorem rdflExt (o : Ext) : Statement (.rdflExt o) := by intro _ h _; cases h; rfl
theorem redux (o : Ext) : Statement (.redux o) := by intro _ h _; cases h; rfl
theorem scanInstr (o : Ext) : Statement (.scanInstr o) := by intro _ h _; cases h; rfl
theorem srd (o : Base) : Statement (.srd o) := by intro _ h _; cases h; rfl
theorem srdExt (o : Ext) : Statement (.srdExt o) := by intro _ h _; cases h; rfl
theorem swr (o : Base) : Statement (.swr o) := by intro _ h _; cases h; rfl
theorem swrExt (o : Ext) : Statement (.swrExt o) := by intro _ h _; cases h; rfl
theorem ld (o : Base) : Statement (.ld o) := by intro _ h _; cases h; rfl
theorem ldExt (o : Ext) : Statement (.ldExt o) := by intro _ h _; cases h; rfl
theorem st (o : Base) : Statement (.st o) := by intro _ h _; cases h; rfl
theorem stExt (o : Ext) : Statement (.stExt o) := by intro _ h _; cases h; rfl
theorem atom (o : Ext) : Statement (.atom o) := by intro _ h _; cases h; rfl
theorem red (o : Ext) : Statement (.red o) := by intro _ h _; cases h; rfl
theorem fence (o : Ext) : Statement (.fence o) := by intro _ h _; cases h; rfl
theorem pf (o : Ext) : Statement (.pf o) := by intro _ h _; cases h; rfl
theorem pres (o : Base) : Statement (.pres o) := by intro _ h _; cases h; rfl
theorem presExt (o : Ext) : Statement (.presExt o) := by intro _ h _; cases h; rfl
theorem sfence (o : Base) : Statement (.sfence o) := by intro _ h _; cases h; rfl
theorem sfenceExt (o : Ext) : Statement (.sfenceExt o) := by intro _ h _; cases h; rfl
theorem dcopy (o : Ext) : Statement (.dcopy o) := by intro _ h _; cases h; rfl
theorem pstep (o : Base) : Statement (.pstep o) := by intro _ h _; cases h; rfl
theorem pstepExt (o : Ext) : Statement (.pstepExt o) := by intro _ h _; cases h; rfl
theorem lkwait (o : Base) : Statement (.lkwait o) := by intro _ h _; cases h; rfl
theorem lkwaitExt (o : Ext) : Statement (.lkwaitExt o) := by intro _ h _; cases h; rfl
theorem tackLd (o : Base) : Statement (.tackLd o) := by intro _ h _; cases h; rfl
theorem tackLdExt (o : Ext) : Statement (.tackLdExt o) := by intro _ h _; cases h; rfl
theorem tackOpen (o : Base) : Statement (.tackOpen o) := by intro _ h _; cases h; rfl
theorem tackOpenExt (o : Ext) : Statement (.tackOpenExt o) := by intro _ h _; cases h; rfl
theorem tackChk (o : Ext) : Statement (.tackChk o) := by intro _ h _; cases h; rfl
theorem tackDrop (o : Base) : Statement (.tackDrop o) := by intro _ h _; cases h; rfl
theorem tackDropExt (o : Ext) : Statement (.tackDropExt o) := by intro _ h _; cases h; rfl
theorem gsync (o : Base) : Statement (.gsync o) := by intro _ h _; cases h; rfl
theorem gsyncExt (o : Ext) : Statement (.gsyncExt o) := by intro _ h _; cases h; rfl
theorem barArr (o : Ext) : Statement (.barArr o) := by
  intro _ h s; cases h; simp [Instr.selects] at s; simp [Code.instr?, extInstr, s]
theorem barWait (o : Ext) : Statement (.barWait o) := by
  intro _ h s; cases h; simp [Instr.selects] at s; simp [Code.instr?, extInstr, s]
theorem barSync (o : Ext) : Statement (.barSync o) := by
  intro _ h s; cases h; simp [Instr.selects] at s; simp [Code.instr?, extInstr, s]
theorem tbInit (o : Ext) : Statement (.tbInit o) := by
  intro _ h s; cases h; simp [Instr.selects] at s; simp [Code.instr?, extInstr, s]
theorem tbArr (o : Ext) : Statement (.tbArr o) := by
  intro _ h s; cases h; simp [Instr.selects] at s; simp [Code.instr?, extInstr, s]
theorem tbExp (o : Ext) : Statement (.tbExp o) := by
  intro _ h s; cases h; simp [Instr.selects] at s; simp [Code.instr?, extInstr, s]
theorem tbWait (o : Ext) : Statement (.tbWait o) := by
  intro _ h s; cases h; simp [Instr.selects] at s; simp [Code.instr?, extInstr, s]
theorem tbTest (o : Ext) : Statement (.tbTest o) := by
  intro _ h s; cases h; simp [Instr.selects] at s; simp [Code.instr?, extInstr, s]
theorem join (o : Base) : Statement (.join o) := by intro _ h _; cases h; rfl
theorem joinExt (o : Ext) : Statement (.joinExt o) := by intro _ h _; cases h; rfl
theorem gridsync (o : Base) : Statement (.gridsync o) := by intro _ h _; cases h; rfl
theorem gridsyncExt (o : Ext) : Statement (.gridsyncExt o) := by intro _ h _; cases h; rfl
theorem spawn (o : Ext) : Statement (.spawn o) := by intro _ h _; cases h; rfl
theorem xacq (o : Base) : Statement (.xacq o) := by intro _ h _; cases h; rfl
theorem xacqExt (o : Ext) : Statement (.xacqExt o) := by intro _ h _; cases h; rfl
theorem xrel (o : Base) : Statement (.xrel o) := by intro _ h _; cases h; rfl
theorem xrelExt (o : Ext) : Statement (.xrelExt o) := by intro _ h _; cases h; rfl
theorem rsmp (o : Ext) : Statement (.rsmp o) := by intro _ h _; cases h; rfl
theorem bkdecl (o : Ext) : Statement (.bkdecl o) := by intro _ h _; cases h; rfl
theorem mma (o : Ext) : Statement (.mma o) := by intro _ h _; cases h; rfl
theorem mzero (o : Ext) : Statement (.mzero o) := by intro _ h _; cases h; rfl
theorem mld (o : Ext) : Statement (.mld o) := by
  intro _ h s; cases h; simp [Instr.selects] at s; simp [Code.instr?, extInstr, s]
theorem mldRegs (o : Ext) : Statement (.mldRegs o) := by
  intro _ h s; cases h; simp [Instr.selects] at s; simp [Code.instr?, extInstr, s]
theorem mst (o : Ext) : Statement (.mst o) := by
  intro _ h s; cases h; simp [Instr.selects] at s; simp [Code.instr?, extInstr, s]
theorem mstRegs (o : Ext) : Statement (.mstRegs o) := by
  intro _ h s; cases h; simp [Instr.selects] at s; simp [Code.instr?, extInstr, s]
theorem mcvt (o : Ext) : Statement (.mcvt o) := by intro _ h _; cases h; rfl
theorem qblk (o : Ext) : Statement (.qblk o) := by intro _ h _; cases h; rfl
theorem qpost (o : Ext) : Statement (.qpost o) := by intro _ h _; cases h; rfl
theorem qsig (o : Ext) : Statement (.qsig o) := by intro _ h _; cases h; rfl
theorem mark (o : Base) : Statement (.mark o) := by intro _ h _; cases h; rfl
theorem markExt (o : Ext) : Statement (.markExt o) := by intro _ h _; cases h; rfl
theorem sysTrap (o : Base) : Statement (.sysTrap o) := by
  intro _ h s; cases h; simp [Instr.selects] at s; simp [Code.instr?, baseInstr, s]
theorem sysTrapExt (o : Ext) : Statement (.sysTrapExt o) := by
  intro _ h s; cases h; simp [Instr.selects] at s; simp [Code.instr?, extInstr, s]
theorem sysTret (o : Base) : Statement (.sysTret o) := by
  intro _ h s; cases h; simp [Instr.selects] at s; simp [Code.instr?, baseInstr, s]
theorem sysTretExt (o : Ext) : Statement (.sysTretExt o) := by
  intro _ h s; cases h; simp [Instr.selects] at s; simp [Code.instr?, extInstr, s]
theorem sysTkill (o : Base) : Statement (.sysTkill o) := by
  intro _ h s; cases h; simp [Instr.selects] at s; simp [Code.instr?, baseInstr, s]
theorem sysTkillExt (o : Ext) : Statement (.sysTkillExt o) := by
  intro _ h s; cases h; simp [Instr.selects] at s; simp [Code.instr?, extInstr, s]
theorem sysHalt (o : Base) : Statement (.sysHalt o) := by
  intro _ h s; cases h; simp [Instr.selects] at s; simp [Code.instr?, baseInstr, s]
theorem sysHaltExt (o : Ext) : Statement (.sysHaltExt o) := by
  intro _ h s; cases h; simp [Instr.selects] at s; simp [Code.instr?, extInstr, s]
theorem sysCad (o : Base) : Statement (.sysCad o) := by
  intro _ h s; cases h; simp [Instr.selects] at s; simp [Code.instr?, baseInstr, s]
theorem sysCadExt (o : Ext) : Statement (.sysCadExt o) := by
  intro _ h s; cases h; simp [Instr.selects] at s; simp [Code.instr?, extInstr, s]
theorem sysIdle (o : Base) : Statement (.sysIdle o) := by
  intro _ h s; cases h; simp [Instr.selects] at s; simp [Code.instr?, baseInstr, s]
theorem sysIdleExt (o : Ext) : Statement (.sysIdleExt o) := by
  intro _ h s; cases h; simp [Instr.selects] at s; simp [Code.instr?, extInstr, s]
theorem powerOn : Statement .powerOn := fun _ h _ => nomatch h
theorem moduleReset : Statement .moduleReset := fun _ h _ => nomatch h
theorem attestationReport : Statement .attestationReport := fun _ h _ => nomatch h
theorem dramRefresh : Statement .dramRefresh := fun _ h _ => nomatch h
theorem pickerTick : Statement .pickerTick := fun _ h _ => nomatch h
theorem cadenceTakesEffect : Statement .cadenceTakesEffect := fun _ h _ => nomatch h
theorem deferredResultReturn : Statement .deferredResultReturn := fun _ h _ => nomatch h
theorem threadWake : Statement .threadWake := fun _ h _ => nomatch h
theorem l1FillReturn : Statement .l1FillReturn := fun _ h _ => nomatch h
theorem writeBackAck : Statement .writeBackAck := fun _ h _ => nomatch h
theorem l2Fill : Statement .l2Fill := fun _ h _ => nomatch h
theorem currentGenerationBump : Statement .currentGenerationBump := fun _ h _ => nomatch h
theorem releaseWriteBackComplete : Statement .releaseWriteBackComplete := fun _ h _ => nomatch h
theorem releaseAccessAck : Statement .releaseAccessAck := fun _ h _ => nomatch h
theorem writerNotice : Statement .writerNotice := fun _ h _ => nomatch h
theorem replicaInvalidationAck : Statement .replicaInvalidationAck := fun _ h _ => nomatch h
theorem promotionAcknowledgement : Statement .promotionAcknowledgement := fun _ h _ => nomatch h
theorem tackCheck : Statement .tackCheck := fun _ h _ => nomatch h
theorem tackReply : Statement .tackReply := fun _ h _ => nomatch h
theorem tackEntryExpiry : Statement .tackEntryExpiry := fun _ h _ => nomatch h
theorem copyRegister : Statement .copyRegister := fun _ h _ => nomatch h
theorem copySourceRead : Statement .copySourceRead := fun _ h _ => nomatch h
theorem copySectorLand : Statement .copySectorLand := fun _ h _ => nomatch h
theorem copyFault : Statement .copyFault := fun _ h _ => nomatch h
theorem operandFetch : Statement .operandFetch := fun _ h _ => nomatch h
theorem operandFetchComplete : Statement .operandFetchComplete := fun _ h _ => nomatch h
theorem passGrant : Statement .passGrant := fun _ h _ => nomatch h
theorem passWrite : Statement .passWrite := fun _ h _ => nomatch h
theorem portOperationStart : Statement .portOperationStart := fun _ h _ => nomatch h
theorem portOperationComplete : Statement .portOperationComplete := fun _ h _ => nomatch h
theorem operandGenerationBump : Statement .operandGenerationBump := fun _ h _ => nomatch h
theorem binTimerExpiry : Statement .binTimerExpiry := fun _ h _ => nomatch h
theorem gangFormation : Statement .gangFormation := fun _ h _ => nomatch h
theorem xacqGrant : Statement .xacqGrant := fun _ h _ => nomatch h
theorem joinReturn : Statement .joinReturn := fun _ h _ => nomatch h
theorem gridsyncArrivalPacket : Statement .gridsyncArrivalPacket := fun _ h _ => nomatch h
theorem resample : Statement .resample := fun _ h _ => nomatch h
theorem resampleComplete : Statement .resampleComplete := fun _ h _ => nomatch h
theorem preemptionRequest : Statement .preemptionRequest := fun _ h _ => nomatch h
theorem preemptionReachesQuarter : Statement .preemptionReachesQuarter := fun _ h _ => nomatch h
theorem teamSave : Statement .teamSave := fun _ h _ => nomatch h
theorem teamRestore : Statement .teamRestore := fun _ h _ => nomatch h
theorem contextCreate : Statement .contextCreate := fun _ h _ => nomatch h
theorem contextSave : Statement .contextSave := fun _ h _ => nomatch h
theorem contextRestore : Statement .contextRestore := fun _ h _ => nomatch h
theorem contextDestroy : Statement .contextDestroy := fun _ h _ => nomatch h
theorem debugRightRevoke : Statement .debugRightRevoke := fun _ h _ => nomatch h
theorem debugSessionOpen : Statement .debugSessionOpen := fun _ h _ => nomatch h
theorem debugHalt : Statement .debugHalt := fun _ h _ => nomatch h
theorem debugRead : Statement .debugRead := fun _ h _ => nomatch h
theorem debugStageEdit : Statement .debugStageEdit := fun _ h _ => nomatch h
theorem debugCommit : Statement .debugCommit := fun _ h _ => nomatch h
theorem debugSetBreakpoint : Statement .debugSetBreakpoint := fun _ h _ => nomatch h
theorem debugSetTakebrk : Statement .debugSetTakebrk := fun _ h _ => nomatch h
theorem debugResume : Statement .debugResume := fun _ h _ => nomatch h
theorem queueCreate : Statement .queueCreate := fun _ h _ => nomatch h
theorem queueReset : Statement .queueReset := fun _ h _ => nomatch h
theorem queueDestroy : Statement .queueDestroy := fun _ h _ => nomatch h
theorem doorbell : Statement .doorbell := fun _ h _ => nomatch h
theorem nopPacket : Statement .nopPacket := fun _ h _ => nomatch h
theorem launchPacket : Statement .launchPacket := fun _ h _ => nomatch h
theorem waitPacket : Statement .waitPacket := fun _ h _ => nomatch h
theorem signalPacket : Statement .signalPacket := fun _ h _ => nomatch h
theorem snapshotPacket : Statement .snapshotPacket := fun _ h _ => nomatch h
theorem traceOpenPacket : Statement .traceOpenPacket := fun _ h _ => nomatch h
theorem traceClosePacket : Statement .traceClosePacket := fun _ h _ => nomatch h
theorem waitCounterRead : Statement .waitCounterRead := fun _ h _ => nomatch h
theorem admissionSnapshot : Statement .admissionSnapshot := fun _ h _ => nomatch h
theorem energyGrant : Statement .energyGrant := fun _ h _ => nomatch h
theorem teamDispatch : Statement .teamDispatch := fun _ h _ => nomatch h
theorem kernelDrainEnd : Statement .kernelDrainEnd := fun _ h _ => nomatch h
theorem translationCompletion : Statement .translationCompletion := fun _ h _ => nomatch h
theorem prgResponse : Statement .prgResponse := fun _ h _ => nomatch h
theorem invalidateRequest : Statement .invalidateRequest := fun _ h _ => nomatch h
theorem contextGenerationBump : Statement .contextGenerationBump := fun _ h _ => nomatch h
theorem invalidateCompletion : Statement .invalidateCompletion := fun _ h _ => nomatch h
theorem leaseEnd : Statement .leaseEnd := fun _ h _ => nomatch h
theorem regionCounterZeroing : Statement .regionCounterZeroing := fun _ h _ => nomatch h
theorem moveBegin : Statement .moveBegin := fun _ h _ => nomatch h
theorem moveDrained : Statement .moveDrained := fun _ h _ => nomatch h
theorem moveEnd : Statement .moveEnd := fun _ h _ => nomatch h
theorem moveHistoryFree : Statement .moveHistoryFree := fun _ h _ => nomatch h
theorem settledEnd : Statement .settledEnd := fun _ h _ => nomatch h
theorem linkEnable : Statement .linkEnable := fun _ h _ => nomatch h
theorem linkDisable : Statement .linkDisable := fun _ h _ => nomatch h
theorem linkRetrain : Statement .linkRetrain := fun _ h _ => nomatch h
theorem linkErrcntClear : Statement .linkErrcntClear := fun _ h _ => nomatch h
theorem trainingComplete : Statement .trainingComplete := fun _ h _ => nomatch h
theorem lossOfLock : Statement .lossOfLock := fun _ h _ => nomatch h
theorem hostMemoryWrite : Statement .hostMemoryWrite := fun _ h _ => nomatch h
theorem hostReadRequest : Statement .hostReadRequest := fun _ h _ => nomatch h
theorem hostAtomicop : Statement .hostAtomicop := fun _ h _ => nomatch h
theorem hostCompletion : Statement .hostCompletion := fun _ h _ => nomatch h
theorem fabricPacket : Statement .fabricPacket := fun _ h _ => nomatch h
theorem ethernetFrameReceive : Statement .ethernetFrameReceive := fun _ h _ => nomatch h
theorem ethernetTxtailWrite : Statement .ethernetTxtailWrite := fun _ h _ => nomatch h
theorem ethernetFrameSent : Statement .ethernetFrameSent := fun _ h _ => nomatch h
theorem alignmentRequestSend : Statement .alignmentRequestSend := fun _ h _ => nomatch h
theorem alignmentRequestReceive : Statement .alignmentRequestReceive := fun _ h _ => nomatch h
theorem alignmentAnswer : Statement .alignmentAnswer := fun _ h _ => nomatch h
theorem slogModeOff : Statement .slogModeOff := fun _ h _ => nomatch h
theorem slogModeRecord : Statement .slogModeRecord := fun _ h _ => nomatch h
theorem slogModeReplay : Statement .slogModeReplay := fun _ h _ => nomatch h
theorem slogOvfClear : Statement .slogOvfClear := fun _ h _ => nomatch h
theorem replayInject : Statement .replayInject := fun _ h _ => nomatch h
theorem stopcycWrite : Statement .stopcycWrite := fun _ h _ => nomatch h
theorem freeze : Statement .freeze := fun _ h _ => nomatch h
theorem scan : Statement .scan := fun _ h _ => nomatch h
theorem scanDone : Statement .scanDone := fun _ h _ => nomatch h
theorem restart : Statement .restart := fun _ h _ => nomatch h
theorem restartDone : Statement .restartDone := fun _ h _ => nomatch h
theorem resume : Statement .resume := fun _ h _ => nomatch h
theorem clean : Statement .clean := fun _ h _ => nomatch h
theorem counterClear : Statement .counterClear := fun _ h _ => nomatch h
theorem uncorrectableError : Statement .uncorrectableError := fun _ h _ => nomatch h
theorem cleanRefetch : Statement .cleanRefetch := fun _ h _ => nomatch h
theorem samplePeriodTest : Statement .samplePeriodTest := fun _ h _ => nomatch h
theorem sampledAccessComplete : Statement .sampledAccessComplete := fun _ h _ => nomatch h
theorem epochEnd : Statement .epochEnd := fun _ h _ => nomatch h
theorem thermalLimit : Statement .thermalLimit := fun _ h _ => nomatch h
theorem registerWrite : Statement .registerWrite := fun _ h _ => nomatch h
theorem homeSliceAccess : Statement .homeSliceAccess := fun _ h _ => nomatch h
theorem promotionRequest : Statement .promotionRequest := fun _ h _ => nomatch h
theorem linkLevelRetry : Statement .linkLevelRetry := fun _ h _ => nomatch h
theorem spokePortPause : Statement .spokePortPause := fun _ h _ => nomatch h

end Sys2Proof.Laws.Words
end

