-- ==== Sys2Proof/Laws/Unit.lean ====
section
/-! SUPPORT. The module's own units on ranges inside one page: what they read and write when the page is granted in this
module, and when it is denied. -/

namespace Sys2Proof.Machine

/-- The state after one free value has been drawn. -/
def State.drawn (s : State) : State := s.modify fun m => { m with free := m.free + 1 }

/-- A range inside a page is one part. -/
theorem pageParts_one {va n : Nat} (h : va % 4096 + n ≤ 4096) (hn : 0 < n) : pageParts va n = [(va, n)] := by
  have h1 : (va + n + 4095) / 4096 - va / 4096 = 1 := by omega
  have h2 : Nat.max (va / 4096 * 4096) va = va := Nat.max_eq_right (by omega)
  have h3 : Nat.max va (va / 4096 * 4096) = va := Nat.max_eq_left (by omega)
  have h4 : Nat.min (va + n) (va / 4096 * 4096 + 4096) = va + n := Nat.min_eq_left (by omega)
  unfold pageParts
  rw [h1, if_neg (by omega)]
  simp only [List.range_one, List.map_cons, List.map_nil, Nat.add_zero]
  rw [h3, h4]
  simp

/-- A page that the host's map grants in this module. -/
theorem State.unitPage_here {s : State} {ctx page a : Nat} (h : Config.unitMap ctx page s.m.free = some (0, a)) :
    s.unitPage ctx page = (some (.here, a % hbmSize / 4096 * 4096), s.drawn) := by
  unfold State.unitPage
  simp only [State.drawFree, h]
  rfl

/-- A page that it denies. -/
theorem State.unitPage_denied {s : State} {ctx page : Nat} (h : Config.unitMap ctx page s.m.free = none) :
    s.unitPage ctx page = (none, s.drawn) := by
  unfold State.unitPage
  simp only [State.drawFree, h]
  rfl

/-- A read inside a granted page gives the bytes that its home holds, under the units' own writes on their way. -/
theorem State.unitRead_here {s : State} {ctx va n a : Nat} (hp : va % 4096 + n ≤ 4096) (hn : 0 < n)
    (h : Config.unitMap ctx (va / 4096) s.m.free = some (0, a)) :
    s.unitRead ctx va n = (.ok (s.drawn.unitBytes (a % hbmSize / 4096 * 4096 + va % 4096) n), s.drawn) := by
  unfold State.unitRead
  rw [pageParts_one hp hn]
  simp only [List.foldl_cons, List.foldl_nil, State.unitPage_here h, List.nil_append]

/-- A read of a denied page fails at its first byte. -/
theorem State.unitRead_denied {s : State} {ctx va n : Nat} (hp : va % 4096 + n ≤ 4096) (hn : 0 < n)
    (h : Config.unitMap ctx (va / 4096) s.m.free = none) : s.unitRead ctx va n = (.error 0, s.drawn) := by
  unfold State.unitRead
  rw [pageParts_one hp hn]
  simp only [List.foldl_cons, List.foldl_nil, State.unitPage_denied h, Nat.sub_self]

/-- The pages of a range inside a granted page. -/
theorem State.unitPages_here {s : State} {ctx va n a : Nat} (hp : va % 4096 + n ≤ 4096) (hn : 0 < n)
    (h : Config.unitMap ctx (va / 4096) s.m.free = some (0, a)) :
    s.unitPages ctx va n = (.ok [(.here, a % hbmSize / 4096 * 4096 + va % 4096, 0, n)], s.drawn) := by
  unfold State.unitPages
  rw [pageParts_one hp hn]
  simp only [List.foldl_cons, List.foldl_nil, State.unitPage_here h, List.nil_append, Nat.sub_self]

/-- A range inside a denied page has none. -/
theorem State.unitPages_denied {s : State} {ctx va n : Nat} (hp : va % 4096 + n ≤ 4096) (hn : 0 < n)
    (h : Config.unitMap ctx (va / 4096) s.m.free = none) : s.unitPages ctx va n = (.error 0, s.drawn) := by
  unfold State.unitPages
  rw [pageParts_one hp hn]
  simp only [List.foldl_cons, List.foldl_nil, State.unitPage_denied h, Nat.sub_self]

/-- A write inside a granted page is a write at its homes. -/
theorem State.unitWrite_here {s : State} {ctx va a : Nat} {bs : List Byte} (job : UnitJob)
    (hp : va % 4096 + bs.length ≤ 4096) (hn : 0 < bs.length) (h : Config.unitMap ctx (va / 4096) s.m.free = some (0, a)) :
    s.unitWrite ctx va bs job = (true, s.drawn.deviceWrite (a % hbmSize / 4096 * 4096 + va % 4096) bs job) := by
  unfold State.unitWrite
  rw [State.unitPages_here hp hn h]
  simp [State.partsWrite]

/-- A queue reads a granted page of this module at once. -/
theorem State.queueRead_here {s : State} {q : Queue} {va n a : Nat} (h : Config.unitMap q.ctx (va / 4096) s.m.free = some (0, a)) :
    s.queueRead q va n = (.bytes (s.drawn.unitBytes (a % hbmSize / 4096 * 4096 + va % 4096) n), s.drawn) := by
  unfold State.queueRead
  rw [State.unitPage_here h]

/-- A queue's read of a denied page. -/
theorem State.queueRead_denied {s : State} {q : Queue} {va n : Nat} (h : Config.unitMap q.ctx (va / 4096) s.m.free = none) :
    s.queueRead q va n = (.denied, s.drawn) := by
  unfold State.queueRead
  rw [State.unitPage_denied h]

/-- A queue's read of a page of the host, before its answer. -/
theorem State.queueRead_host {s : State} {q : Queue} {va n a : Nat} (h : Config.unitMap q.ctx (va / 4096) s.m.free = some (1, a))
    (hq : q.answer = none) : s.queueRead q va n = (.away .host (a / 4096 * 4096 + va % 4096), s.drawn) := by
  unfold State.queueRead State.unitPage
  simp only [State.drawFree, h, hq]
  rfl

end Sys2Proof.Machine
end

