-- ==== Sys2Proof/Machine/BirasImage.lean ====
section
/-! DEFINITION. The directives of `biras` and the image it writes (R77, R78, R181, R290, R291). -/

namespace Sys2Proof.Biras
open Sys2Proof.Machine

/-! ## What a source has said so far -/

/-- A role (R77, R291). -/
structure RoleDecl where
  name : List Char
  gangs : Nat
  prio : Nat
  blocks : Nat
deriving DecidableEq, Repr

/-- The initial value of one gang register, in the gangs of a role or in every gang. -/
structure GangDecl where
  reg : Nat
  bits : Nat
  role : Option (List Char)
deriving DecidableEq, Repr

/-- Bytes under way, the last chunk first, and their length. -/
structure Chunks where
  chunks : List (List Byte)
  length : Nat
deriving DecidableEq, Repr

def Chunks.empty : Chunks := { chunks := [], length := 0 }
def Chunks.add (x : Chunks) (bs : List Byte) : Chunks := { chunks := bs :: x.chunks, length := x.length + bs.length }
def Chunks.bytes (x : Chunks) : List Byte := x.chunks.reverse.flatten

/-- A kernel. entry: the offset of its first instruction in the code. -/
structure KernelDecl where
  team : Option (Nat × Nat)
  roles : List RoleDecl
  det : Bool
  pop : Bool
  iso : Bool
  balance : Bool
  hs : Nat
  pv : Nat
  acc : Nat
  seed : Nat
  cap : Nat
  prio : Nat
  gang : List GangDecl
  pattern : Bool
  /-- each piece, with the bases that the loader adds at offsets in it -/
  pieces : List (List Byte × List (Nat × Bool))
  entry : Option Nat
  bank : Chunks
deriving DecidableEq, Repr

def KernelDecl.fresh : KernelDecl where
  team := none
  roles := []
  det := false
  pop := false
  iso := false
  balance := false
  hs := 0
  pv := 0
  acc := 0
  seed := 0
  cap := 0
  prio := 0
  gang := []
  pattern := false
  pieces := []
  entry := none
  bank := .empty

/-- The section that bytes go to. -/
inductive Section where
  | code
  | bank
  | data
deriving DecidableEq, Repr

/-- A pass over the source. names: the labels of the pass before, and the constants so far; labels: those met;
relocs: the base to add to the 64 bits at an offset of the code, of the bank of a kernel or of the global data. -/
structure Pass where
  names : Names
  labels : List (List Char × Place)
  code : Chunks
  data : Chunks
  codeRelocs : List (Nat × Bool)
  bankRelocs : List (Nat × Nat × Bool)
  dataRelocs : List (Nat × Bool)
  kernels : List KernelDecl
  cur : Option KernelDecl
  sect : Option Section
  handler : Option (List Char)
  bad : Bool
deriving DecidableEq, Repr

def Pass.start (labels : List (List Char × Place)) : Pass where
  names := { labels := labels, consts := [] }
  labels := []
  code := .empty
  data := .empty
  codeRelocs := []
  bankRelocs := []
  dataRelocs := []
  kernels := []
  cur := none
  sect := none
  handler := none
  bad := false

/-- A number up to a multiple of n. -/
def roundUp (n x : Nat) : Nat := (x + (n - 1)) / n * n
def zeros (n : Nat) : List Byte := List.replicate n 0

/-- Bytes to the section, with the bases of fields in them; none: no section. -/
def Pass.put (p : Pass) (bs : List Byte) (relocs : List (Nat × Bool)) : Option Pass :=
  match p.sect, p.cur with
  | some .code, _ =>
    some { p with code := p.code.add bs, codeRelocs := p.codeRelocs ++ relocs.map fun r => (p.code.length + r.1, r.2) }
  | some .data, _ =>
    some { p with data := p.data.add bs, dataRelocs := p.dataRelocs ++ relocs.map fun r => (p.data.length + r.1, r.2) }
  | some .bank, some k =>
    some { p with
      cur := some { k with bank := k.bank.add bs }
      bankRelocs := p.bankRelocs ++ relocs.map fun r => (p.kernels.length, k.bank.length + r.1, r.2) }
  | _, _ => none

/-- Where the next byte goes. -/
def Pass.place (p : Pass) : Option Place :=
  match p.sect, p.cur with
  | some .code, _ => some (.code p.code.length)
  | some .data, _ => some (.data p.data.length)
  | some .bank, some k => some (.bank k.bank.length)
  | _, _ => none

/-- The first instruction of a kernel is its entry point (R77). The words of `.illegal` stand for an instruction and count as
one, for the entry point and for `.endk` (DESIGN CHOICE, log entry 108). -/
def Pass.enter (p : Pass) : Pass :=
  { p with cur := p.cur.map fun k => if k.entry.isNone then { k with entry := some p.code.length } else k }

/-! ## The pieces of a pattern (R181) -/

/-- A field `key=` of a piece; its value. -/
def keyed (key : String) (os : List (List Token)) : Option (List Token) :=
  match os.filter fun o => match o with
    | .word w :: .punct '=' :: _ => isText w key
    | _ => false with
  | [_ :: _ :: v] => some v
  | _ => none

/-- Numbers joined by `x`, in decimal. -/
def dims (w : List Char) : Option (List Nat) := (splitAt 'x' w).mapM (digits1 10 digit)

/-- An address of a piece: its kind, its value, and the base that the loader adds. -/
def pieceAddress (env : Names) (o : List Token) : Option (Nat × Nat × Option Bool) :=
  match o with
  | .word sp :: .punct ':' :: rest => match find [("gl", 0), ("hs", 1)] sp, value env rest with
    | some k, some v => match v with
      | .int _ n 0 0 => (fits 64 n).map fun x => (k, x, none)
      | .int _ n 1 0 => if k == 0 then (fits 64 n).map fun x => (k, x, some false) else none
      | .int _ n 0 1 => if k == 0 then (fits 64 n).map fun x => (k, x, some true) else none
      | _ => none
    | _, _ => none
  | _ => none

/-- The row and plane pitches: one number for 2-D, two for 3-D. -/
def pitches (env : Names) (three : Bool) (o : List Token) : Option (Nat × Nat) :=
  if three then match o with
    | [.word w] => match dims w with
      | some [a, b] => if a < 2 ^ 32 && b < 2 ^ 32 then some (a, b) else none
      | _ => none
    | _ => none
  else ((value env o).bind (Val.within 0 (2 ^ 32 - 1))).map fun n => (n.toNat, 0)

/-- The extents: two numbers for 2-D, three for 3-D. -/
def extents (three : Bool) (o : List Token) : Option (Nat × Nat × Nat) :=
  match o with
  | [.word w] =>
    match dims w, three with
    | some [a, b], false => if a < 2 ^ 32 && b < 2 ^ 32 then some (a, b, 1) else none
    | some [a, b, c], true => if a < 2 ^ 32 && b < 2 ^ 32 && c < 2 ^ 32 then some (a, b, c) else none
    | _, _ => none
  | _ => none

/-- A piece: TSTRIDE is 0 and the destination is dense. -/
def piece (env : Names) (os : List (List Token)) : Option (List Byte × List (Nat × Bool)) :=
  let nat := fun (lo hi : Int) (o : List Token) => ((value env o).bind (Val.within lo hi)).map Int.toNat
  if os.length != 8 then none
  else
    (keyed "stage" os).bind fun st => (nat 0 15 st).bind fun stage =>
    (keyed "tb" os).bind fun tb =>
    (if isWord tb "none" then some 0xFFFFFFFF else nat 0 0xFFFFFFFF tb).bind fun tb =>
    (keyed "from" os).bind fun fr => (pieceAddress env fr).bind fun (fk, fa, fb) =>
    (keyed "to" os).bind fun dest => (pieceAddress env dest).bind fun (tk, ta, tbase) =>
    (keyed "dims" os).bind fun d => (nat 2 3 d).bind fun d =>
    (keyed "ext" os).bind fun e => (extents (d == 3) e).bind fun (e0, e1, e2) =>
    (keyed "stride" os).bind fun s => (pitches env (d == 3) s).bind fun (p1, p2) =>
    (keyed "bytes" os).bind fun b => (nat 0 0xFFFFFFFF b).bind fun bytes =>
      if 2 ^ 32 ≤ e0 * e1 then none
      else
        some (bytesOfNat 8 fa ++ bytesOfNat 8 ta ++ zeros 8 ++ bytesOfNat 4 e0 ++ bytesOfNat 4 e1 ++ bytesOfNat 4 e2
            ++ bytesOfNat 4 p1 ++ bytesOfNat 4 p2 ++ bytesOfNat 4 e0 ++ bytesOfNat 4 (e0 * e1) ++ bytesOfNat 4 tb
            ++ bytesOfNat 4 bytes ++ bytesOfNat 1 stage ++ bytesOfNat 1 (16 * (d - 2) + 4 * tk + fk) ++ zeros 2,
          (match fb with
            | some b => [(0, b)]
            | none => []) ++ (match tbase with
            | some b => [(8, b)]
            | none => []))

/-! ## Directives (R77) -/

/-- A number in a range. -/
def count (env : Names) (lo hi : Int) (o : List Token) : Option Nat :=
  ((value env o).bind (Val.within lo hi)).map Int.toNat

/-- A name as an operand. -/
def nameOf : List Token → Option (List Char)
  | [.word w] => if isName w then some w else none
  | _ => none

/-- A role's name: an identifier. -/
def identifier : List Token → Option (List Char)
  | [.word (c :: cs)] =>
    if isIdentChar c && !isDigit c && cs.all isIdentChar then some (c :: cs) else none
  | _ => none

/-- The register values of a `.gang` line: 32 bits fill gN, more fill gN and gN+1. -/
def gangValues (reg : Nat) (n : Int) (role : Option (List Char)) : Option (List GangDecl) :=
  match fits 32 n with
  | some x => some [{ reg := reg, bits := x, role := role }]
  | none => match fits 64 n with
    | some x =>
      if reg % 2 == 0 then
        some [{ reg := reg, bits := x % 2 ^ 32, role := role }, { reg := reg + 1, bits := x / 2 ^ 32, role := role }]
      else none
    | none => none

/-- A setting of `.attr`. -/
def kernelSetting (env : Names) (key : List Char) (v : Option (List Token)) (k : KernelDecl) : Option KernelDecl :=
  let n := fun (hi : Int) (set : Nat → KernelDecl) => (v.bind (count env 0 hi)).map set
  let flag := fun (set : KernelDecl) => if v.isNone then some set else none
  match find (number 0 ["det", "pop", "iso", "balance", "hs", "pv", "acc", "seed", "cap", "prio"]) key with
  | some 0 => flag { k with det := true }
  | some 1 => flag { k with pop := true }
  | some 2 => flag { k with iso := true }
  | some 3 => flag { k with balance := true }
  | some 4 => n (2 ^ 32 - 1) fun x => { k with hs := x }
  | some 5 => n (2 ^ 32 - 1) fun x => { k with pv := x }
  | some 6 => n 64 fun x => { k with acc := x }
  | some 7 => (v.bind (value env)).bind fun x => match x with
    | .int _ n 0 0 => (fits 64 n).map fun x => { k with seed := x }
    | _ => none
  | some 8 => n (2 ^ 32 - 1) fun x => { k with cap := x }
  | some 9 => n 3 fun x => { k with prio := x }
  | _ => none

/-- A value of `.byte`, `.half`, `.word` or `.dword`: its bytes, and the base that the loader adds. -/
def datum (env : Names) (w : Nat) (o : List Token) : Option (List Byte × Option Bool) :=
  match value env o with
  | some (.int _ n 1 0) => if w == 8 then some (bytesOfNat 8 (n % 2 ^ 64).toNat, some false) else none
  | some (.int _ n 0 1) => if w == 8 then some (bytesOfNat 8 (n % 2 ^ 64).toNat, some true) else none
  | some (.int _ n 0 0) => (fits (8 * w) n).map fun x => (bytesOfNat w x, none)
  | some (.fp neg m e) => if w == 4 then some (bytesOfNat 4 (fpBits fp32 neg m e), none) else none
  | _ => none

/-- A value of `.float`. -/
def floatDatum (env : Names) (o : List Token) : Option (List Byte) :=
  match value env o true with
  | some (.fp neg m e) => some (bytesOfNat 4 (fpBits fp32 neg m e))
  | some (.int true n 0 0) => (fits 32 n).map (bytesOfNat 4)
  | some (.int false n 0 0) => some (bytesOfNat 4 (fpBits fp32 (n < 0) n.natAbs 0))
  | _ => none

/-- The padding of `.align`: zero bytes; in code to a multiple of 4, and `nop` after them. -/
def padding (code : Bool) (n pos : Nat) : List Byte :=
  let k := roundUp n pos - pos
  if code && 4 ≤ n then
    let z := roundUp 4 pos - pos
    zeros z ++ (List.replicate ((k - z) / 4) (wordBytes 0x11800000)).flatten
  else zeros k

/-- The data directives and the bytes of one value. -/
def dataNames : List (String × Nat) := [(".byte", 1), (".half", 2), (".word", 4), (".dword", 8)]

/-- `.endk`: every kernel has a `.team`, at least one role, gangs that sum to the gangs per team, known role names,
an instruction, pieces when it has a pattern, and a bank of at most 65,472 bytes. -/
def KernelDecl.closes (k : KernelDecl) : Bool :=
  match k.team with
  | none => false
  | some (_, gangs) =>
    !k.roles.isEmpty && (k.roles.map (·.gangs)).sum == gangs && k.entry.isSome
      && (k.gang.all fun g => match g.role with
        | some r => k.roles.any (fun x => sameWord x.name r)
        | none => true)
      && (!k.pattern || !k.pieces.isEmpty) && k.bank.length ≤ 65472

/-- A change of the open kernel. -/
def Pass.inKernel (p : Pass) (f : KernelDecl → Option KernelDecl) : Option Pass :=
  p.cur.bind fun k => (f k).map fun k => { p with cur := some k }

/-- The directives that act on the open kernel. -/
def kernelDirective (env : Names) (d : Nat) (os : List (List Token)) (k : KernelDecl) : Option KernelDecl :=
  match d, os with
  | 0, [t, g] => match count env 1 (2 ^ 24) t, count env 1 256 g with
    | some t, some g => if k.team.isNone then some { k with team := some (t, g) } else none
    | _, _ => none
  | 1, [r, g, q, b] => match identifier r, count env 1 256 g, count env 0 3 q, count env 0 32 b with
    | some r, some g, some q, some b =>
      if k.roles.length < 4 then
        some { k with roles := k.roles ++ [{ name := r, gangs := g, prio := q, blocks := b }] }
      else none
    | _, _, _, _ => none
  | 2, [.word key] :: rest => match rest with
    | [] => kernelSetting env key none k
    | [v] => kernelSetting env key (some v) k
    | _ => none
  | 3, reg :: v :: rest => match asReg reg, (value env v).bind Val.plain with
    | some (.g n), some x => match rest with
      | [] => (gangValues n x none).map fun gs => { k with gang := k.gang ++ gs }
      | [r] => (identifier r).bind fun r => (gangValues n x (some r)).map fun gs => { k with gang := k.gang ++ gs }
      | _ => none
    | _, _ => none
  | 4, [] => if k.pattern then none else some { k with pattern := true }
  | 5, os =>
    if k.pattern && k.pieces.length < 64 then (piece env os).map fun x => { k with pieces := k.pieces ++ [x] } else none
  | _, _ => none

/-- A directive. -/
def directive (p : Pass) (d : List Char) (os : List (List Token)) : Option Pass :=
  let env := p.names
  match find (number 0 [".team", ".role", ".attr", ".gang", ".pattern", ".piece"]) d with
  | some n => p.inKernel (kernelDirective env n os)
  | none => match find dataNames d with
    | some w =>
      if os.isEmpty then none
      else (os.mapM (datum env w)).bind fun xs =>
        p.put (xs.map (·.1)).flatten ((xs.zipIdx).filterMap fun x => x.1.2.map fun b => (w * x.2, b))
    | none => match find (number 0 [".kernel", ".endk", ".handler", ".data", ".align", ".float", ".equ", ".illegal"]) d, os with
      | some 0, [n] =>
        if p.cur.isSome then none
        else (identifier n).map fun _ =>
          { p with cur := some .fresh, sect := some .code
                   code := p.code.add (zeros (roundUp 128 p.code.length - p.code.length)) }
      | some 1, [] => p.cur.bind fun k =>
        if k.closes then some { p with kernels := p.kernels ++ [k], cur := none, sect := none } else none
      | some 2, [l] => if p.handler.isSome then none else (nameOf l).map fun l => { p with handler := some l }
      | some 3, [[.word w]] =>
        if isText w "kc" then (if p.cur.isSome then some { p with sect := some .bank } else none)
        else if isText w "gl" then (if p.cur.isNone then some { p with sect := some .data } else none)
        else none
      | some 4, [n] => (count env 1 4096 n).bind fun n =>
        if 2 ^ Nat.log2 n != n then none
        else match p.place with
          | some (.code x) => p.put (padding true n x) []
          | some (.bank x) | some (.data x) => p.put (padding false n x) []
          | none => none
      | some 5, o :: os => ((o :: os).mapM (floatDatum env)).bind fun xs => p.put xs.flatten []
      | some 6, [n, v] => match nameOf n, value env v with
        | some n, some v =>
          if (lookup env.consts n).isSome || (lookup env.labels n).isSome || (lookup p.labels n).isSome then none
          else some { p with names := { env with consts := (n, v) :: env.consts } }
        | _, _ => none
      | some 7, os =>
        if p.sect == some .code && p.code.length % 4 == 0 && 1 ≤ os.length && os.length ≤ 5 then
          (os.mapM (count env 0 0xFFFFFFFF)).bind fun ws => p.enter.put (ws.map (bytesOfNat 4)).flatten []
        else none
      | _, _ => none

/-! ## A pass -/

/-- An instruction of the source. -/
def Pass.instr (p : Pass) (ts : List Token) : Option Pass :=
  if p.sect != some .code || p.code.length % 4 != 0 then none
  else (instruction p.names p.code.length ts).bind fun x =>
    p.enter.put (x.words.flatMap wordBytes) (match x.reloc with
      | some r => [r]
      | none => [])

/-- A statement without its label. -/
def Pass.statement (p : Pass) (ts : List Token) : Option Pass :=
  match ts with
  | [] => some p
  | .word ('.' :: d) :: rest => directive p ('.' :: d) (operands rest)
  | ts => p.instr ts

/-- A label stands at the next byte; it is defined once. One that stands in no section names no byte and is rejected
(DESIGN CHOICE, log entry 108). -/
def Pass.label (p : Pass) (w : List Char) : Option Pass :=
  p.place.bind fun x =>
    if (lookup p.labels w).isSome || (lookup p.names.consts w).isSome then none
    else some { p with labels := p.labels ++ [(w, x)] }

/-- A pass marked by a rejected line. -/
def Pass.reject (p : Pass) : Pass := { p with bad := true }

/-- A line: a label, a statement, or both (R72). A rejected one leaves the pass marked; its label stands, so that the next pass
knows it. -/
def Pass.line (p : Pass) (ts : List Token) : Pass :=
  match ts with
  | .word w :: .punct ':' :: rest =>
    match if isName w then p.label w else none with
    | some p => (p.statement rest).getD p.reject
    | none => p.reject
  | ts => (p.statement ts).getD p.reject

/-- A pass over the lines, with the labels where an earlier pass found them. -/
def runPass (labels : List (List Char × Place)) (ls : List (List Token)) : Pass := ls.foldl Pass.line (Pass.start labels)

/-- Passes until the labels stand where the pass before found them. -/
def settle (ls : List (List Token)) : Nat → List (List Char × Place) → Option Pass
  | 0, _ => none
  | n + 1, labels =>
    let p := runPass labels ls
    if p.labels == labels then some p else settle ls n p.labels

/-! ## The image (R78) -/

/-- The value of g`reg` in the gangs of a role: a value for the role before one for every gang, and of one kind the
last. -/
def KernelDecl.gangValue (k : KernelDecl) (role : List Char) (reg : Nat) : Nat :=
  let last := fun (r : Option (List Char)) => ((k.gang.filter fun g => g.reg == reg && g.role == r).getLast?).map (·.bits)
  match last (some role), last none with
  | some x, _ => x
  | none, some x => x
  | none, none => 0

/-- The table of gang initial values (R291); empty for a kernel without a `.gang` line. -/
def KernelDecl.gangTable (k : KernelDecl) : List Byte :=
  if k.gang.isEmpty then []
  else k.roles.flatMap fun r => (List.range 128).flatMap fun n => bytesOfNat 4 (k.gangValue r.name n)

/-- The bits of a record's ATTR byte (R290). -/
def KernelDecl.attr (k : KernelDecl) : Nat :=
  (if k.det then 1 else 0) + (if k.pop then 2 else 0) + (if k.iso then 4 else 0) + (if k.balance then 8 else 0)

/-- The private frames that R292 asks for. -/
def KernelDecl.frames (k : KernelDecl) : Nat :=
  let (teams, gangs) := k.team.getD (0, 0)
  Nat.max (teams * gangs * 32) (if k.pop then k.cap else 0)

/-- A role's entry in the record (R291). -/
def RoleDecl.entry (r : RoleDecl) : Nat := r.gangs + 2 ^ 16 * r.prio + 2 ^ 24 * r.blocks

/-- The template of a launch record (R290). ginit: the offset of its table in the global data. -/
def KernelDecl.record (k : KernelDecl) (ginit : Nat) : List Byte :=
  let (teams, gangs) := k.team.getD (0, 0)
  let roles := k.roles.flatMap fun r => bytesOfNat 4 r.entry
  bytesOfNat 8 (k.entry.getD 0) ++ bytesOfNat 4 teams ++ bytesOfNat 2 gangs ++ bytesOfNat 1 k.roles.length
    ++ bytesOfNat 1 k.attr ++ roles ++ zeros (16 - roles.length) ++ bytesOfNat 4 k.hs ++ bytesOfNat 4 k.pv ++ zeros 8
    ++ bytesOfNat 4 (k.frames % 2 ^ 32) ++ bytesOfNat 4 k.bank.length ++ zeros 16 ++ bytesOfNat 8 k.seed
    ++ bytesOfNat 4 k.cap ++ bytesOfNat 1 k.acc ++ bytesOfNat 1 k.prio ++ zeros 1 ++ bytesOfNat 1 k.pieces.length
    ++ bytesOfNat 8 ginit ++ zeros 12 ++ bytesOfNat 4 (k.frames / 2 ^ 32) ++ zeros 144

/-- The templates and their pieces, the global data with the tables, and the relocations, of kernels whose records
begin at an image offset. -/
structure Records where
  bytes : List Byte
  data : Chunks
  relocs : List (Nat × Bool)
deriving DecidableEq, Repr

def records (ks : List KernelDecl) (data : Chunks) : Records :=
  ks.foldl (fun r k =>
    let at_ := 0x40 + r.bytes.length
    let table := k.gangTable
    let data := if table.isEmpty then r.data else r.data.add (zeros (roundUp 8 r.data.length - r.data.length))
    { bytes := r.bytes ++ k.record (if table.isEmpty then 0 else data.length) ++ (k.pieces.map (·.1)).flatten
      data := if table.isEmpty then data else data.add table
      relocs := r.relocs ++ [(at_, false)] ++ (if table.isEmpty then [] else [(at_ + 0x58, true)])
        ++ (k.pieces.zipIdx).flatMap fun x => x.1.2.map fun y => (at_ + 0x100 + 64 * x.2 + y.1, y.2) })
    { bytes := [], data := data, relocs := [] }

/-- The constant banks after an image offset, each at a multiple of 128, and the offset of each. -/
def banks (ks : List KernelDecl) (at_ : Nat) : List Byte × List Nat :=
  ks.foldl (fun (bs, offs) k =>
    let pos := at_ + bs.length
    if k.bank.length == 0 then (bs, offs ++ [pos])
    else
      let z := roundUp 128 pos - pos
      (bs ++ zeros z ++ k.bank.bytes, offs ++ [pos + z]))
    ([], [])

/-- The image of a pass without a rejected line. -/
def Pass.image (p : Pass) : Option (List Byte) :=
  let handler : Option Nat := match p.handler with
    | none => some 0xFFFFFFFF
    | some l => match lookup p.labels l with
      | some (.code n) => some n
      | _ => none
  if p.bad || p.cur.isSome then none
  else handler.map fun handler =>
    let r := records p.kernels p.data
    let codeAt := roundUp 128 (0x40 + r.bytes.length)
    let bankAt := roundUp 128 (codeAt + p.code.length)
    let (bankBytes, bankOffs) := banks p.kernels bankAt
    let dataAt := bankAt + bankBytes.length
    let relocAt := dataAt + r.data.length
    let relocs := r.relocs ++ p.codeRelocs.map (fun x => (codeAt + x.1, x.2))
      ++ p.bankRelocs.map (fun x => (bankOffs.getD x.1 0 + x.2.1, x.2.2)) ++ p.dataRelocs.map (fun x => (dataAt + x.1, x.2))
    bytesOfNat 4 0x4B524C42 ++ bytesOfNat 4 1 ++ bytesOfNat 8 (relocAt + 16 * relocs.length) ++ bytesOfNat 4 0x40
      ++ bytesOfNat 4 p.kernels.length ++ bytesOfNat 4 codeAt ++ bytesOfNat 4 p.code.length ++ bytesOfNat 4 bankAt
      ++ bytesOfNat 4 dataAt ++ bytesOfNat 4 r.data.length ++ bytesOfNat 4 handler ++ bytesOfNat 4 relocAt
      ++ bytesOfNat 4 relocs.length ++ zeros 8
      ++ r.bytes ++ zeros (codeAt - 0x40 - r.bytes.length) ++ p.code.bytes ++ zeros (bankAt - codeAt - p.code.length)
      ++ bankBytes ++ r.data.bytes
      ++ relocs.flatMap fun x => bytesOfNat 8 x.1 ++ bytesOfNat 4 (if x.2 then 1 else 0) ++ zeros 4

/-- The image of a source text; none: a line is rejected. -/
def assemble (source : List Char) : Option (List Byte) :=
  ((splitAt '\n' source).mapM (lex [])).bind fun ls => (settle ls (ls.length + 2) []).bind Pass.image

/-! ## The loader (R78) -/

/-- A relocation is applied: the base is added to the 64 bits at its image offset. -/
def relocate (codeBase dataBase : Nat) (image : List Byte) (r : List Byte) : List Byte :=
  let at_ := fieldAt r 0 8
  let base := if fieldAt r 8 4 == 0 then codeBase else dataBase
  image.take at_ ++ bytesOfNat 8 (fieldAt image at_ 8 + base) ++ image.drop (at_ + 8)

/-- An image with every relocation applied. -/
def load (codeBase dataBase : Nat) (image : List Byte) : List Byte :=
  (List.range (fieldAt image 0x34 4)).foldl (fun x i =>
    relocate codeBase dataBase x ((x.drop (fieldAt x 0x30 4 + 16 * i)).take 16)) image

end Sys2Proof.Biras
end

