-- ==== Sys2Proof/Tests/Slice0.lean ====
section
/-! SUPPORT. The model's own tests: words of the spec's encodings for every instruction, ill-formed terms, single steps on
small states, and for each statement states that meet its hypotheses. -/

namespace Sys2Proof.Tests

set_option Elab.async false
open Sys2Proof.Machine Sys2Proof.Claims

/-! ## Words (R47 to R53, R63, R68, R69) -/

/-- Fields of a base word. -/
def b (d a bb : BitVec 7 := 0) (m s : Bool := false) (lit : Option Dword := none) : Base :=
  { s := s, d := d, a := a, b := bb, m := m, lit := lit }
/-- Fields of an extended instruction. -/
def e (d a : BitVec 8 := 0) (sub : BitVec 6 := 0) (bb c : BitVec 8 := 0) (n : Bool := false) (p rnd : BitVec 3 := 0)
    (fmt : BitVec 4 := 0) (scope : BitVec 3 := 0) (ord : BitVec 2 := 0) (imm : Word := 0) (s : Bool := false)
    (lit : Option Dword := none) : Ext :=
  { s := s, d := d, a := a, sub := sub, b := bb, c := c, n := n, p := p, rnd := rnd, fmt := fmt, scope := scope, ord := ord
    imm := imm, lit := lit }
/-- Each word list decodes to its instruction, which is well formed and encodes to the words. -/
def reads (l : List (List Word × Instr)) : Bool :=
  l.all fun p => decide (decodeList p.1 = .ok p.2) && p.2.wellFormed && decide (encode p.2 = p.1)


/-- The integer, move and compare instructions, part 1. -/
theorem test_words_integer1 : reads [
    ([0x20028924], .add (b (d := 0x5) (a := 0x9) (bb := 0x12) (s := true))),
    ([0x80018280, 0x1400B040, 0x00000000], .addExt (e (d := 0x6) (a := 0xa) (bb := 0x14) (p := 0x3) (fmt := 0x2) (n := true))),
    ([0x00428925], .sub (b (d := 0x5) (a := 0x9) (bb := 0x12) (m := true))),
    ([0x80418280, 0x1400B040, 0x00000000], .subExt (e (d := 0x6) (a := 0xa) (bb := 0x14) (p := 0x3) (fmt := 0x2) (n := true))),
    ([0x00828924], .mul (b (d := 0x5) (a := 0x9) (bb := 0x12))),
    ([0x80818280, 0x1400B040, 0x00000000], .mulExt (e (d := 0x6) (a := 0xa) (bb := 0x14) (p := 0x3) (fmt := 0x2) (n := true))),
    ([0x20C28925], .mulh (b (d := 0x5) (a := 0x9) (bb := 0x12) (m := true) (s := true))),
    ([0x80C18280, 0x1400B040, 0x00000000], .mulhExt (e (d := 0x6) (a := 0xa) (bb := 0x14) (p := 0x3) (fmt := 0x2) (n := true))),
    ([0x01028925], .mad (b (d := 0x5) (a := 0x9) (bb := 0x12) (m := true))),
    ([0x81018280, 0x142AB040, 0x00000000], .madExt (e (d := 0x6) (a := 0xa) (bb := 0x14) (c := 0x2a) (p := 0x3) (fmt := 0x2) (n := true))),
    ([0x01428900], .neg (b (d := 0x5) (a := 0x9))),
    ([0x81418280, 0x0000B040, 0x00000000], .negExt (e (d := 0x6) (a := 0xa) (p := 0x3) (fmt := 0x2) (n := true))),
    ([0x01828900], .abs (b (d := 0x5) (a := 0x9))),
    ([0x81818280, 0x0000B040, 0x00000000], .absExt (e (d := 0x6) (a := 0xa) (p := 0x3) (fmt := 0x2) (n := true))),
    ([0x01C28925], .min (b (d := 0x5) (a := 0x9) (bb := 0x12) (m := true))),
    ([0x81C18280, 0x1400B040, 0x00000000], .minExt (e (d := 0x6) (a := 0xa) (bb := 0x14) (p := 0x3) (fmt := 0x2) (n := true))),
    ([0x02028924], .max (b (d := 0x5) (a := 0x9) (bb := 0x12))),
    ([0x82018280, 0x1400B040, 0x00000000], .maxExt (e (d := 0x6) (a := 0xa) (bb := 0x14) (p := 0x3) (fmt := 0x2) (n := true))),
    ([0x22428925], .and (b (d := 0x5) (a := 0x9) (bb := 0x12) (m := true) (s := true))),
    ([0x82418280, 0x1400B040, 0x00000000], .andExt (e (d := 0x6) (a := 0xa) (bb := 0x14) (p := 0x3) (fmt := 0x2) (n := true))),
    ([0x02828924], .or (b (d := 0x5) (a := 0x9) (bb := 0x12))),
    ([0x82818280, 0x1400B040, 0x00000000], .orExt (e (d := 0x6) (a := 0xa) (bb := 0x14) (p := 0x3) (fmt := 0x2) (n := true))),
    ([0x02C28925], .xor (b (d := 0x5) (a := 0x9) (bb := 0x12) (m := true))),
    ([0x82C18280, 0x1400B040, 0x00000000], .xorExt (e (d := 0x6) (a := 0xa) (bb := 0x14) (p := 0x3) (fmt := 0x2) (n := true))),
    ([0x03028900], .not (b (d := 0x5) (a := 0x9))),
    ([0x83018280, 0x0000B040, 0x00000000], .notExt (e (d := 0x6) (a := 0xa) (p := 0x3) (fmt := 0x2) (n := true))),
    ([0x03428925], .andn (b (d := 0x5) (a := 0x9) (bb := 0x12) (m := true))),
    ([0x83418280, 0x1400B040, 0x00000000], .andnExt (e (d := 0x6) (a := 0xa) (bb := 0x14) (p := 0x3) (fmt := 0x2) (n := true))),
    ([0x03828924], .shl (b (d := 0x5) (a := 0x9) (bb := 0x12))),
    ([0x83818280, 0x1400B040, 0x00000000], .shlExt (e (d := 0x6) (a := 0xa) (bb := 0x14) (p := 0x3) (fmt := 0x2) (n := true)))] = true := by decide

/-- The integer, move and compare instructions, part 2. -/
theorem test_words_integer2 : reads [
    ([0x23C28925], .shr (b (d := 0x5) (a := 0x9) (bb := 0x12) (m := true) (s := true))),
    ([0x83C18280, 0x1400B040, 0x00000000], .shrExt (e (d := 0x6) (a := 0xa) (bb := 0x14) (p := 0x3) (fmt := 0x2) (n := true))),
    ([0x04028924], .sar (b (d := 0x5) (a := 0x9) (bb := 0x12))),
    ([0x84018280, 0x1400B040, 0x00000000], .sarExt (e (d := 0x6) (a := 0xa) (bb := 0x14) (p := 0x3) (fmt := 0x2) (n := true))),
    ([0x04428925], .rot (b (d := 0x5) (a := 0x9) (bb := 0x12) (m := true))),
    ([0x84418280, 0x1400B040, 0x00000000], .rotExt (e (d := 0x6) (a := 0xa) (bb := 0x14) (p := 0x3) (fmt := 0x2) (n := true))),
    ([0x24828924], .bfe (b (d := 0x5) (a := 0x9) (bb := 0x12) (s := true))),
    ([0x84818280, 0x1400B040, 0x00000000], .bfeExt (e (d := 0x6) (a := 0xa) (bb := 0x14) (p := 0x3) (fmt := 0x2) (n := true))),
    ([0x04C28925], .bfi (b (d := 0x5) (a := 0x9) (bb := 0x12) (m := true))),
    ([0x84C18280, 0x142AB040, 0x00000000], .bfiExt (e (d := 0x6) (a := 0xa) (bb := 0x14) (c := 0x2a) (p := 0x3) (fmt := 0x2) (n := true))),
    ([0x05028900], .popc (b (d := 0x5) (a := 0x9))),
    ([0x85018280, 0x0000B040, 0x00000000], .popcExt (e (d := 0x6) (a := 0xa) (p := 0x3) (fmt := 0x2) (n := true))),
    ([0x05428900], .clz (b (d := 0x5) (a := 0x9))),
    ([0x85418280, 0x0000B040, 0x00000000], .clzExt (e (d := 0x6) (a := 0xa) (p := 0x3) (fmt := 0x2) (n := true))),
    ([0x05828900], .ctz (b (d := 0x5) (a := 0x9))),
    ([0x85818280, 0x0000B040, 0x00000000], .ctzExt (e (d := 0x6) (a := 0xa) (p := 0x3) (fmt := 0x2) (n := true))),
    ([0x05C28900], .brev (b (d := 0x5) (a := 0x9))),
    ([0x85C18280, 0x0000B040, 0x00000000], .brevExt (e (d := 0x6) (a := 0xa) (p := 0x3) (fmt := 0x2) (n := true))),
    ([0x06428900], .mov (b (d := 0x5) (a := 0x9))),
    ([0x86418280, 0x0000B040, 0x00000000], .movExt (e (d := 0x6) (a := 0xa) (p := 0x3) (fmt := 0x2) (n := true))),
    ([0x06828924], .movk (b (d := 0x5) (a := 0x9) (bb := 0x12))),
    ([0x86818280, 0x142AB060, 0x00000000], .movkExt (e (d := 0x6) (a := 0xa) (bb := 0x14) (c := 0x2a) (p := 0x3) (fmt := 0x3) (n := true))),
    ([0x06C30A26], .lea (b (d := 0x6) (a := 0xa) (bb := 0x13))),
    ([0x86C18280, 0x1500B020, 0x00000005], .leaExt (e (d := 0x6) (a := 0xa) (bb := 0x15) (p := 0x3) (fmt := 0x1) (imm := 0x5) (n := true))),
    ([0x07190925], .cmp (b (d := 0x32) (a := 0x9) (bb := 0x12) (m := true))),
    ([0x8714C282, 0x1400B040, 0x00000000], .cmpExt (e (d := 0x53) (a := 0xa) (sub := 0x2) (bb := 0x14) (p := 0x3) (fmt := 0x2) (n := true))),
    ([0x07428924], .div (b (d := 0x5) (a := 0x9) (bb := 0x12))),
    ([0x87418280, 0x1400B040, 0x00000000], .divExt (e (d := 0x6) (a := 0xa) (bb := 0x14) (p := 0x3) (fmt := 0x2) (n := true))),
    ([0x07828925], .rem (b (d := 0x5) (a := 0x9) (bb := 0x12) (m := true))),
    ([0x87818280, 0x1400B040, 0x00000000], .remExt (e (d := 0x6) (a := 0xa) (bb := 0x14) (p := 0x3) (fmt := 0x2) (n := true)))] = true := by decide

/-- The integer, move and compare instructions, part 3. -/
theorem test_words_integer3 : reads [
    ([0x86018280, 0x1405B060, 0x00000000], .sel (e (d := 0x6) (a := 0xa) (bb := 0x14) (c := 0x5) (p := 0x3) (fmt := 0x3) (n := true)))] = true := by decide

/-- The floating-point instructions, part 1. -/
theorem test_words_float1 : reads [
    ([0x08028924], .fadd (b (d := 0x5) (a := 0x9) (bb := 0x12))),
    ([0x88018280, 0x1400B680, 0x00000000], .faddExt (e (d := 0x6) (a := 0xa) (bb := 0x14) (p := 0x3) (rnd := 0x3) (fmt := 0x4) (n := true))),
    ([0x08428924], .fsub (b (d := 0x5) (a := 0x9) (bb := 0x12))),
    ([0x88418280, 0x1400B680, 0x00000000], .fsubExt (e (d := 0x6) (a := 0xa) (bb := 0x14) (p := 0x3) (rnd := 0x3) (fmt := 0x4) (n := true))),
    ([0x08828924], .fmul (b (d := 0x5) (a := 0x9) (bb := 0x12))),
    ([0x88818280, 0x1400B680, 0x00000000], .fmulExt (e (d := 0x6) (a := 0xa) (bb := 0x14) (p := 0x3) (rnd := 0x3) (fmt := 0x4) (n := true))),
    ([0x08C28924], .ffma (b (d := 0x5) (a := 0x9) (bb := 0x12))),
    ([0x88C18280, 0x142AB080, 0x00000000], .ffmaExt (e (d := 0x6) (a := 0xa) (bb := 0x14) (c := 0x2a) (p := 0x3) (fmt := 0x4) (n := true))),
    ([0x09028924], .fmin (b (d := 0x5) (a := 0x9) (bb := 0x12))),
    ([0x89018280, 0x1400B080, 0x00000000], .fminExt (e (d := 0x6) (a := 0xa) (bb := 0x14) (p := 0x3) (fmt := 0x4) (n := true))),
    ([0x09428924], .fmax (b (d := 0x5) (a := 0x9) (bb := 0x12))),
    ([0x89418280, 0x1400B080, 0x00000000], .fmaxExt (e (d := 0x6) (a := 0xa) (bb := 0x14) (p := 0x3) (fmt := 0x4) (n := true))),
    ([0x09828900], .fabs (b (d := 0x5) (a := 0x9))),
    ([0x89818280, 0x0000B080, 0x00000000], .fabsExt (e (d := 0x6) (a := 0xa) (p := 0x3) (fmt := 0x4) (n := true))),
    ([0x09C28900], .fneg (b (d := 0x5) (a := 0x9))),
    ([0x89C18280, 0x0000B080, 0x00000000], .fnegExt (e (d := 0x6) (a := 0xa) (p := 0x3) (fmt := 0x4) (n := true))),
    ([0x0A310924], .fcmp (b (d := 0x62) (a := 0x9) (bb := 0x12))),
    ([0x8A1C4281, 0x1400B080, 0x00000000], .fcmpExt (e (d := 0x71) (a := 0xa) (sub := 0x1) (bb := 0x14) (p := 0x3) (fmt := 0x4) (n := true))),
    ([0x0A428900], .frnd (b (d := 0x5) (a := 0x9))),
    ([0x8A418280, 0x0000B080, 0x00000000], .frndExt (e (d := 0x6) (a := 0xa) (p := 0x3) (fmt := 0x4) (n := true))),
    ([0x0A828900], .fclass (b (d := 0x5) (a := 0x9))),
    ([0x8A818280, 0x0000B080, 0x00000000], .fclassExt (e (d := 0x6) (a := 0xa) (p := 0x3) (fmt := 0x4) (n := true))),
    ([0x0AC28924], .fscale (b (d := 0x5) (a := 0x9) (bb := 0x12))),
    ([0x8AC18280, 0x1400B080, 0x00000000], .fscaleExt (e (d := 0x6) (a := 0xa) (bb := 0x14) (p := 0x3) (fmt := 0x4) (n := true))),
    ([0x0B028901], .fcvt (b (d := 0x5) (a := 0x9) (m := true))),
    ([0x8B018284, 0x0000BAC0, 0x00000000], .fcvtExt (e (d := 0x6) (a := 0xa) (sub := 0x4) (p := 0x3) (rnd := 0x5) (fmt := 0x6) (n := true))),
    ([0x0B428820], .fdp4 (b (d := 0x5) (a := 0x8) (bb := 0x10))),
    ([0x8B418300, 0x182AB080, 0x00000000], .fdp4Ext (e (d := 0x6) (a := 0xc) (bb := 0x18) (c := 0x2a) (p := 0x3) (fmt := 0x4) (n := true))),
    ([0x0C028925], .hadd2 (b (d := 0x5) (a := 0x9) (bb := 0x12) (m := true))),
    ([0x8C018280, 0x1400B0A0, 0x00000000], .hadd2Ext (e (d := 0x6) (a := 0xa) (bb := 0x14) (p := 0x3) (fmt := 0x5) (n := true)))] = true := by decide

/-- The floating-point instructions, part 2. -/
theorem test_words_float2 : reads [
    ([0x0C428925], .hmul2 (b (d := 0x5) (a := 0x9) (bb := 0x12) (m := true))),
    ([0x8C418280, 0x1400B0A0, 0x00000000], .hmul2Ext (e (d := 0x6) (a := 0xa) (bb := 0x14) (p := 0x3) (fmt := 0x5) (n := true))),
    ([0x0C828925], .hfma2 (b (d := 0x5) (a := 0x9) (bb := 0x12) (m := true))),
    ([0x8C818280, 0x142AB0A0, 0x00000000], .hfma2Ext (e (d := 0x6) (a := 0xa) (bb := 0x14) (c := 0x2a) (p := 0x3) (fmt := 0x5) (n := true))),
    ([0x0CC28925], .hmin2 (b (d := 0x5) (a := 0x9) (bb := 0x12) (m := true))),
    ([0x8CC18280, 0x1400B0A0, 0x00000000], .hmin2Ext (e (d := 0x6) (a := 0xa) (bb := 0x14) (p := 0x3) (fmt := 0x5) (n := true))),
    ([0x0D028925], .hmax2 (b (d := 0x5) (a := 0x9) (bb := 0x12) (m := true))),
    ([0x8D018280, 0x1400B0A0, 0x00000000], .hmax2Ext (e (d := 0x6) (a := 0xa) (bb := 0x14) (p := 0x3) (fmt := 0x5) (n := true))),
    ([0x0D710925], .hcmp2 (b (d := 0x62) (a := 0x9) (bb := 0x12) (m := true))),
    ([0x8D5D0283, 0x1400B0C0, 0x00000000], .hcmp2Ext (e (d := 0x74) (a := 0xa) (sub := 0x3) (bb := 0x14) (p := 0x3) (fmt := 0x6) (n := true))),
    ([0x0E028900], .ex2 (b (d := 0x5) (a := 0x9))),
    ([0x8E018280, 0x0000B680, 0x00000000], .ex2Ext (e (d := 0x6) (a := 0xa) (p := 0x3) (rnd := 0x3) (fmt := 0x4) (n := true))),
    ([0x0E428900], .lg2 (b (d := 0x5) (a := 0x9))),
    ([0x8E418280, 0x0000B080, 0x00000000], .lg2Ext (e (d := 0x6) (a := 0xa) (p := 0x3) (fmt := 0x4) (n := true))),
    ([0x0E828900], .rcp (b (d := 0x5) (a := 0x9))),
    ([0x8E818280, 0x0000B080, 0x00000000], .rcpExt (e (d := 0x6) (a := 0xa) (p := 0x3) (fmt := 0x4) (n := true))),
    ([0x0EC28900], .rsq (b (d := 0x5) (a := 0x9))),
    ([0x8EC18280, 0x0000B080, 0x00000000], .rsqExt (e (d := 0x6) (a := 0xa) (p := 0x3) (fmt := 0x4) (n := true))),
    ([0x0F028900], .sqrt (b (d := 0x5) (a := 0x9))),
    ([0x8F018280, 0x0000B680, 0x00000000], .sqrtExt (e (d := 0x6) (a := 0xa) (p := 0x3) (rnd := 0x3) (fmt := 0x4) (n := true))),
    ([0x0F428900], .sin (b (d := 0x5) (a := 0x9))),
    ([0x8F418280, 0x0000B080, 0x00000000], .sinExt (e (d := 0x6) (a := 0xa) (p := 0x3) (fmt := 0x4) (n := true))),
    ([0x0F828900], .cos (b (d := 0x5) (a := 0x9))),
    ([0x8F818280, 0x0000B080, 0x00000000], .cosExt (e (d := 0x6) (a := 0xa) (p := 0x3) (fmt := 0x4) (n := true)))] = true := by decide

/-- The control instructions. -/
theorem test_words_control : reads [
    ([0x90000000, 0x0000B000, 0xFFFFFFF0], .bra (e (p := 0x3) (imm := 0xfffffff0) (n := true))),
    ([0x10400A00], .brx (b (a := 0xa))),
    ([0x90400280, 0x0000B000, 0x00000000], .brxExt (e (a := 0xa) (p := 0x3) (n := true))),
    ([0x90800000, 0x0000B000, 0x00000040], .call (e (p := 0x3) (imm := 0x40) (n := true))),
    ([0x30C00A00], .callx (b (a := 0xa) (s := true))),
    ([0x90C00280, 0x0000B000, 0x00000000], .callxExt (e (a := 0xa) (p := 0x3) (n := true))),
    ([0x11000000], .ret (b)),
    ([0x91000000, 0x0000B000, 0x00000000], .retExt (e (p := 0x3) (n := true))),
    ([0x11400000], .exit (b)),
    ([0x91400000, 0x0000B000, 0x00000000], .exitExt (e (p := 0x3) (n := true))),
    ([0x31800000], .nop (b  (s := true))),
    ([0x91800000, 0x0000B000, 0x00000000], .nopExt (e (p := 0x3) (n := true))),
    ([0x11C00000], .yield (b)),
    ([0x91C00000, 0x0000B000, 0x00000000], .yieldExt (e (p := 0x3) (n := true))),
    ([0x12000000], .brk (b)),
    ([0x92000000, 0x0000B000, 0x00000000], .brkExt (e (p := 0x3) (n := true))),
    ([0x924080C3, 0x0400B000, 0x00000000], .plog (e (d := 0x2) (a := 0x3) (sub := 0x3) (bb := 0x4) (p := 0x3) (n := true))),
    ([0x12828000], .pmov (b (d := 0x5))),
    ([0x92800280, 0x0000B000, 0x00000001], .pmovExt (e (a := 0xa) (p := 0x3) (imm := 0x1) (n := true)))] = true := by decide

/-- The cross-lane instructions. -/
theorem test_words_lanes : reads [
    ([0x9401424B, 0x122B0000, 0x00000000], .shfl (e (d := 0x5) (a := 0x9) (sub := 0xb) (bb := 0x12) (c := 0x2b))),
    ([0x944140C3, 0x00000000, 0x00000000], .vote (e (d := 0x5) (a := 0x3) (sub := 0x3))),
    ([0x14B08900], .rdfl (b (d := 0x61) (a := 0x9))),
    ([0x94818280, 0x00000060, 0x00000000], .rdflExt (e (d := 0x6) (a := 0xa) (fmt := 0x3))),
    ([0x94C14242, 0x00000020, 0x00000000], .redux (e (d := 0x5) (a := 0x9) (sub := 0x2) (fmt := 0x1))),
    ([0x95014248, 0x00000000, 0x00000000], .scanInstr (e (d := 0x5) (a := 0x9) (sub := 0x8)))] = true := by decide

/-- The special-register instructions. -/
theorem test_words_special : reads [
    ([0x15408400], .srd (b (d := 0x1) (a := 0x4))),
    ([0x95418400, 0x0000B000, 0x00000000], .srdExt (e (d := 0x6) (a := 0x10) (p := 0x3) (n := true))),
    ([0x15801112], .swr (b (a := 0x11) (bb := 0x9))),
    ([0x95800840, 0x0A00B000, 0x00000000], .swrExt (e (a := 0x21) (bb := 0xa) (p := 0x3) (n := true)))] = true := by decide

/-- The memory instructions. -/
theorem test_words_memory : reads [
    ([0x360406E0], .ld (b (d := 0x8) (a := 0x6) (bb := 0x70) (s := true))),
    ([0x96020180, 0x0000B069, 0x00000040], .ldExt (e (d := 0x8) (a := 0x6) (p := 0x3) (fmt := 0x3) (scope := 0x2) (ord := 0x1) (imm := 0x40) (n := true))),
    ([0x16460EE0], .st (b (d := 0xc) (a := 0xe) (bb := 0x70))),
    ([0x964303C8, 0x0000B060, 0x00000040], .stExt (e (d := 0xc) (a := 0xf) (sub := 0x8) (p := 0x3) (fmt := 0x3) (imm := 0x40) (n := true))),
    ([0xB6830280, 0x71000028, 0x00000000], .atom (e (d := 0xc) (a := 0xa) (bb := 0x71) (fmt := 0x1) (scope := 0x2) (s := true))),
    ([0x96C00294, 0x0900B024, 0x00000008], .red (e (a := 0xa) (sub := 0x14) (bb := 0x9) (p := 0x3) (fmt := 0x1) (scope := 0x1) (imm := 0x8) (n := true))),
    ([0x97000000, 0x0000B00B, 0x00000303], .fence (e (p := 0x3) (scope := 0x2) (ord := 0x3) (imm := 0x303) (n := true))),
    ([0x97400283, 0x0000B000, 0x00000080], .pf (e (a := 0xa) (sub := 0x3) (p := 0x3) (imm := 0x80) (n := true))),
    ([0x178104E0], .pres (b (d := 0x2) (a := 0x4) (bb := 0x70))),
    ([0x97808100, 0x0000B000, 0x00000080], .presExt (e (d := 0x2) (a := 0x4) (p := 0x3) (imm := 0x80) (n := true))),
    ([0x17C00000], .sfence (b)),
    ([0x97C00000, 0x0000B000, 0x00000000], .sfenceExt (e (p := 0x3) (n := true))),
    ([0x98000280, 0x0000B000, 0x00000000], .dcopy (e (a := 0xa) (p := 0x3) (n := true))),
    ([0x18400900], .pstep (b (a := 0x9))),
    ([0x98400240, 0x0000B000, 0x00000000], .pstepExt (e (a := 0x9) (p := 0x3) (n := true))),
    ([0x18800000], .lkwait (b)),
    ([0x98800000, 0x0000B000, 0x00000000], .lkwaitExt (e (p := 0x3) (n := true)))] = true := by decide

/-- The tack instructions, with the words of R201. -/
theorem test_words_tack : reads [
    ([0x18C406E0], .tackLd (b (d := 0x8) (a := 0x6) (bb := 0x70))),
    ([0x98C20180, 0x0000B060, 0x00000040], .tackLdExt (e (d := 0x8) (a := 0x6) (p := 0x3) (fmt := 0x3) (imm := 0x40) (n := true))),
    ([0x18C202E0], .tackLd (b (d := 0x4) (a := 0x2) (bb := 0x70))),
    ([0x98C18080, 0x00002060, 0x00000020], .tackLdExt (e (d := 0x6) (a := 0x2) (p := 0x2) (fmt := 0x3) (imm := 0x20))),
    ([0x19000000], .tackOpen (b)),
    ([0x19800000], .tackDrop (b)),
    ([0x99400000, 0x00000000, 0x0000000A], .tackChk (e (imm := 0xA))),
    ([0x99000000, 0x0000B000, 0x00000000], .tackOpenExt (e (p := 0x3) (n := true))),
    ([0x99400000, 0x0000B000, 0x00000020], .tackChk (e (p := 0x3) (imm := 0x20) (n := true))),
    ([0x39800000], .tackDrop (b  (s := true))),
    ([0x99800000, 0x0000B000, 0x00000000], .tackDropExt (e (p := 0x3) (n := true)))] = true := by decide

/-- The barrier instructions. -/
theorem test_words_barrier : reads [
    ([0x1A000000], .gsync (b)),
    ([0x9A000000, 0x00000000, 0x00000000], .gsyncExt (e)),
    ([0x9A400000, 0x0000B000, 0x00000007], .barArr (e (p := 0x3) (imm := 0x7) (n := true))),
    ([0x9A400001, 0x0000B000, 0x00000007], .barWait (e (sub := 0x1) (p := 0x3) (imm := 0x7) (n := true))),
    ([0x9A400002, 0x0000B000, 0x00000007], .barSync (e (sub := 0x2) (p := 0x3) (imm := 0x7) (n := true))),
    ([0x9A800100, 0x0000B000, 0x00000010], .tbInit (e (a := 0x4) (p := 0x3) (imm := 0x10) (n := true))),
    ([0x9A800101, 0x0000B000, 0x00000010], .tbArr (e (a := 0x4) (sub := 0x1) (p := 0x3) (imm := 0x10) (n := true))),
    ([0x9A800102, 0x0000B000, 0x00000010], .tbExp (e (a := 0x4) (sub := 0x2) (p := 0x3) (imm := 0x10) (n := true))),
    ([0x9A800103, 0x0000B000, 0x00000010], .tbWait (e (a := 0x4) (sub := 0x3) (p := 0x3) (imm := 0x10) (n := true))),
    ([0x9A800104, 0x0000B000, 0x00000010], .tbTest (e (a := 0x4) (sub := 0x4) (p := 0x3) (imm := 0x10) (n := true))),
    ([0x1B000000], .gridsync (b)),
    ([0x9B000000, 0x00000000, 0x00000000], .gridsyncExt (e))] = true := by decide

/-- The group instructions. -/
theorem test_words_group : reads [
    ([0x1AC304E0], .join (b (d := 0x6) (a := 0x4) (bb := 0x70))),
    ([0x9AC18100, 0x0000B000, 0x00000010], .joinExt (e (d := 0x6) (a := 0x4) (p := 0x3) (imm := 0x10) (n := true))),
    ([0x9B400200, 0x0C00B000, 0x00000100], .spawn (e (a := 0x8) (bb := 0xc) (p := 0x3) (imm := 0x100) (n := true))),
    ([0x1B807100], .xacq (b (a := 0x71))),
    ([0x1B806400], .xacq (b (a := 0x64))),
    ([0x9B801C40, 0x00000000, 0x00000000], .xacqExt (e (a := 0x71))),
    ([0x1BC00000], .xrel (b)),
    ([0x9BC00000, 0x00000000, 0x00000000], .xrelExt (e)),
    ([0x9C014100, 0x8A8B0000, 0x00000000], .rsmp (e (d := 0x5) (a := 0x4) (bb := 0x8a) (c := 0x8b)))] = true := by decide

/-- The matrix instructions. -/
theorem test_words_matrix : reads [
    ([0x9D000240, 0x00000000, 0x00000003], .bkdecl (e (a := 0x9) (imm := 0x3))),
    ([0x9D440800, 0x0900B000, 0x00000102], .mma (e (d := 0x10) (a := 0x20) (bb := 0x9) (p := 0x3) (imm := 0x102) (n := true))),
    ([0x9D800000, 0x00000000, 0x00000100], .mzero (e (imm := 0x100))),
    ([0x9DC02100, 0x00000000, 0x00000100], .mld (e (a := 0x84) (imm := 0x100))),
    ([0x9DC00401, 0x00000000, 0x00000100], .mldRegs (e (a := 0x10) (sub := 0x1) (imm := 0x100))),
    ([0x9E002180, 0x00000000, 0x00000100], .mst (e (a := 0x86) (imm := 0x100))),
    ([0x9E040001, 0x00000000, 0x00000100], .mstRegs (e (d := 0x10) (sub := 0x1) (imm := 0x100))),
    ([0x9E402100, 0x00000B20, 0x00030100], .mcvt (e (a := 0x84) (rnd := 0x5) (fmt := 0x9) (imm := 0x30100))),
    ([0x9E802100, 0x87000120, 0x00000100], .qblk (e (a := 0x84) (bb := 0x87) (fmt := 0x9) (imm := 0x100)))] = true := by decide

/-- The queue, mark and system instructions. -/
theorem test_words_system : reads [
    ([0x9EC04100, 0x05000000, 0x00000040], .qpost (e (d := 0x1) (a := 0x4) (bb := 0x5) (imm := 0x40))),
    ([0x9F000080, 0x71000060, 0x00000000], .qsig (e (a := 0x2) (bb := 0x71) (fmt := 0x3))),
    ([0x1F400900], .mark (b (a := 0x9))),
    ([0x9F400240, 0x0000B000, 0x00000000], .markExt (e (a := 0x9) (p := 0x3) (n := true))),
    ([0x1F800012], .sysTrap (b (bb := 0x9))),
    ([0x9F800000, 0x0900B000, 0x00000000], .sysTrapExt (e (bb := 0x9) (p := 0x3) (n := true))),
    ([0x1F800100], .sysTret (b (a := 0x1))),
    ([0x9F800040, 0x0000B000, 0x00000000], .sysTretExt (e (a := 0x1) (p := 0x3) (n := true))),
    ([0x1F800200], .sysTkill (b (a := 0x2))),
    ([0x9F800080, 0x0000B000, 0x00000000], .sysTkillExt (e (a := 0x2) (p := 0x3) (n := true))),
    ([0x1F800300], .sysHalt (b (a := 0x3))),
    ([0x9F8000C0, 0x0000B000, 0x00000000], .sysHaltExt (e (a := 0x3) (p := 0x3) (n := true))),
    ([0x1F800412], .sysCad (b (a := 0x4) (bb := 0x9))),
    ([0x9F800100, 0x09000000, 0x00000000], .sysCadExt (e (a := 0x4) (bb := 0x9))),
    ([0x1F800512], .sysIdle (b (a := 0x5) (bb := 0x9))),
    ([0x9F800140, 0x0900B000, 0x00000000], .sysIdleExt (e (a := 0x5) (bb := 0x9) (p := 0x3) (n := true)))] = true := by decide

/-- Each word list is refused for its reason (R70). -/
def refuses (l : List (List Word × Illegal)) : Bool :=
  l.all fun p => match decodeList p.1 with
    | .illegal why _ => decide (why = p.2)
    | _ => false

/-- R64, R70: OP 0x7F, a reserved OP, a form that is absent, an unassigned sub-operation, M where it is 0, a type that is not
accepted, and a literal that no operand names or that is missing. -/
theorem test_refused_words : refuses [
    ([0x1FC00000], .op), ([0x07C00000], .op), ([0x06000000], .field 1), ([0x94C14246, 0x00000020, 0], .op),
    ([0x11800001], .field 2), ([0x80018280, 0x14000080, 0], .op), ([0x80018280, 0x14000160, 0], .field 2),
    ([0x40028914, 0, 0], .field 8), ([0x0002F824], .field 8), ([0x000289F0], .field 8)] = true := by decide

/-- R52, R54, R55, R70: reserved rounding, a guard that is not allowed, reserved codes of D, A, B and C, an odd pair, and a
reserved part of SUB. -/
theorem test_refused_fields : refuses [
    ([0x88018280, 0x14000C80, 0], .field 2), ([0x9A000000, 0x00001000, 0], .field 2), ([0x003C8924], .field 3),
    ([0x0002F924], .field 4), ([0x000289F2], .field 5), ([0x81018280, 0x14790020, 0], .field 6),
    ([0x8001C280, 0x14000060, 0], .field 3), ([0x960201A8, 0x00000020, 0], .field 7)] = true := by decide

/-- Terms that the checks refuse: a reserved code in each operand, fields out of their values, a literal that is missing, and a
selecting field that names another instruction. -/
theorem test_ill_formed : ([.add (b (d := 0x79)), .add (b (a := 0x79)), .add (b (bb := 0x79)), .madExt (e (c := 0x79)),
    .addExt (e (fmt := 11)), .addExt (e (fmt := 4)), .addExt (e (rnd := 1)), .addExt (e (scope := 1)), .addExt (e (ord := 1)),
    .addExt (e (sub := 1)), .addExt (e (imm := 1)), .nop (b (m := true)), .gsyncExt (e (p := 1)), .add (b (a := 0x78)),
    .add (b (lit := some 0)), .addExt (e (d := 1) (fmt := 3)), .ldExt (e (sub := 0x28) (fmt := 1)), .barWait (e (sub := 0)),
    .sysTrap (b (a := 3))] : List Instr).all (fun i => !i.wellFormed) = true := by decide

/-- The least well-formed neighbours of those terms. -/
theorem test_well_formed : ([.add (b 1 2 3), .madExt (e (d := 1) (a := 2) (bb := 3) (c := 4)), .addExt (e (d := 2) (fmt := 3)),
    .nop (b), .gsyncExt (e), .add (b (a := 0x78) (lit := some 0)), .barWait (e (sub := 1)), .sysTrap (b), .powerOn] :
    List Instr).all (·.wellFormed) = true := by decide

/-! ## Small states -/

/-- A running kernel of one thread, whose packet stands at a placed instruction. -/
def base : State := State.reset.withFetchWord 32 0
def ref0 : ThreadRef := { kid := 0, team := 0, gang := 0, lane := 0 }
def ref1 : ThreadRef := { kid := 0, team := 0, gang := 0, lane := 1 }
/-- The thread of that state, with registers that tests use: v4 = 12, v5 = 7, v6:v7 = 0x10040, v8 = 16. -/
def t0 : Thread :=
  { Thread.fresh ref0 0x10000 0 0 0 with
    v := writeRegs (writeRegs (Thread.fresh ref0 0 0 0 0).v 4 [12, 7, 0x10040]) 8 [16, 3] }
/-- Its state after another change of the thread. -/
def st (t : Thread) : State := base.setThread t
/-- Two threads of one gang in the packet. -/
def two (t u : Thread) : State :=
  base.modify fun m => { m with threads := [t, u], packet := [t.ref, u.ref] }
def t1 : Thread := { t0 with ref := ref1, v := writeRegs t0.v 4 [20] }
def gang0 : Gang := base.m.gangs.headD (base.newGang ref0.gangRef 0 0 0 0 0 (0, 0))
/-- The team and the kernel of the small states, changed. -/
def withTeam (f : Team → Team) (s : State) : State := s.updTeam ref0.teamRef f
def withKernel (f : Kernel → Kernel) (s : State) : State := s.updKernel 0 f
def withLaunch (f : LaunchRec → LaunchRec) : State → State := withKernel fun k => { k with launch := k.launch.map f }
def withContext (f : Context → Context) (s : State) : State := s.updContext 0 f
def withGang (f : Gang → Gang) (s : State) : State := s.updGang ref0.gangRef f
def team0 : Team := (base.team? ref0.teamRef).getD (newTeam ref0.teamRef 0 placedLaunch { seats := [], hsBase := 0, acc := [], budgets := [] } 0 0)
/-- The instruction acts in the packet's one thread. -/
def acts (i : Instr) (s : State) (t : Thread) : Bool := (i.code.map fun c => alone s c t).getD false
/-- The instruction may act in the packet; gang: whether its destination is a gang register. -/
def mayAct (i : Instr) (s : State) (gang : Bool) : Bool :=
  (i.code.map fun c => distinct s && ready s c && guarded s c && c.gangDst == gang).getD false
/-- An entry of a pending list, returned or not. -/
def waits : Pending := { reg := 4, count := 1, tok := 9, value := none }
def returned : Pending := { reg := 4, count := 1, tok := 9, value := some [5] }

/-! ## States that meet the hypotheses of the statements, clause by clause -/

theorem witness_ComputingInstructionsComplete :
    integerRule (.add (b 5 4 8)) = some addCalc ∧ mayAct (.add (b 5 4 8)) (two t0 t1) false = true ∧
    floatRule (.fadd (b 5 4 8)) = some faddCalc ∧ mayAct (.fadd (b 5 4 8)) (two t0 t1) false = true ∧
    integerRule (.add (b 0x61 0x60 0x71)) = some addCalc ∧ mayAct (.add (b 0x61 0x60 0x71)) (two t0 t1) true = true ∧
    (two t0 t1).participants (.base 0 (b 0x61 0x60 0x71)) = t0 :: [t1] ∧ (two t0 t1).gangWriteBarred 0 1 = false ∧
    floatRule (.fadd (b 0x61 0x60 0x71)) = some faddCalc ∧ mayAct (.fadd (b 0x61 0x60 0x71)) (two t0 t1) true = true :=
  ⟨rfl, by decide, rfl, by decide, rfl, by decide, by decide, by decide, rfl, by decide⟩

/-- The operands of an instruction in t0. -/
def laneOf (c : Code) (t : Thread := t0) : Lane := base.lane c t
def r104At (i : Instr) : Option Int :=
  i.code.bind fun c =>
    let l := laneOf c
    r104 i (Ty.signed l.ty) (32 * Ty.regs l.ty) (l.val l.f.a).toNat (l.val l.f.b).toNat (l.val l.f.third).toNat (l.word l.f.b).toNat

/-- IntegerValues: each operation, on lanes of every integer type. -/
theorem witness_IntegerValues :
    ([.add (b 5 4 8), .subExt (e 6 8 0 4 (fmt := 2)), .mulExt (e 6 8 0 4 (fmt := 3)), .mulh (b 5 4 8 true), .mad (b 5 4 8),
      .neg (b 5 4), .abs (b 5 4), .min (b 5 4 8), .max (b 5 4 8), .and (b 5 4 8), .or (b 5 4 8), .xor (b 5 4 8), .not (b 5 4),
      .andn (b 5 4 8), .shl (b 5 4 8), .shr (b 5 4 8), .sar (b 5 4 8), .rot (b 5 4 8), .popc (b 5 4), .clz (b 5 4),
      .ctz (b 5 4), .brev (b 5 4)] : List Instr).all (fun i => (integerRule i).isSome && (r104At i).isSome &&
        (i.code.map fun c => wholeTypes.contains (laneOf c).ty).getD false) = true := by decide +kernel

theorem witness_FieldAndMoveValues : (laneOf (.base 0x12 (b 5 4 8))).ty ∈ wholeTypes ∧
    (laneOf (.ext 0x13 (e 6 8 0 4 10 (fmt := 3)))).ty ∈ wholeTypes ∧ (laneOf (.ext 0x18 (e 5 4 0 5 2 (fmt := 4)))).ty = Ty.f32 := by decide +kernel

/-- The examples of R110: -7 by 2 as .i32 and as .n32, and a zero divisor. -/
theorem witness_DivisionExamples :
    let t := { t0 with v := writeRegs t0.v 4 [0xFFFFFFF9, 2, 0] }
    let l := laneOf (.base 0x1D (b 8 4 5)) t
    let n := laneOf (.base 0x1D (b 8 4 5 true)) t
    let z := laneOf (.base 0x1D (b 8 4 6)) t
    l.ty = Ty.i32 ∧ l.word l.f.a = 0xFFFFFFF9 ∧ l.word l.f.b = 2 ∧ n.ty = Ty.n32 ∧ n.word n.f.a = 0xFFFFFFF9 ∧
    n.word n.f.b = 2 ∧ z.ty = Ty.i32 ∧ z.word z.f.b = 0 := by decide +kernel

/-- Each condition of cmp, and fcmp with and without a NaN. -/
theorem witness_PredicateValues :
    ((List.range 6).all fun k => condOf (laneOf (.base 0x1C (b (BitVec.ofNat 7 (16 * k + 2)) 4 8))).f == k) = true ∧
    (f32 0x7FC00000).isNan = true ∧ (f32 (t0.v.toArray.getD 4 0)).isNan = false := by decide +kernel

theorem witness_PlogCompletes : acts (.plog (e 2 3 3 4)) (st t0) t0 = true := by decide +kernel
theorem witness_PredicateZero : 1 ≤ 7 ∧ 7 < 8 := by decide +kernel

theorem witness_NanRules : (f32 0x7FC00000).isNan = true ∧ (f32 0x7F800001).isNan = true ∧ (f32 0x3F800000).isNan = false := by
  decide +kernel

theorem witness_DeferredInstructionsComplete :
    deferredRule (.div (b 5 4 8)) = some (.divide, divCalc) ∧ acts (.div (b 5 4 8)) (st t0) t0 = true ∧
    deferredRule (.sin (b 5 4)) = some (.trans, transCalc .sin) ∧ acts (.sin (b 5 4)) (st t0) t0 = true ∧ t0.pend.length < 8 ∧
    (let t := { t0 with pend := List.replicate 7 returned }
     acts (.div (b 5 4 8)) (st t) t = true ∧ t.pend.length < 8) :=
  ⟨rfl, by decide, rfl, by decide, by decide, by decide⟩

theorem witness_FullPendingListParks :
    let t := { t0 with pend := List.replicate 7 returned ++ [waits] }
    (deferredRule (.rem (b 5 4 8))).isSome = true ∧ acts (.rem (b 5 4 8)) (st t) t = true ∧ 8 ≤ t.pend.length ∧
    t.allReturned = false := by decide +kernel

theorem witness_MarkerCommits : (Code.base 0x46 (b)).fields.s = false ∧ (Code.base 0x46 (b (s := true))).fields.s = true ∧
    ({ t0 with pend := [returned] } : Thread).allReturned = true ∧ ({ t0 with pend := [waits] } : Thread).allReturned = false := by
  decide +kernel

/-- A result under way to t. -/
def resultFlight (tok : Nat) (v : List Word) : Flight := { id := 3, due := 0, msg := .result ref0 tok v none }
def withEvent (id : Nat) (fs : List Flight) (s : State) : State :=
  s.modify fun m => { m with flight := fs, ev := { m.ev with id := id } }

theorem witness_ResultReturns :
    let t := { t0 with pend := [waits] }
    let s := withEvent 3 [resultFlight 9 [5]] (st t)
    s.m.flight.find? (·.id == s.m.ev.id) = some (resultFlight 9 [5]) ∧ s.thread? t.ref = some t ∧ t.retWait = none := by decide +kernel

theorem witness_ThreadInstructionsComplete :
    ([.nop (b), .bra (e (imm := 4)), .pmov (b 5), .pmovExt (e (a := 4) (imm := 1)), .sfence (b), .lkwait (b),
      .sysIdle (b (a := 5) (bb := 4))] : List Instr).all (fun i => (threadRule base i).isSome && acts i (st t0) t0) = true ∧
    (let t := { t0 with p := 1 }
     (threadRule base (.bra (e (imm := 4) (p := 2)))).isSome = true ∧ distinct (st t) = true ∧
     ready (st t) (.ext 0x40 (e (imm := 4) (p := 2))) = true ∧ guardTrue (Code.ext 0x40 (e (imm := 4) (p := 2))).fields t = false) := by decide +kernel

theorem witness_YieldCompletes : acts (.yield (b)) (st t0) t0 = true ∧ acts (.yieldExt (e (p := 3) (n := true))) (st t0) t0 = true := by
  decide +kernel

/-- v6:v7 is 0x10040, a target; v8:v9 has bits above 56, and v4:v5 after a change is no multiple of 4. -/
theorem witness_AbsoluteBranchCompletes : acts (.brx (b (a := 6))) (st t0) t0 = true ∧
    ((base.lane (.base 0x41 (b (a := 6))) t0).dword 6).toNat = 0x10040 := by decide +kernel
theorem witness_BadBranchTargetTraps :
    let t := { t0 with v := writeRegs t0.v 8 [16, 0x02000000, 0x10042, 0] }
    acts (.brx (b (a := 8))) (st t) t = true ∧ acts (.callx (b (a := 8))) (st t) t = true ∧
    t.fenced 2 = false ∧ 2 ^ 57 ≤ ((base.lane (.base 0x41 (b (a := 8))) t).dword 8).toNat ∧
    acts (.callx (b (a := 10))) (st t) t = true ∧ ((base.lane (.base 0x43 (b (a := 10))) t).dword 10).toNat = 0x10042 := by
  decide +kernel

/-- A kernel with 64 bytes of private memory in the placed page. -/
def pvLaunch (s : State) : State := withLaunch (fun l => { l with pvBase := 0x10000, pvSize := 64, frames := 1 }) s
/-- The access that w asks for can go. -/
def canAccess (s : State) (c : Code) (t : Thread) (g : Gang) (w : Want) : Bool :=
  match (s.modify fun m => { m with nextId := m.nextId + 1 }).checkAccess c t g w s.m.nextId with
  | .ok a => reaches s c t g w a
  | _ => false

theorem witness_CallCompletes :
    let t := { t0 with sptr := 64 }
    let s := pvLaunch (st t)
    let c : Code := .ext 0x42 (e (imm := 4))
    (Instr.call (e (imm := 4))).code = some c ∧ alone s c t = true ∧ callTarget s (.call (e (imm := 4))) c t = some 0x10010 ∧
    t.sptr.toNat % 8 = 0 ∧ 8 ≤ t.sptr.toNat ∧ t.sptr.toNat ≤ s.limit t 3 ∧ canAccess s c t gang0 (pushWant c t) = true ∧
    callTarget s (.callx (b (a := 6))) (.base 0x43 (b (a := 6))) t = some 0x10040 := by decide +kernel

theorem witness_StackTopTraps :
    let t := { t0 with sptr := 60 }
    let u := { t0 with sptr := 64 }
    let v := { t0 with sptr := 72 }
    acts (.call (e (imm := 4))) (pvLaunch (st v)) v = true ∧ v.sptr.toNat % 8 = 0 ∧ 8 ≤ v.sptr.toNat ∧
    (pvLaunch (st v)).limit v 3 < v.sptr.toNat ∧ t0.fenced 2 = false ∧ t0.fenced 1 = false ∧
    acts (.call (e (imm := 4))) (pvLaunch (st t)) t = true ∧ t.sptr.toNat % 8 ≠ 0 ∧
    acts (.call (e (imm := 4))) (pvLaunch (st t0)) t0 = true ∧ t0.sptr = 0 ∧
    (callTarget (st t0) (.call (e (imm := 4))) (.ext 0x42 (e (imm := 4))) t0).isSome = true ∧
    acts (.ret (b)) (pvLaunch (st u)) u = true ∧ u.sptr.toNat % 8 = 0 ∧ (pvLaunch (st u)).limit u 3 < u.sptr.toNat + 8 := by
  decide +kernel

theorem witness_ReturnCompletes :
    let t := { t0 with sptr := 56 }
    let s := pvLaunch (st t)
    let c : Code := .base 0x44 (b)
    let u := { t0 with retWait := some (9, c) }
    let s2 := withEvent 3 [resultFlight 9 [0x10040, 0]] (st u)
    acts (.ret (b)) s t = true ∧ t.sptr.toNat % 8 = 0 ∧ t.sptr.toNat + 8 ≤ s.limit t 3 ∧
    canAccess s c t gang0 (popWant t) = true ∧
    s2.m.flight.find? (·.id == s2.m.ev.id) = some (resultFlight 9 [0x10040, 0]) ∧ s2.thread? u.ref = some u ∧
    (pair 0x10040 0).toNat = 0x10040 := by decide +kernel

theorem witness_BreakAndSystemCall : acts (.brk (b)) (st t0) t0 = true ∧ acts (.sysTrap (b (a := 0) (bb := 4))) (st t0) t0 = true ∧
    acts (.sysTret (b (a := 1))) (st t0) t0 = true ∧ t0.nest = 0 ∧
    (let t := { t0 with nest := 1, x := { t0.x with pc := 0x10042 } }
     acts (.sysTret (b (a := 1))) (st t) t = true ∧ t.nest ≠ 0 ∧ t.x.pc.toNat % 4 ≠ 0) ∧
    (let t := { t0 with nest := 3, x := { t0.x with pc := 0x10040 } }
     acts (.sysTret (b (a := 1))) (st t) t = true ∧ t.nest ≠ 0 ∧ t.x.pc.toNat % 4 = 0 ∧ t.allReturned = true) ∧
    (let t := { t0 with nest := 1, pend := [waits] }
     acts (.sysTret (b (a := 1))) (st t) t = true ∧ t.nest ≠ 0 ∧ t.x.pc.toNat % 4 = 0 ∧ t.allReturned = false) ∧
    acts (.sysHalt (b (a := 3))) (st t0) t0 = true ∧ acts (.sysCad (b (a := 4) (bb := 0x71))) (st t0) t0 = true ∧
    base.gangOf t0 = some gang0 := by decide +kernel

theorem witness_RegisterFaults :
    let c : Code := .base 0x00 (b 32 4 8)
    let d : Code := .base 0x00 (b 5 4 8)
    let t := { t0 with poison := [4] }
    perThread base (.add (b 32 4 8)) = true ∧ c.gangDst = false ∧ distinct (st t0) = true ∧ (st t0).m.packet = [t0.ref] ∧
    (st t0).thread? t0.ref = some t0 ∧ guardTrue c.fields t0 = true ∧ (st t0).outOfRange c t0 = true ∧
    perThread base (.add (b 5 4 8)) = true ∧ d.gangDst = false ∧ distinct (st t) = true ∧ (st t).m.packet = [t.ref] ∧
    (st t).thread? t.ref = some t ∧ guardTrue d.fields t = true ∧ (st t).outOfRange d t = false ∧
    ((st t).poisonRead d t).isSome = true ∧ t0.pend.length < 8 ∧ t0.fenced 48 = false ∧ Code.barred d t = false ∧
    (let c : Code := .ext 0x75 (e (d := 16) (bb := 40))
     let d : Code := .base 0x58 (b 8 6 0x70)
     let u := { t0 with poison := [6] }
     perThread base (.mma (e (d := 16) (bb := 40))) = true ∧ (st t0).outOfRange c t0 = true ∧ c.gangDst = false ∧
     guardTrue c.fields t0 = true ∧ perThread base (.ld (b 8 6 0x70)) = true ∧ (Instr.ld (b 8 6 0x70)).code = some d ∧
     (st u).outOfRange d u = false ∧ ((st u).poisonRead d u).isSome = true) := by decide +kernel

theorem witness_SpecialRegistersReadAndWritten :
    mayAct (.srd (b 8 0x10)) (two t0 t1) false = true ∧ mayAct (.srd (b 0x62 0x10)) (two t0 t1) true = true ∧
    (two t0 t1).participants (.base 0x55 (b 0x62 0x10)) = t0 :: [t1] ∧ (two t0 t1).gangWriteBarred 0 2 = false ∧
    base.gangOf t0 = some gang0 ∧ (base.context 0).priv = false ∧ ((withContext (fun x => { x with priv := true }) base).context 0).priv = true ∧
    ([0x11, 0x14, 0x15, 0x16, 0x21].all fun n => acts (.swr (b (a := BitVec.ofNat 7 n) (bb := 0x70))) (st t0) t0
      && (specialWritten t0 n 0).isSome) = true ∧
    (base.launch? 0).isSome = true ∧ (base.kernel? 0).isSome = true ∧ specialWritten t0 0x11 5 = none ∧ specialWritten t0 0x15 8 = none ∧ specialWritten t0 0x16 2 = none ∧
    specialWritten t0 0x21 (2 ^ 57) = none ∧ acts (.swr (b (a := 0x30) (bb := 0x70))) (st t0) t0 = true := by decide +kernel

theorem witness_CrossLaneInstructionsComplete :
    ([0, 1, 2, 3].all fun k => mayAct (.vote (e 5 3 (BitVec.ofNat 6 k))) (two t0 t1) false) = true ∧
    mayAct (.shfl (e 5 4 0x0B 5 8)) (two t0 t1) false = true ∧ ((packetThreads (two t0 t1)).all fun t => t.ref.lane < 32) = true ∧
    packetThreads (two t0 t1) = t0 :: [t1] ∧
    mayAct (.rdfl (b 5 4)) (two t0 t1) false = true ∧ mayAct (.rdfl (b 0x61 4)) (two t0 t1) true = true ∧
    (reduceRule (two t0 t1) (.ext 0x53 (e 5 4 0 (fmt := 1))) [t0, t1] t0 (.redux (e 5 4 0 (fmt := 1)))).isSome = true ∧
    mayAct (.redux (e 5 4 0 (fmt := 1))) (two t0 t1) false = true ∧
    mayAct (.redux (e 0x81 4 0 (fmt := 1))) (two t0 t1) true = true ∧ (two t0 t1).gangWriteBarred 0 1 = false ∧
    mayAct (.scanInstr (e 5 4 8 (fmt := 1))) (two t0 t1) false = true := by decide +kernel

/-- Addition is associative. -/
theorem witness_LaneOrder : ∀ x y z : Dword, (x + y) + z = x + (y + z) := BitVec.add_assoc

/-- The edges of the address rule: the top of gl, below 0, the limit, and an odd address. -/
theorem witness_EffectiveAddressRule :
    effAddr 0 0 (2 ^ 57 - 4) 4 4 = .error { cause := 0x06, addr := 0 } ∧ effAddr 0 0 (2 ^ 57 - 8) 4 4 = .ok (2 ^ 57 - 4) ∧
    effAddr 1 64 0 (-4) 4 = .error { cause := 0x06, addr := 0x01FFFFFFFFFFFFFC } ∧ effAddr 1 64 60 0 4 = .ok 60 ∧
    effAddr 1 64 61 0 4 = .error { cause := 0x06, addr := 61 } ∧ effAddr 1 64 58 0 4 = .error { cause := 0x05, addr := 58 } := by
  decide +kernel

/-- An access instruction and its operands, whose access can go in s. -/
def accessGoes (i : Instr) (s : State) (t : Thread) : Bool :=
  match i.code with
  | some c => alone s c t && (match accessRule s c t i with
    | some (sp, n, w) => (!releases (w 0).ord || !tackOpenBit t.tackst) && (match s.memAddr c t sp n with
      | .ok ea => decide (s.openPort.gangOf t = some gang0) && !s.accessBlocked t gang0 (w 0) &&
          canAccess s.openPort c t gang0 (w ea)
      | .error _ => false)
    | none => false)
  | none => false
/-- One whose address breaks R137. -/
def accessBad (i : Instr) (s : State) (t : Thread) : Bool :=
  match i.code with
  | some c => alone s c t && (match accessRule s c t i with
    | some (sp, n, w) => (!releases (w 0).ord || !tackOpenBit t.tackst) && !s.openPort.notReady t gang0 (w 0)
        && (match s.memAddr c t sp n with
      | .ok _ => false
      | .error _ => true)
    | none => false)
  | none => false
/-- One that is not ready, whatever its address or because of it. -/
def accessHeld (i : Instr) (s : State) (t : Thread) : Bool :=
  match i.code with
  | some c => alone s c t && (match accessRule s c t i with
    | some (_, _, w) => s.openPort.notReady t gang0 (w 0)
    | none => false)
  | none => false
def accessIo (i : Instr) (s : State) (t : Thread) : Bool :=
  match i.code with
  | some c => alone s c t && (match accessRule s c t i with
    | some (sp, n, w) => !s.openPort.notReady t gang0 (w 0) && (match s.openPort.memAddr c t sp n with
      | .ok ea => s.openPort.accessBlocked t gang0 (w ea)
      | .error _ => false)
    | none => false)
  | none => false
/-- A fence that holds the classes n. -/
def fenceOf (n : Nat) : OpenFence :=
  { tok := 5, waits := [4], successors := n, ord := 2, scope := 2, rmt := false, stage := .waiting, promotions := [] }
/-- The placed page mapped as I/O. -/
def ioPage (s : State) : State := s.updHub 0 fun h => { h with cores := h.cores.map fun c =>
  { c with tlb := c.tlb.map fun (x : Tlb) => { x with place := .host, u := true } } }

theorem witness_MemoryAccess :
    ([.ld (b 8 6 0x70), .ld (b 8 4 0x70 true), .st (b 8 6 0x70), .stExt (e 8 8 8 (fmt := 1)), .atom (e 12 6 0 4 (fmt := 1) (scope := 2)),
      .red (e 0 6 0 4 (fmt := 1) (scope := 2)), .qsig (e 0 6 0 0x71 (fmt := 3)),
      .ldExt (e 8 6 0 (fmt := 1) (scope := 2) (ord := 1)), .stExt (e 8 6 0 (fmt := 1) (scope := 2) (ord := 2))] :
      List Instr).all (accessGoes · (st t0) t0) = true ∧
    ([.ld (b 8 6 0x71), .st (b 8 5 0x70 true), .atom (e 12 6 0 4 (fmt := 1) (imm := 1))] : List Instr).all (accessBad · (st t0) t0) = true ∧
    (let t := { t0 with out := [{ tok := 3, classes := 2 }] }
     accessHeld (.stExt (e 8 6 0 (fmt := 1) (scope := 2) (ord := 2))) (st t) t = true) ∧
    (let t := { t0 with fences := [fenceOf 64] }
     accessIo (.ld (b 8 6 0x70)) (ioPage (st t)) t = true) ∧
    t0.pend.length < 8 ∧ base.gangOf t0 = some gang0 := by decide +kernel

/-- A release of each kind, in a thread whose window is open. -/
theorem witness_ReleaseInWindowTraps :
    let t := { t0 with tackst := 1 }
    ([.st (b 8 6 0x70), .stExt (e 8 6 0 (fmt := 1) (scope := 2) (ord := 2)), .atom (e 12 6 0 4 (fmt := 1) (scope := 2) (ord := 3)),
      .red (e 0 6 0 4 (fmt := 1) (scope := 2) (ord := 2)), .fence (e (scope := 2) (ord := 2) (imm := 0x303)), .gsync (b),
      .barArr (e (imm := 1)), .barSync (e (sub := 2) (imm := 1)), .tbArr (e (sub := 1) (a := 5)), .gridsync (b),
      .spawn (e (a := 4) (bb := 0x72) (imm := 16)), .rsmp (e 5 4 0 0x71 0x74)] : List Instr).all (fun i =>
        match i, i.code with
        | .st _, some c => !releaseForm c i
        | _, some c => releaseForm c i && i.wellFormed && guardTrue c.fields t && !(st t).outOfRange c t
        | _, none => false) = true ∧
    single (st t) t ∧ t.pend.length < 8 ∧ tackOpenBit t.tackst = true := by
  refine ⟨by decide +kernel, ⟨by decide +kernel, by decide +kernel⟩, by decide +kernel, by decide +kernel⟩

/-- An access of t0 in hub scratch at window byte 64. -/
def scratchAccess (op : AccOp) : Access :=
  { tok := 5, thread := ref0, hub := 0, core := 0, quarter := 0, space := 1, ea := 64, pa := 64, place := .here, size := 4, va := 64,
    ctx := 0, op := op, result := none, ord := 0, scope := 0, rmt := false, rep := false, tack := false, degraded := false,
    io := false, pc := 0x10000, word0 := 0, lineage := 0, issued := 0, lease := 0 }
theorem witness_ScratchAccessFrame : (scratchAccess .load).space = 1 ∧ Memory.wf base.m.win = true ∧
    (scratchAccess (.store [1, 2, 3, 4])).size = [1, 2, 3, (4 : Byte)].length := by decide +kernel

theorem witness_FencesAndPrefetches :
    ([0, 1, 2, 3].all fun k => acts (.fence (e (scope := 2) (ord := k) (imm := 0x303))) (st t0) t0) = true ∧
    acts (.pf (e (a := 6))) (st t0) t0 = true ∧ acts (.pf (e (a := 4))) (st t0) t0 = true ∧
    acts (.pres (b 2 4 0x70)) (st t0) t0 = true ∧ base.teamOf t0 = some team0 ∧
    (base.memAddr (.base 0x5E (b 2 4 0x70)) t0 1 1).toOption = some 12 ∧
    acts (.pres (b 2 4 0x72)) (st { t0 with v := writeRegs t0.v 4 [0] }) { t0 with v := writeRegs t0.v 4 [0] } = true ∧
    (base.memAddr (.base 0x5E (b 2 4 0x72)) { t0 with v := writeRegs t0.v 4 [0] } 1 1).toOption = none ∧
    (let t := { t0 with fences := [fenceOf 0x7F] }
     t.pend.length < 8 ∧ (∃ f ∈ t.fences, f.successors &&& 1 ≠ 0) ∧
     ([.ret (b), .ld (b 8 6 0x70), .tackLd (b 8 6 0x70), .join (b 8 4 0x70), .tbWait (e (a := 4) (sub := 3) (bb := 5)),
       .call (e (imm := 4)), .st (b 8 6 0x70), .atom (e 12 6 0 4 (fmt := 1) (scope := 2)), .tbArr (e (sub := 1) (a := 4)),
       .dcopy (e (a := 4)), .pstep (b (a := 4)), .mzero (e), .mma (e (d := 16) (bb := 5)), .qpost (e (d := 1) (a := 4) (bb := 8)),
       .qsig (e 0 6 0 0x71 (fmt := 3))] : List Instr).all (fun i => acts i (st t) t && (classRule i).isSome) = true) := by decide +kernel

/-- The load of a tack instruction can go. -/
def tackGoes (s : State) (t : Thread) : Bool :=
  let c : Code := .base 0x63 (b 8 6 0x70)
  alone s c t && decide (t.pend.length < 8) && !t.fenced 1 && decide (s.gangOf t = some gang0) &&
    (match s.memAddr c t 0 (Ty.bytes c.ty) with
    | .ok ea => canAccess s.openPort c t gang0
        { space := 0, ea := ea, size := Ty.bytes c.ty, op := .load, result := some c.ty, tack := true, classes := 1 }
    | .error _ => false)
theorem witness_TackInstructionsComplete :
    tackGoes (st t0) t0 = true ∧ tackOpenBit t0.tackst = false ∧
    (let t := { t0 with tackst := 1 }
     tackGoes (st t) t = true ∧ tackOpenBit t.tackst = true ∧ tackOut t.tackst < 8 ∧
     acts (.tackOpen (b)) (st t) t = true ∧ acts (.tackDrop (b)) (st t) t = true ∧
     acts (.tackChk (e (imm := 4))) (st t) t = true ∧ tackOut t.tackst = 0 ∧ t.allReturned = true) ∧
    (let t := { t0 with tackst := 0x81 }
     tackGoes (st t) t = true ∧ tackOut t.tackst = 8 ∧ acts (.tackChk (e (imm := 4))) (st t) t = true) ∧
    acts (.tackOpen (b)) (st t0) t0 = true ∧ acts (.tackDrop (b)) (st t0) t0 = true ∧
    (let t := { t0 with tackst := 5 }
     acts (.tackChk (e (imm := 4))) (st t) t = true ∧ t.tackst.getLsbD 2 = true) := by decide +kernel

/-- A piece of one sector from gl 0x10000 to scratch offset 0x80, and a piece of the window, at scratch offset 16. -/
def pieceBytes (kind : Byte) : List Byte :=
  bytesOfNat 8 0x10000 ++ bytesOfNat 8 0x80 ++ bytesOfNat 8 0 ++ bytesOfNat 4 32 ++ bytesOfNat 4 1 ++ bytesOfNat 4 1
    ++ bytesOfNat 16 0 ++ bytesOfNat 4 0xFFFFFFFF ++ bytesOfNat 4 32 ++ [0, kind, 0, 0]
def t64 : Thread := { t0 with v := writeRegs t0.v 4 [64] }
def withPiece (kind : Byte) : State := (st t64).winWrite (hsAddr team0 64) (pieceBytes kind)

theorem witness_DynamicCopyCompletes :
    let s := withPiece 4
    let p := pieceOf (s.winRead (hsAddr team0 64) 64)
    let n := (s.activity 0 3 1).newCopy t64.ref.teamRef p (some t64.ref) t64.lineage t64.pc 0 0 true
    acts (.dcopy (e (a := 4))) s t64 = true ∧ s.gangOf t64 = some gang0 ∧ s.teamOf t64 = some team0 ∧
    (s.memAddr (.ext 0x60 (e (a := 4))) t64 1 64).toOption = some 64 ∧ s.winPoisoned (hsAddr team0 64) 64 = none ∧
    p.window = false ∧ p.wideAddress = none ∧ p.valid team0.hsSize true = true ∧ t64.fenced 12 = false ∧
    ((s.activity 0 3 1).heldCopies gang0.hub = []) ∧ t64.storing = false ∧ (s.hub gang0.hub).copies.length < 64 ∧
    n.2.canRegister gang0.hub n.1 = true ∧
    (let t := { t64 with out := [{ tok := 3, classes := classHs ||| 2 }] }
     acts (.dcopy (e (a := 4))) (s.setThread t) t = true ∧ t.storing = true) ∧
    (pieceOf ((withPiece 8).winRead (hsAddr team0 64) 64)).window = true ∧ acts (.dcopy (e (a := 4))) (withPiece 8) t64 = true ∧
    ((withPiece 8).context 0).priv = false := by decide +kernel

theorem witness_PatternStepCompletes :
    let s := withKernel (fun k => { k with pieces := [pieceOf (pieceBytes 4)] }) (st t0)
    acts (.pstep (b (a := 4))) s t0 = true ∧ s.teamOf t0 = some team0 ∧ team0.level < 12 ∧
    ((s.kernel? 0).map (·.pieces.length)) = some 1 ∧ t0.fenced 12 = false ∧
    acts (.pstep (b (a := 0x70))) s t0 = true ∧ acts (.pstep (b (a := 4))) (st t0) t0 = true ∧
    (((st t0).kernel? 0).map (·.pieces)) = some [] := by decide +kernel

def outRead : Thread := { t0 with out := [{ tok := 3, classes := 1 }] }
theorem witness_CollectivesComplete :
    ([.gsync (b), .barArr (e (imm := 1)), .barSync (e (sub := 2) (imm := 1)), .tbArr (e (sub := 1) (a := 5)), .gridsync (b)] :
      List Instr).all (fun i => collective i && acts i (st t0) t0 && acts i (st outRead) outRead) = true ∧
    tackOpenBit outRead.tackst = false ∧ outRead.outstanding = true ∧ t0.outstanding = false ∧
    tackOpenBit t0.tackst = false ∧ base.gangOf t0 = some gang0 ∧ base.teamOf t0 = some team0 ∧ (st t0).det 0 = false ∧
    (withLaunch (fun l => { l with det := true }) (st t0)).det 0 = true ∧
    acts (.gridsync (b)) (withLaunch (fun l => { l with det := true }) (st t0)) t0 = true := by decide +kernel

theorem witness_TeamBarriers :
    acts (.barArr (e (a := 0x71) (imm := 15))) (st t0) t0 = true ∧ wrongArrival t0 .idle 15 1 = false ∧
    acts (.barSync (e (a := 0x70) (sub := 2) (imm := 15))) (st t0) t0 = true ∧ wrongArrival t0 .idle 15 0 = false ∧
    wrongArrival t0 .idle 15 8192 = false ∧ wrongArrival t0 .idle 15 8193 = true ∧
    acts (.barArr (e (a := 0x72) (imm := 15))) (st t0) t0 = true ∧ acts (.barWait (e (sub := 1) (imm := 15))) (st t0) t0 = true ∧
    team0.bars.toArray.getD 15 .idle = .idle ∧ base.team? team0.ref = some team0 ∧
    (let x := { team0 with bars := team0.bars.setIfInBounds 15 { TeamBarrier.idle with mode := .counted, expect := 2, arrived := 2 } }
     (withTeam (fun _ => x) base).team? x.ref = some x) ∧
    (let x := { team0 with bars := team0.bars.setIfInBounds 0 { TeamBarrier.idle with mode := .all } }
     (withTeam (fun _ => x) base).team? x.ref = some x) := by decide +kernel

theorem witness_ArrivalsComplete :
    ([.barArr (e (a := 0x71) (imm := 15)), .barSync (e (a := 0x70) (sub := 2) (imm := 15))] : List Instr).all (fun i =>
      acts i (st t0) t0 && i.wellFormed) = true ∧ (st t0).gangOf t0 = some gang0 ∧ (st t0).teamOf t0 = some team0 ∧
    (st t0).team? team0.ref = some team0 ∧ t0.outstanding = false ∧ wrongArrival t0 .idle 15 0 = false ∧
    wrongArrival t0 .idle 15 1 = false ∧ (base.lane (.ext 0x69 (e (a := 0x71) (imm := 15))) t0).word 0x71 = 1 := by decide +kernel

/-- A thread with a window open and an access not performed waits too, with and without an arrival of its own. -/
theorem witness_BarrierWaitCompletes :
    let t := { outRead with tackst := 1, arr := 0x8000 }
    (Instr.barWait (e (sub := 1) (imm := 15))).wellFormed = true ∧ acts (.barWait (e (sub := 1) (imm := 15))) (st t) t = true ∧
    (st t).teamOf t = some team0 ∧ t.arr.getLsbD 15 = true ∧ t0.arr.getLsbD 15 = false ∧
    acts (.barWait (e (sub := 1) (imm := 15))) (st t0) t0 = true := by decide +kernel

/-- A state whose thread has a scratch address in v4 and a count in v5, with a barrier of count 1 there. -/
def withBarrier (b : TransBarrier) : State := (st t64).winWrite (hsAddr team0 64) (bytesOfNat 16 b.toNat)
def oneMore : TransBarrier := { reserved := 0, psect := 0, expa := 1, parr := 1, phase := 3 }
/-- The thread with a scratchpad write on its way. -/
def storing64 : Thread := { t64 with out := [{ tok := 3, classes := classHs ||| 2 }] }
theorem witness_TransactionBarriers :
    let s := withBarrier oneMore
    let i := fun (k : BitVec 6) (bb : BitVec 8) => e (a := 4) (sub := k) (bb := bb)
    s.transBarrier team0 64 = oneMore ∧ s.teamOf t64 = some team0 ∧ s.gangOf t64 = some gang0 ∧ t64.fenced 3 = false ∧
    ([.tbInit (i 0 5), .tbArr (i 1 0), .tbExp (i 2 5), .tbWait (i 3 5), .tbTest { i 4 5 with d := 2 }] : List Instr).all
      (fun j => acts j s t64 && (match j.code with
        | some c => decide ((s.tbAddress c t64).toOption = some 64)
        | none => false)) = true ∧
    t64.storing = false ∧ storing64.storing = true ∧ tackOpenBit storing64.tackst = false ∧
    (let s := s.setThread storing64
     ([.tbWait (i 3 5), .tbTest { i 4 5 with d := 2 }] : List Instr).all fun j => acts j s storing64 && storing64.fences.isEmpty) = true ∧
    ([0, 1, 2].all fun k => canAccess s.openPort (.ext 0x6A (i (BitVec.ofNat 6 k) 5)) t64 gang0
      { space := 1, ea := 64, size := 16, op := .trans k 7, classes := 3 }) = true ∧ tackOpenBit t64.tackst = false ∧
    t64.outstanding = false ∧ (oneMore.apply 1 0).isSome = true ∧ (({ oneMore with parr := 0 } : TransBarrier).apply 1 0) = none ∧
    ((withBarrier { oneMore with reserved := 1 }).openPort.transBarrier team0 64).reserved ≠ 0 ∧
    (s.openPort.transBarrier team0 64).reserved = 0 ∧
    (s.openPort.tbAddress (.ext 0x6A (e (a := 5) (sub := 3))) t64).toOption = none ∧
    ([0, 1, 2].all fun k => (({ oneMore with reserved := 1, parr := 0 } : TransBarrier).apply k (if k == 0 then 0 else 1)).isNone) = true ∧
    Memory.wf s.m.win = true ∧ oneMore.land.isSome = true := by decide +kernel

theorem witness_TransactionBarrierPerformed :
    let s := withBarrier oneMore
    let a := { scratchAccess (.trans 1 0) with size := 16, pa := hsAddr team0 64 }
    a.op = .trans 1 0 ∧ Memory.wf s.m.win = true ∧
    ((TransBarrier.ofNat (natOfBytes (s.winRead a.pa a.size))).apply 1 0).isSome = true ∧
    (let s := withBarrier { oneMore with parr := 0 }
     s.keptBack a = false ∧ ((TransBarrier.ofNat (natOfBytes (s.winRead a.pa a.size))).apply 1 0) = none ∧
     (s.team? a.thread.teamRef).isSome = true) := by decide +kernel

theorem witness_ThreadEnd :
    let t := { t0 with pend := [waits] }
    let u := { t0 with pend := [returned] }
    acts (.exit (b)) (st outRead) outRead = true ∧ outRead.outstanding = true ∧ acts (.exit (b)) (st u) u = true ∧
    u.allReturned = true ∧ u.outstanding = false ∧ acts (.exit (b)) (st t) t = true ∧ t.allReturned = false ∧
    t.outstanding = false ∧ tackOpenBit t.tackst = false ∧ acts (.sysTkill (b (a := 2))) (st t0) t0 = true ∧ t0.joins = none ∧
    u.joins = none ∧ acts (.exitExt (e)) (st { u with tackst := 1 }) { u with tackst := 1 } = true ∧
    acts (.sysTkillExt (e (a := 2))) (st t0) t0 = true ∧
    ([t0, outRead, t, u].all fun x => x.joins.isNone && decide (x.ref.lane < 32)) = true ∧ Memory.wf base.m.win = true ∧ placed gang0 = true ∧
    base.gangOf t0 = some gang0 ∧
    (let t := { t0 with joins := some 64 }
     acts (.exit (b)) (st t) t = true ∧ t.outstanding = false ∧ t.allReturned = true ∧ (st t).teamOf t = some team0 ∧
     natOfBytes ((st t).winRead (hsAddr team0 64) 8) % 2 ^ 32 = 0 ∧ acts (.sysTkill (b (a := 2))) (st t) t = true) ∧
    joinEnd 0 false = none ∧ joinEnd 1 true = some (2 ^ 32) ∧ joinEnd (2 ^ 64 - 1) true = some (2 ^ 64 - 2) := by decide +kernel

theorem witness_SpawnAndJoin :
    acts (.join (b 8 4 0x70)) (st t64) t64 = true ∧ t64.pend.length < 8 ∧ t64.fenced 1 = false ∧
    ((st t64).memAddr (.base 0x6B (b 8 4 0x70)) t64 1 8).toOption = some 64 ∧
    t64.storing = false ∧ storing64.storing = true ∧ acts (.join (b 8 4 0x70)) (st storing64) storing64 = true ∧
    storing64.pend.length < 8 ∧ storing64.fenced 1 = false ∧ tackOpenBit t64.tackst = false ∧
    (st t64).teamOf t64 = some team0 ∧ spawnCount (st t64) (.ext 0x6D (e (a := 4) (bb := 0x72) (imm := 16))) t64 gang0 = some none ∧
    spawnCount (st t64) (.ext 0x6D (e (a := 4) (bb := 4) (imm := 16))) t64 gang0 = some (some 64) ∧
    acts (.spawn (e (a := 4) (bb := 4) (imm := 16))) (st t64) t64 = true ∧ t64.outstanding = false ∧ storing64.outstanding = true ∧
    acts (.spawn (e (a := 4) (bb := 4) (imm := 16))) (st storing64) storing64 = true ∧
    acts (.spawn (e (a := 4) (bb := 0x72) (imm := 16))) (st storing64) storing64 = true ∧
    natOfBytes ((st t64).winRead (hsAddr team0 64) 4) ≠ 0xFFFFFFFF ∧
    natOfBytes (((st t64).winWrite (hsAddr team0 64) (bytesOfNat 4 0xFFFFFFFF)).winRead (hsAddr team0 64) 4) = 0xFFFFFFFF ∧
    acts (.spawn (e (a := 4) (bb := 0x72) (imm := 16))) (st t64) t64 = true ∧ (st t64).pop 0 = false ∧
    ((st t64).lane (.ext 0x6D (e (a := 4) (bb := 0x72) (imm := 16))) t64).word 0x72 = 0xFFFFFFFF ∧ t64.fenced 3 = false ∧
    ((st t64).hub 0).binFor t64.ref.teamRef gang0.role 0x10040 = some 0 ∧
    (withLaunch (fun l => { l with pop := true }) (st t64)).pop 0 = true ∧
    acts (.spawn (e (a := 4) (bb := 0x72) (imm := 16))) (withLaunch (fun l => { l with pop := true }) (st t64)) t64 = true ∧
    (let full : List Bin := (List.range 16).map fun n =>
       { num := n, team := { kid := 9, team := 9 }, role := 0, entry := 0, threads := [], since := 0, expired := false }
     let s := (st t64).updHub 0 fun h => { h with bins := full }
     acts (.spawn (e (a := 4) (bb := 0x72) (imm := 16))) s t64 = true ∧
     (s.hub 0).binFor t64.ref.teamRef gang0.role 0x10040 = none) := by decide +kernel

theorem witness_ExtendedBlocksAndResampling :
    let budget := withTeam (fun x => { x with budgets := [{ core := 0, quarter := 0, role := 0, blocks := 2 }] }) (st t0)
    acts (.xacq (b (a := 0x71))) budget t0 = true ∧ budget.gangOf t0 = some gang0 ∧ gang0.ref = t0.ref.gangRef ∧ gang0.blocks = [] ∧
    gang0.xacq = none ∧ budget.budget gang0 = 2 ∧ acts (.xacq (b (a := 0x71))) (st t0) t0 = true ∧ (st t0).budget gang0 < 1 ∧
    acts (.xacq (b (a := 0x70))) budget t0 = true ∧ acts (.xrel (b)) (st t0) t0 = true ∧
    (let s := withGang (fun g => { g with blocks := [0] }) (st t0)
     acts (.xrel (b)) s t0 = true ∧ acts (.xacq (b (a := 0x71))) budget t0 = true ∧
     (s.gangOf t0).map (·.blocks) = some [0]) ∧
    (let s := withLaunch (fun l => { l with pop := true }) (st t0)
     acts (.rsmp (e 5 4 0 0x71 0x74)) s t0 = true ∧ s.pop 0 = true ∧ (s.kernel? 0).map (·.group.length) = some 0 ∧ t0.nest = 0) ∧
    acts (.rsmp (e 5 4 0 0x71 0x74)) (st t0) t0 = true ∧ (st t0).pop 0 = false ∧ t0.outstanding = false ∧
    ((st t0).kernel? 0).isSome = true := by decide +kernel

/-- A team of one accumulator whose buckle 2 is declared for rank 0 alone, and the format word of FP16 by FP16 in v5. -/
def matrixTeam (x : Team) : Team :=
  { x with acc := [0], buckles := x.buckles.setIfInBounds 2 { Buckle.fresh with st := .declared, count := 1, first := 0 } }
def tm : Thread := { t0 with v := writeRegs t0.v 5 [0x11, 0x30] }
def matrixState : State := withTeam matrixTeam (st tm)
def mmaTerm (z bk : Nat) (bb : BitVec 8 := 5) : Ext := e (d := 16) (bb := bb) (imm := BitVec.ofNat 32 (256 * z + bk))
/-- g4:g5 and g6:g7 describe tiles at scratch offset 0. -/
def descs (s : State) : State := withGang (fun g => g.setRegs 4 [0x02000000, 0, 0x02000000, 0]) s

theorem witness_BuckleDeclarationCompletes :
    let s := withTeam matrixTeam (st t0)
    acts (.bkdecl (e (a := 0x71) (bb := 0x70) (imm := 3))) s t0 = true ∧ ((s.launch? 0).map (·.gangs)) = some 1 ∧
    acts (.bkdecl (e (a := 0x70) (imm := 3))) s t0 = true ∧ (s.teamOf t0).isSome = true := by decide +kernel

theorem witness_MatrixSignatureCompletes :
    let x := matrixTeam team0
    let s := matrixState
    acts (.mma (mmaTerm 0 2)) s tm = true ∧ s.gangOf tm = some gang0 ∧ s.teamOf tm = some x ∧ tm.sfenceWait = none ∧
    tm.fenced 48 = false ∧ x.acc.length = 1 ∧ acts (.mma (mmaTerm 1 2)) s tm = true ∧ acts (.mma (mmaTerm 0 3)) s tm = true ∧
    (x.buckle 3).st = .undeclared ∧ (x.buckle 2).st = .declared ∧ (x.buckle 2).first = 0 ∧ (x.buckle 2).count = 1 ∧
    (x.buckle 2).signed = [] ∧ (s.lane (.ext 0x75 (mmaTerm 0 2)) tm).word 5 = 0x11 ∧ formatValid 0x11 = true ∧
    formatValid 0x30 = false ∧ (s.lane (.ext 0x75 (mmaTerm 0 2 6)) tm).word 6 = 0x30 ∧
    acts (.mma (mmaTerm 0 2 6)) s tm = true ∧ (FormatWord.ofWord 0x11).afmt = 1 ∧ (s.hub 0).reservations.length < 32 ∧
    badOperand (gang0.operandDesc false 16) (gang0.operandDesc false 0) 0x11 1 x.hsSize = none := by decide +kernel

/-- The rank below and the rank after a buckle's range. -/
theorem witness_MatrixSignatureRange :
    let x := { matrixTeam team0 with buckles := team0.buckles.setIfInBounds 2 { Buckle.fresh with st := .declared, count := 2, first := 1 } }
    let s := withTeam (fun _ => x) (st tm)
    acts (.mma (mmaTerm 0 2)) s tm = true ∧ (x.buckle 2).first = 1 ∧ tm.ref.gang * 32 + tm.ref.lane = 0 ∧ s.teamOf tm = some x := by
  decide +kernel

/-- Each operation of the engine can be posted, and an accumulator beyond the team's is one. -/
theorem witness_EngineInstructionsComplete :
    let s := descs matrixState
    let g := (s.gangOf tm).getD gang0
    ([.mzero (e), .mld (e (a := 0x84)), .mldRegs (e (a := 16) (sub := 1)), .mst (e (a := 0x86)), .mstRegs (e (d := 16) (sub := 1)),
      .mcvt (e (a := 0x84) (fmt := 9)), .qblk (e (a := 0x84) (bb := 0x70) (fmt := 9))] : List Instr).all (fun i =>
        acts i s tm && (match i.code, engineRule i with
        | some c, some op => (s.engineFault c op tm g (matrixTeam team0) (s.engineEntry c op tm g [tm] s.m.nextId)).isNone
        | _, _ => false)) = true ∧
    s.gangOf tm = some g ∧ s.teamOf tm = some (matrixTeam team0) ∧ (s.hub g.hub).entry? s.m.nextId = none ∧
    (s.hub g.hub).reservations.length < 32 ∧ tm.fenced 48 = false ∧ tm.pend.length < 8 ∧
    acts (.mzero (e (imm := 0x100))) s tm = true ∧ (matrixTeam team0).acc.length ≤ 1 := by decide +kernel

/-- A ring of four slots at 0x10000 that takes posts. -/
def ring (st : QueueState) (head tail : Nat) (s : State) : State :=
  s.updQueue 5 fun q => { q with st := st, ringbase := 0x10000, ringlog2 := 2, devpost := true, head := head, tail := tail }
def postTerm : Ext := e (d := 1) (a := 4) (bb := 8)
theorem witness_QueuePostCompletes :
    let t := { t64 with v := writeRegs t64.v 8 [5] }
    let s := ring .active 0 1 (st t)
    acts (.qpost postTerm) s t = true ∧ s.teamOf t = some team0 ∧ t.fenced 64 = false ∧
    (s.memAddr (.ext 0x7B postTerm) t 1 64).toOption = some 64 ∧ s.winPoisoned (hsAddr team0 64) 64 = none ∧
    (s.lane (.ext 0x7B postTerm) t).word 8 = 5 ∧ (s.queue 5).ctx = s.ctxOf 0 ∧ (s.queue 5).devpost = true ∧
    ((s.queue 5).tail + 1) % 4 ≠ (s.queue 5).head ∧
    acts (.qpost postTerm) (ring .active 0 3 (st t)) t = true ∧ (((ring .active 0 3 (st t)).queue 5).tail + 1) % 4 = 0 ∧
    acts (.qpost postTerm) (ring .error 0 0 (st t)) t = true ∧ acts (.qpost postTerm) (st t) t = true ∧
    ((st t).queue 5).devpost = false ∧ t.storing = false ∧
    (let u := { t with out := [{ tok := 3, classes := classHs ||| 2 }] }
     acts (.qpost postTerm) (s.setThread u) u = true ∧ u.storing = true ∧ u.fenced 64 = false) := by decide +kernel

theorem witness_MarkCompletes : acts (.mark (b (a := 4))) (st t0) t0 = true ∧ acts (.markExt (e (a := 4))) (st t0) t0 = true := by
  decide +kernel

/-- A context with a handler. -/
def withHandler (s : State) : State := withContext (fun x => { x with hen := true, handler := 0x10800 }) s
theorem witness_TrapEntry :
    (withHandler (st t0)).thread? t0.ref = some t0 ∧ ((withHandler (st t0)).context ((withHandler (st t0)).ctxOf 0)).hen = true ∧
    t0.allReturned = true ∧ t0.nest < 3 ∧ ({ t0 with pend := [waits] } : Thread).allReturned = false := by decide +kernel
theorem witness_FatalCauseEndsTeam :
    (st t0).thread? t0.ref = some t0 ∧ ((st t0).kernel? t0.ref.kid).isSome = true ∧ Cause.handled 0x0E = false ∧
    ((st t0).context ((st t0).ctxOf 0)).hen = false ∧ ({ t0 with nest := 3 } : Thread).allReturned = true ∧
    (st { t0 with nest := 3 }).thread? t0.ref = some { t0 with nest := 3 } := by decide +kernel

/-! ### Events -/

/-- The operands of the event that acts. -/
def ev (x : Event) (s : State) : State := s.modify fun m => { m with ev := x }
def item (port kind : Nat) (desc : Dword) (payload : List Byte) : Arrival := { port := port, kind := kind, desc := desc, payload := payload }

/-- A stamp log of two slots whose first record is of cycle 0. -/
theorem witness_StampLogEvents :
    base.injectDue base.slog.head = false ∧
    (let s := { base with slog := { base.slog with mode := 2, size := 192, tail := 1 } }
     s.slog.mode = 2 ∧ s.slog.head ≠ s.slog.tail ∧ (s.loggedItem s.slog.head).2.2 ≤ s.m.cycle) := by decide +kernel

/-- The header of an image of empty sections stands at IMGBASE: fuse words w, MEMIMG as mi. -/
def imageHeader (w : Nat) (mi : Bool) : List Byte :=
  bytesOfNat 4 0x49524C42 ++ bytesOfNat 4 1 ++ bytesOfNat 8 9 ++ (List.range 8).flatMap (fun _ => bytesOfNat 8 w)
    ++ bytesOfNat 4 0 ++ bytesOfNat 4 (if mi then 26 else 10) ++ [if mi then 1 else 0]
def heldImage (mi : Bool) : Image :=
  { base := 0, module := base.m, held := [], memory := if mi then some [] else none, poison := [] }
def imageState (frzst w : Nat) (mi : Bool) : State :=
  { base with mem := Memory.writeBytes base.mem 0x40000 (imageHeader w mi), images := [heldImage mi]
              mgmt := { base.mgmt with frzst := frzst, imgbase := 0x40000 } }

/-- Every section is empty. -/
def emptySections : Prop := ∀ k, Config.sectionSize k = 0
theorem image_imageState (h : emptySections) (frzst w : Nat) (mi : Bool)
    (hm : (imageState frzst w mi).imageMemimg = mi)
    (hs : (imageState frzst w mi).sectionsThere = List.replicate (imageSections mi) []) :
    (imageState frzst w mi).image? = some (heldImage mi) := by
  have h1 : ∀ k, (heldImage mi).section_ k = [] := fun k => by simp [Image.section_, h k]
  have h2 : ((heldImage mi).memory.isSome) = mi := by cases mi <;> rfl
  unfold State.image?
  rw [hm, hs, show (imageState frzst w mi).images = [heldImage mi] from rfl]
  have h3 : List.map (heldImage mi).section_ (List.range (imageSections mi)) = List.replicate (imageSections mi) [] := by
    rw [funext h1, List.map_const', List.length_range]
  simp [List.find?, h2, h3]

/-- The hubs that the best map of each bin enables: the upper ones. -/
def fuses : Prop := ∀ d i, Config.fuse d i = 0
def fuseValue : Nat := if Config.x7 then 2 ^ 34 - 2 ^ 6 else 2 ^ 34 - 4
theorem dieHubs_fuses (h : fuses) (d : Nat) : ((dieHubs d).map (2 ^ ·)).sum = fuseValue := by
  unfold dieHubs fuseValue hubsPerDie
  simp only [h d]
  cases Config.x7 <;> decide +kernel

/-- Each state of FRZST; an image at IMGBASE whose header holds, with the module's fuses and with others, with and without
HBM4, and none. -/
theorem witness_FreezeEvents (he : emptySections) (h : fuses) :
    let mg := fun (k : Nat) => ({ base with mgmt := { base.mgmt with frzst := k } } : State)
    (mg 0).mgmt.frzst ≠ 1 ∧ (mg 1).mgmt.frzst = 1 ∧ (mg 2).mgmt.frzst = 2 ∧ (mg 3).mgmt.frzst = 3 ∧ (mg 1).kernelRuns = true ∧
    (withKernel (fun k => { k with st := .done }) (mg 1)).kernelRuns = false ∧
    (imageState 1 0 false).imageField 0 4 = 0x49524C42 ∧ (imageState 1 0 false).imageField 4 4 = 1 ∧
    (imageState 1 0 false).imageField 16 8 ≠ ((dieHubs 0).map (2 ^ ·)).sum ∧
    (imageState 1 0 false).image? = some (heldImage false) ∧ (imageState 3 0 true).image? = some (heldImage true) ∧
    ((List.range ((imageState 1 0 false).imageField 0x54 4)).all fun k => (imageState 1 0 false).imageField (0x70 + 32 * k) 8
      == (wordSum ((imageState 1 0 false).imageSection k)).toNat) = true ∧
    (imageState 3 0 false).image? = some (heldImage false) ∧ (imageState 3 0 false).imageField 0x58 1 % 2 ≠ 1 ∧
    (imageState 3 0 true).imageField 0x58 1 % 2 = 1 ∧ (imageState 1 0 false).imageField 0x58 1 % 2 = 0 ∧
    (imageState 1 fuseValue false).image? = some (heldImage false) ∧
    ∀ d < 8, (imageState 1 fuseValue false).imageField (16 + 8 * d) 8 = ((dieHubs d).map (2 ^ ·)).sum := by
  refine ⟨by decide +kernel, by decide +kernel, by decide +kernel, by decide +kernel, by decide +kernel, by decide +kernel,
    by decide +kernel, by decide +kernel, ?_, image_imageState he _ _ _ (by decide +kernel) (by decide +kernel),
    image_imageState he _ _ _ (by decide +kernel) (by decide +kernel), by decide +kernel,
    image_imageState he _ _ _ (by decide +kernel) (by decide +kernel), by decide +kernel, by decide +kernel, by decide +kernel,
    ?_, fun d hd => ?_⟩
  · rw [dieHubs_fuses h]; unfold fuseValue; cases Config.x7 <;> decide +kernel
  · unfold fuseValue
    cases Config.x7 <;> exact image_imageState he _ _ _ (by decide +kernel) (by decide +kernel)
  · rw [dieHubs_fuses h]
    unfold fuseValue
    have h8 : ((List.range 8).all fun d => (imageState 1 (2 ^ 34 - 2 ^ 6) false).imageField (16 + 8 * d) 8 == 2 ^ 34 - 2 ^ 6
      && (imageState 1 (2 ^ 34 - 4) false).imageField (16 + 8 * d) 8 == 2 ^ 34 - 4) = true := by decide +kernel
    have := (List.all_eq_true.mp h8) d (by simpa using hd)
    simp only [Bool.and_eq_true, beq_iff_eq] at this
    cases Config.x7
    · exact this.2
    · exact this.1

/-- A port that holds what no request needed, one that sends, and one with 255 retries. -/
def heldItem : Arrival := item 3 0 0 [1]
def linkState (f : LinkPort → LinkPort) : State :=
  ev { port := 3 } (base.modify fun m => { m with links := m.links.map fun l => if l.num == 3 then f l else l })
theorem witness_LinkEvents :
    unowned heldItem ∧ base.slog.mode ≠ 2 ∧ ({ base.slog with mode := 2 } : StampLog).mode = 2 ∧
    ((linkState fun l => { l with held := [heldItem] }).link? 3).map (·.held) = some [heldItem] ∧
    ((linkState fun l => { l with st := 2 }).link? 3).map (·.sends) = some true ∧
    ((linkState fun l => { l with st := 2, paused := true }).link? 3).map (·.sends) = some false ∧
    ((linkState fun l => { l with st := 2, retries := List.replicate 255 0 }).link? 3).map (fun l => (l.st, l.retries.length)) =
      some (2, 255) ∧ (base.link? 3).map (·.retries.length) = some 0 := by
  refine ⟨rfl, ?_⟩; decide +kernel

/-- The bytes of page 0 of context 0 stand in this module, however the host's map answers elsewhere. -/
def pageHere (ctx page a : Nat) : Prop := ∀ n, Config.unitMap ctx page n = some (0, a)

def ethState : State :=
  base.modify fun m => { m with eth := m.eth.map fun e => { e with rxlog2 := 2, txlog2 := 2 } }
/-- A frame with a bad FCS, one that fits, a port that has a frame due, and one that has none. -/
theorem witness_EthernetEvents (h : pageHere 0 0 0) :
    base.frameDropped (item 37 5 1 [0]) = true ∧ ethState.frameDropped (item 37 5 0 [0]) = false ∧
    (let f := { EthPort.fresh 37 with sendAt := some 0 }
     base.frameDue (EthPort.fresh 37) = false ∧
     (base.modify fun m => { m with links := m.links.map fun l => { l with st := 2 } }).frameDue f = true) ∧
    (base.m.eth.find? (·.num == 37)).isSome = true := by
  refine ⟨by decide +kernel, ?_, by decide +kernel, by decide +kernel⟩
  have h1 : ethState.unitPages 0 0 9 = _ := State.unitPages_here (a := 0) (by decide) (by decide) (h _)
  have h2 : ethState.m.eth.find? (·.num == 37) = some { EthPort.fresh 37 with rxlog2 := 2, txlog2 := 2 } := by decide +kernel
  unfold State.frameDropped
  simp only [item, h2]
  show (_ || (_ || (match (ethState.unitPages 0 0 9).1 with
      | .error _ => true
      | .ok _ => false))) = false
  rw [h1]
  decide

theorem witness_AlignmentEvents :
    base.m.refmod = base.modnum ∧
    (let s := { base with m := { base.m with refmod := 1, alignSent := some 5 }, routes := [(1, 19)] }
     s.m.refmod ≠ s.modnum ∧ s.route s.m.refmod ≠ 0 ∧ s.m.alignSent = some 5 ∧
     (ev { item := item 19 8 1 [] } s).route (fabricSource (ev { item := item 19 8 1 [] } s).m.ev.item) ≠ 0) ∧
    base.m.alignSent = none := by decide +kernel

/-- Addresses of this module, of module 5, in BAR0, in BAR2, in no window, and of the DDR-5 tier; operations of 8 and of 4
bytes, and one of 16; a read that crosses a line; a write inside a sector; an access of the stamp log registers. -/
theorem witness_HostItems :
    let s := base.modify fun m => { m with bar0 := 0x1000000000000000, bar2 := 0x2000000000000000 }
    let read := item 0 0x10 0x10000000 [128, 0, 9, 0]
    let cross := item 0 0x10 0x10000040 [128, 0, 9, 0]
    let add := item 0 0x11 0x10000008 ([8, 0, 9, 0, 0, 1, 0, 0] ++ bytesOfNat 8 5)
    let cas := item 0 0x11 0x1000000C ([4, 0, 9, 0, 0, 3, 0, 0] ++ bytesOfNat 4 5 ++ bytesOfNat 4 6)
    let m5 := 2 ^ 51 + 5 * 2 ^ 40
    let out := 3 * 2 ^ 60
    ([0x10000000, m5, out, 2 ^ 40].all fun a => !inWindow s.m.bar0 65536 a && !inWindow s.m.bar2 (2 ^ 22) a) = true ∧
    (s.busPa? 0x10000000).map s.classifyPa = some (.here, 0x10000000) ∧ requestLength read = 128 ∧
    (s.busPa? (2 ^ 40)).map s.classifyPa = some (.here, 2 ^ 40) ∧ (s.busPa? m5).map s.classifyPa = some (.module 5, 0) ∧
    s.busPa? out = none ∧ (s.busPa? (2 ^ 50)).map s.classifyPa = some (.host, 2 ^ 50) ∧ 0x10000000 % 128 + 128 ≤ 128 ∧
    ¬ cross.desc.toNat % 128 + requestLength cross ≤ 128 ∧ requestLength add = 8 ∧ add.desc.toNat % 8 = 0 ∧
    requestAtomic add = 1 ∧ requestLength cas = 4 ∧ cas.desc.toNat % 4 = 0 ∧ requestAtomic cas = 3 ∧
    requestLength (item 0 0x10 0x10000000 [0, 16]) = 4096 ∧ requestLength (item 0 0x10 0x10000000 [1, 16]) = 4097 ∧
    requestLength (item 0 0x10 0x10000000 [0, 2]) = 512 ∧
    ([0, 4].all fun k => requestAtomic (item 0 0x11 0x10000008 [8, 0, 9, 0, 0, k, 0, 0]) == k.toNat) = true ∧
    requestLength (item 0 0x11 0x10000000 [16, 0]) = 16 ∧ 0x1000000A % 8 ≠ 0 ∧ 0x10000008 % 32 + 24 ≤ 32 ∧
    inWindow s.m.bar0 65536 0x1000000000000000 = true ∧ s.slogAccess (item 0 1 0x1000000000000000 [4, 0]) = false ∧
    s.slogAccess (item 0 1 0x1000000000004000 [4, 0]) = true ∧ inWindow s.m.bar0 65536 0x1000000000004000 = true ∧
    inWindow s.m.bar2 (2 ^ 22) 0x2000000000000008 = true ∧ inWindow s.m.bar0 65536 0x2000000000000008 = false := by
  decide +kernel

/-- A request that waits for its answer, its host tag, and a tack entry that waits. -/
def remoteState : State :=
  let r : HomeReq := { id := 1031, link := 0, hub := 0, pa := 0, size := 8, op := .read, back := .none, rmt := false, replica := none }
  base.modify fun m => { m with remote := [r], hostTags := [(7, 1031)] }
theorem witness_AnswersAndFabricPackets :
    remoteState.m.hostTags.find? (fun x => x.1 == 7) = some (7, 1031) ∧
    ((remoteState.hostDone 1031).m.remote.find? (·.id == 1031)).isSome = true ∧
    remoteState.m.hostTags.find? (fun x => x.1 == 8) = none ∧ (remoteState.m.remote.find? (·.id == 1031)).isSome = true ∧
    remoteState.m.remote.find? (·.id == 7) = none ∧
    ([0, 1, 2, 3, 4, 5, 16, 17].all fun k => (item 19 3 (BitVec.ofNat 64 (65536 * k)) []).desc.toNat / 65536 % 65536 == k) = true ∧
    (let x : TackEntry := { thread := ref0, tok := 9, place := .module 5, pa := 0, va := 0, ctx := 0, tag := 0, version := 0,
                            issued := 0, byFill := false }
     let s := base.updHub 0 fun h => { h with cores := h.cores.setIfInBounds 3 { Core.fresh with tacks := [x] } }
     (((s.hub 0).cores.toArray.getD 3 Core.fresh).tacks.map (·.tok)) = [9] ∧ s.m.hubs.length = 1 ∧
     ([0, 1, 2].all fun c => ((s.hub 0).cores.toArray.getD c Core.fresh).tacks.isEmpty) = true) := by decide +kernel

/-- Each plain offset of both spaces at its own address, one of the Ethernet ports, the debug registers and the routing table,
the edges between them, and what only the driver writes. -/
theorem witness_RegisterWrites :
    ((plainBar0 ++ [0x5000, 0x51FC, 0x5200, 0x7000, 0x7FFC, 0x8000, 0x847C, 0x8480, 0x808]).all fun a =>
      let s := ev { addr := BitVec.ofNat 64 a, space := .bar0, x := 5, size := 15 } base
      s.m.ev.addr.toNat == a && !s.m.ev.flag && s.m.ev.space == RegSpace.bar0 && a % 4 == 0) = true ∧
    ((plainManagement ++ [0x00, 0x38]).all fun a =>
      let s := ev { addr := BitVec.ofNat 64 a, space := .management, x := 5, size := 15 } base
      s.m.ev.addr.toNat == a && !s.m.ev.flag && s.m.ev.space == RegSpace.management && a % 4 == 0) = true ∧
    0x5200 ∉ plainBar0 ∧ 0x808 ∉ plainBar0 ∧ 0x38 ∉ plainManagement ∧
    ([0, 2, 4, 5, 6, 7].all fun k => let s := ev { index := k, flag := true } base; s.m.ev.flag && s.m.ev.index == k) = true ∧
    (ev { index := 6, flag := true, item := item 0 0 0 [4, 4] } base).m.ev.item.payload = [4, 4] ∧ layoutGood [4, 4] = true ∧
    layoutGood [4, 5] = false := by decide +kernel

/-- A context descriptor at the table's place of context 3, and the states of a context. -/
def ctxDesc : List Byte := List.replicate 24 0 ++ [12, 0, 0, 0, 0, 0, 0, 0, 0, 1] ++ List.replicate 30 0
theorem witness_ContextCommands :
    let s := { ev { ctx := 3 } base with mem := Memory.writeBytes base.mem (64 * 3) ctxDesc }
    (s.context 3).st = .free ∧ s.m.ev.ctx = 3 ∧ ((List.range 64).all fun k => (s.context k).num == k) = true ∧
    descGood (s.unitBytes (s.m.ctxbase.toNat + 64 * 3) 64) = true ∧
    descGood (base.unitBytes (base.m.ctxbase.toNat + 64 * 3) 64) = false ∧
    (let a := (ev { ctx := 0 } base).updContext 0 fun c => { c with st := .active }
     (a.context 0).st = .active ∧ (a.context 0).savesize.toNat < a.saveBytes 0 ∧ a.m.queues = [] ∧
     a.saveBytes 0 ≤ ((a.updContext 0 fun c => { c with savesize := 2 ^ 40 }).context 0).savesize.toNat ∧
     (a.modify fun m => { m with kernels := [] }).m.kernels = []) ∧
    ([CtxState.saving, .restoring, .draining, .saved].all fun x =>
      ((s.updContext 3 fun c => { c with st := x }).context 3).st == x) = true ∧
    (let d := (ev { ctx := 3, flag := true } base).updContext 3 fun c => { c with st := .draining }
     d.contextDrained (d.context 3) = true) ∧ s.contextDrained (s.context 3) = false ∧
    (∀ q ∈ s.m.queues, q.ctx ≠ 3) ∧ ∀ k ∈ s.m.kernels, k.ctx ≠ 3 := by decide +kernel

theorem witness_PreemptionEvents :
    let s := ev { set := .module, id := 3 } base
    s.thread? ref0 = s.m.threads.head? ∧ s.inSet ref0 s.m.ev.set = true ∧ (s.gangOf t0).isSome = true ∧
    (let f : Flight := { id := 3, due := 0, msg := .preempt 0 0 0 .module .debug }
     (withEvent 3 [f] s).m.flight.find? (·.id == (withEvent 3 [f] s).m.ev.id) = some f) ∧
    s.meetsTeam ref0.teamRef s.m.ev.set = true ∧ s.m.teams.map (·.ref) = [ref0.teamRef] ∧
    base.setContext (.team ref0.teamRef) = some 0 := by decide +kernel

/-- A team that is drained, and one that is saved in a context. -/
def savingState : State :=
  ev { thread := ref0 } (withTeam (fun x => { x with st := .saving }) (st { t0 with halt := some .save }))
def savedTeam : SavedTeam :=
  { at_ := 0, team := { team0 with st := .saved }, gangs := [gang0], threads := [{ t0 with halt := some .save }], reservations := [], copies := [],
    locks := [], absent := [], joins := [], scratch := [], accs := [], frames := [], poison := [], bins := [] }
def restoring : State :=
  (base.modify fun m => { m with threads := [], gangs := [], teams := [] }).updContext 0 fun c =>
    { c with st := .restoring, saved := [savedTeam], pmask := 1 }
theorem restores : (restoring.restoreTeam savedTeam).m.teams.length ≠ restoring.m.teams.length := by
  unfold State.restoreTeam State.partitionHubs enabledHubs hubsPerDie
  generalize Config.x7 = b
  cases b <;> decide +kernel

theorem witness_TeamSaveAndRestore :
    savingState.m.ev.thread.teamRef = ref0.teamRef ∧ (savingState.team? ref0.teamRef).map (savingState.teamDrained ·) = some true ∧
    (savingState.team? ref0.teamRef).map (·.ref) = some ref0.teamRef ∧ savingState.ctxOf 0 = 0 ∧
    (withTeam (fun x => { x with st := .resident }) savingState |>.team? ref0.teamRef).map
      ((withTeam (fun x => { x with st := .resident }) savingState).teamDrained ·) = some false ∧
    (savingState.modify fun m => { m with teams := [] }).team? ref0.teamRef = none ∧
    restoring.nextRestore (restoring.context 0) = some savedTeam ∧ (base.context 0).st ≠ .restoring ∧
    (base.context 0).saved = [] := by
  refine ⟨by decide +kernel, by decide +kernel, by decide +kernel, by decide +kernel, by decide +kernel, by decide +kernel, ?_,
    by decide +kernel, by decide +kernel⟩
  unfold State.nextRestore
  rw [show (restoring.context 0).saved = [savedTeam] by decide +kernel,
    show ((restoring.context 0).st != .restoring) = false by decide +kernel]
  simp only [List.filter, restores, ne_eq, not_false_eq_true, decide_true]
  rfl

def debugState : State :=
  (ev { ctx := 0, thread := ref0, set := .context 0, index := 15 } (st { t0 with halt := some .debug })).updContext 0 fun c =>
    { c with st := .active, dbg := true, session := true }
theorem witness_DebugEvents :
    debugState.inSession 0 = true ∧ ((List.range 64).all fun k => (debugState.context k).num == k) = true ∧
    debugState.setContext debugState.m.ev.set = some 0 ∧ debugState.setContext (.context 1) = some 1 ∧
    debugState.debugThread 0 ref0 = some ({ t0 with halt := some .debug }, some gang0) ∧
    debugState.m.ev.index < 16 ∧ base.inSession 0 = false ∧ (ev { ctx := 0, index := 16 } debugState).m.ev.index = 16 ∧
    (ev { ctx := 0, thread := ref1 } debugState).debugThread 0 ref1 = none ∧ (base.context 0).revoke = false ∧
    ((debugState.updContext 0 fun c => { c with revoke := true }).context 0).revoke = true ∧ (debugState.context 0).edits = [] ∧
    debugState.debugRight 0 = true ∧ ((debugState.updContext 0 fun c => { c with edits := [(ref0, .pc 8)] }).context 0).edits ≠ [] := by decide +kernel

/-- A queue descriptor at the table's place of queue 5: a ring of 16 slots of context 0. -/
def queueDesc : List Byte := List.replicate 8 0 ++ [4, 1, 0, 0] ++ List.replicate 52 0
def queueState : State :=
  let s := (ev { queue := 5 } base).updContext 0 fun c => { c with st := .active }
  { s with mem := Memory.writeBytes s.mem (64 * 5) queueDesc }
theorem witness_QueueCommands :
    let q := fun (x : QueueState) (post : Bool) => queueState.updQueue 5 fun q =>
      { q with st := x, ringlog2 := 4, tail := 3, head := 1, devpost := post }
    (queueState.queue 5).st = .disabled ∧
    queueState.queueDescGood (queueState.homeRead (queueState.m.qtbase.toNat + 64 * 5) 64) = true ∧
    base.queueDescGood (base.homeRead (base.m.qtbase.toNat + 64 * 5) 64) = false ∧
    ([QueueState.idle, .active, .blocked, .error, .resetting].all fun x => ((q x false).queue 5).st == x) = true ∧
    ((q .idle true).queue 5).devpost = true ∧ (ev { queue := 5, flag := true } (q .resetting false)).launchesEnded 5 = true ∧
    (let r := ev { queue := 5, flag := true } (q .resetting false)
     r.resetDone (r.queue 5) = true ∧ r.unitBusy (.queue 5) = false) ∧ (q .active false).launchesEnded 5 = true ∧
    (∀ k ∈ (q .idle false).m.kernels, k.queue ≠ 5) ∧
    ((q .resetting false).context 0).traces = [] ∧ ((q .active false).m.kernels.all fun k => k.queue != 5) = true ∧
    (ev { queue := 5, x := 16 } (q .idle false)).m.ev.x.toNat = 2 ^ 4 ∧ (ev { queue := 5, x := 3 } (q .idle false)).m.ev.x.toNat = 3 ∧
    ((1 : Int) - 3 - 1) % 16 = 13 ∧ ((0 : Int) - 3) % 16 = 13 ∧ ((2 : Int) - 3) % 16 = 15 := by decide +kernel

/-- A queue whose head packet stands in the placed page. -/
def packetState (bs : List Byte) : State :=
  let s := ring .active 0 1 ((ev { queue := 5 } base).updContext 0 fun c => { c with st := .active })
  { s with mem := Memory.writeBytes s.mem 0x10000 bs }
def pad (bs : List Byte) : List Byte := bs ++ List.replicate (64 - bs.length) 0
/-- A packet of each type: NOP, LAUNCH, WAIT, SIGNAL, SNAPSHOT, TRACE_OPEN, TRACE_CLOSE. -/
def packets : List (List Byte) := [pad [0], pad ([1, 0, 0, 0, 0, 0, 0, 0] ++ bytesOfNat 8 0x10400),
  pad ([2, 0, 0, 0, 0, 0, 0, 0] ++ bytesOfNat 8 0x10800), pad ([3, 0, 0, 0, 0, 0, 0, 0] ++ bytesOfNat 8 0x10800),
  pad ([4, 0, 0, 0, 0, 0, 0, 0] ++ bytesOfNat 8 0x11000 ++ bytesOfNat 8 128),
  pad ([5, 0, 0, 0, 0, 0, 0, 0] ++ bytesOfNat 8 0x11000 ++ bytesOfNat 8 4096 ++ [1, 1]), pad [6]]

theorem headPacket_packetState (h : pageHere 0 16 0x10000) (bs : List Byte) :
    (packetState bs).headPacket ((packetState bs).queue 5) =
      (.bytes ((packetState bs).drawn.unitBytes 0x10000 64), (packetState bs).drawn) := by
  unfold State.headPacket
  exact State.queueRead_here (q := (packetState bs).queue 5) (va := 0x10000) (n := 64) (a := 0x10000) (h _)

theorem canBegin_packetState (h : pageHere 0 16 0x10000) (bs : List Byte) :
    (packetState bs).canBegin ((packetState bs).queue 5) = true := by
  unfold State.canBegin
  rw [headPacket_packetState h]
  have h1 : (packetState bs).launchesEnded 5 = true := rfl
  show (_ && (_ || _)) = true
  rw [show (packetState bs).launchesEnded ((packetState bs).queue 5).num = true from h1]
  rfl

/-- Each of the packets begins, and one of type 7 is not valid. -/
theorem witness_PacketEvents (h : pageHere 0 16 0x10000) :
    (∀ bs ∈ packets, ∃ u, begins (packetState bs) ((packetState bs).queue 5) bs u) ∧
    (packets.map fun bs => fieldAt bs 0 1) = [0, 1, 2, 3, 4, 5, 6] ∧ packetValid (pad [7]) = false ∧
    (packetState (pad [7])).canBegin ((packetState (pad [7])).queue 5) = true ∧
    ((packetState (pad [7])).headPacket ((packetState (pad [7])).queue 5)).1 = .bytes (pad [7]) ∧
    base.canBegin (base.queue 5) = false ∧ ((packetState (pad [3])).queue 5).num = 5 ∧
    (((packetState (pad [0])).updQueue 5 fun q => { q with performed := true, begun := some (pad [3]) }).queue 5).signalled = true ∧
    (((packetState (pad [0])).context 0).traces.find? (·.id == 0)) = none := by
  have hr : (packets ++ [pad [7]]).all (fun bs => (packetState bs).drawn.unitBytes 0x10000 64 == bs) = true := by decide +kernel
  have hv : packets.all packetValid = true := by decide +kernel
  have hr' : ∀ bs ∈ packets ++ [pad [7]], (packetState bs).drawn.unitBytes 0x10000 64 = bs := fun bs hb => by
    simpa using (List.all_eq_true.mp hr) bs hb
  refine ⟨fun bs hb => ?_, by decide +kernel, by decide +kernel, canBegin_packetState h _, ?_, by decide +kernel⟩
  · have h1 := headPacket_packetState h bs
    rw [hr' bs (by simp [hb])] at h1
    exact ⟨_, rfl, canBegin_packetState h bs, congrArg (·.1) h1, rfl, (List.all_eq_true.mp hv) bs hb⟩
  · have h1 := headPacket_packetState h (pad [7])
    rw [hr' (pad [7]) (by simp)] at h1
    exact congrArg (·.1) h1

theorem unitPage_here' {ctx page a : Nat} (h : pageHere ctx page a) (s : State) :
    (s.unitPage ctx page).1 = some (.here, a % hbmSize / 4096 * 4096) := by rw [State.unitPage_here (h _)]
/-- The addresses that the packets' buffers and counters lie at, and what stands before a SNAPSHOT and a TRACE_CLOSE: a span, and a
session with room; a packet whose writes have been performed; a ring whose page is denied. -/
theorem witness_PacketEvents_writes (h : pageHere 0 17 0x11000) (s : State) :
    unitAt s 0 0x11000 = some 0x11000 ∧ unitAt s 0 (0x11000 + 4096 - 64) = some 0x11FC0 ∧ (0x11000 + 4096 - 64) % 64 = 0 ∧
    unitAt s 0 (0x11000 + 0x21) = some 0x11021 := by
  unfold unitAt
  refine ⟨?_, ?_, by decide, ?_⟩
  all_goals
    simp only [show (0x11000 : Nat) / 4096 = 17 by decide, show (0x11000 + 4096 - 64 : Nat) / 4096 = 17 by decide,
      show (0x11000 + 0x21 : Nat) / 4096 = 17 by decide, unitPage_here' h s]
    decide
def span0 : Span := { buffer := 0x11000, size := 4096, records := 0, dropped := 0, sum := 0, horizon := false }
def trace0 : Trace := { id := 0, buffer := 0x11000, size := 4096, mask := 1, records := 0, dropped := 0, corr := 0, queue := 5 }
theorem witness_PacketEvents_sessions :
    (((packetState (pad [6])).updContext 0 fun c => { c with traces := [trace0], span := some span0 }).context 0).span = some span0 ∧
    ((((packetState (pad [6])).updContext 0 fun c => { c with traces := [trace0] }).flushTraces.context 0).traces.find?
      (·.id == 0)) = some trace0 ∧
    (let s := (packetState (pad [0])).updQueue 5 fun q => { q with begun := some (pad [4]) }
     s.written (s.queue 5) = true) ∧ (packetState (pad [4])).written ((packetState (pad [4])).queue 5) = false := by decide +kernel
theorem witness_PacketEvents_denied (h : ∀ n, Config.unitMap 0 16 n = none) (bs : List Byte) :
    (packetState bs).canBegin ((packetState bs).queue 5) = true ∧
    ((packetState bs).headPacket ((packetState bs).queue 5)).1 = .denied := by
  have h1 : ((packetState bs).headPacket ((packetState bs).queue 5)).1 = .denied :=
    congrArg (·.1) (State.queueRead_denied (q := (packetState bs).queue 5) (va := 0x10000) (n := 64) (h _))
  refine ⟨?_, h1⟩
  unfold State.canBegin
  rw [h1]
  rfl

/-- A WAIT on a counter in the placed page, which holds 0, for 0 and for 1; a denied page. -/
def blockedState : State := ev { queue := 5 } (base.updQueue 5 fun q => { q with st := .blocked, begun := some (packets.getD 2 []) })
theorem witness_WaitEvaluation (h : pageHere 0 16 0x10000) :
    (∃ w u, base.queueRead (base.queue 5) (fieldAt (packets.getD 2 []) 8 8) 8 = (.bytes w, u) ∧ natOfBytes w = 0) ∧
    ((blockedState.queue 5).begun = some (packets.getD 2 []) ∧ (blockedState.queue 5).st = .blocked ∧
      (blockedState.queue 5).asked = none ∧ ((blockedState.updContext 0 fun c => { c with st := .active }).context 0).st = .active ∧
      (blockedState.queue 5).ctx = 0 ∧ (base.queue 5).st ≠ .blocked) := by
  refine ⟨?_, by decide +kernel⟩
  have h1 : base.queueRead (base.queue 5) 0x10800 8 = _ := State.queueRead_here (a := 0x10000) (h _)
  exact ⟨_, _, h1, by decide +kernel⟩
theorem witness_WaitEvaluation_away (h : ∀ n, Config.unitMap 0 16 n = some (1, 0x10000)) :
    ∃ u, base.queueRead (base.queue 5) 0x10800 8 = (.away .host 0x10800, u) ∧ (base.queue 5).asked = none :=
  ⟨_, State.queueRead_host (a := 0x10000) (h _) rfl, rfl⟩
theorem witness_WaitEvaluation_denied (h : ∀ n, Config.unitMap 0 16 n = none) :
    ∃ u, base.queueRead (base.queue 5) 0x10800 8 = (.denied, u) :=
  ⟨_, State.queueRead_denied (h _)⟩

/-- A record of one team of one gang, at 0x10400 of the placed page, and its kernel, POSTED. -/
def record : List Byte :=
  bytesOfNat 8 0x10000 ++ bytesOfNat 4 1 ++ bytesOfNat 2 1 ++ [1, 0] ++ bytesOfNat 16 1 ++ bytesOfNat 4 4096
    ++ List.replicate 12 0 ++ bytesOfNat 4 32 ++ List.replicate 12 0 ++ bytesOfNat 8 0x10800 ++ List.replicate 184 0
def kernelState (f : Kernel → Kernel) : State :=
  let s := (withKernel f (ev { hub := 0, kernel := 0 } base)).updContext 0 fun c => { c with st := .active, pmask := 255, eshare := 255 }
  { s with mem := Memory.writeBytes s.mem 0x10400 record }
def posted : Kernel := { placedKernel 0 0 with st := .posted, record := 0x10400, launch := none }
def postedState : State := kernelState fun _ => posted

/-- A snapshot that passes every check, and one whose record is denied. -/
theorem witness_KernelEvents_snapshot (h : pageHere 0 16 0x10000) :
    postedState.kernel? 0 = some posted ∧ posted.st = .posted ∧
    (postedState.snapshot posted).2.checkLaunch posted (postedState.snapshot posted).1 = none := by
  refine ⟨by decide +kernel, rfl, ?_⟩
  have h1 : postedState.unitRead 0 0x10400 256 = (.ok record, postedState.drawn) := by
    rw [State.unitRead_here (a := 0x10000) (by decide) (by decide) (h _)]
    rw [show postedState.drawn.unitBytes (0x10000 % hbmSize / 4096 * 4096 + 0x10400 % 4096) 256 = record by decide +kernel]
  have hk : (launchOf record).kcCopy.toNat = 0x10800 ∧ (launchOf record).pieceCount = 0 ∧ (launchOf record).ginitBase = 0 ∧
    (launchOf record).pgt = 0 ∧ (launchOf record).kcSize = 0 := by decide +kernel
  have hn : Nat.min (launchOf record).kcExtent 65536 = 64 := by decide +kernel
  have h2 : postedState.drawn.unitPages 0 0x10800 64 = _ := State.unitPages_here (a := 0x10000) (by decide) (by decide) (h _)
  have h3 : ∀ s : State, ∀ va, s.unitRead 0 va 0 = (.ok [], s) := fun _ _ => rfl
  have h4 : ∀ s : State, ∀ va, s.unitPages 0 va 0 = (.ok [], s) := fun _ _ => rfl
  unfold State.snapshot
  rw [show posted.ctx = 0 from rfl, show posted.record.toNat = 0x10400 by decide, h1]
  simp only [hk, hn, beq_self_eq_true, if_true]
  simp only [show Nat.min 0 65472 = 0 from rfl, show 64 * Nat.min 0 64 = 0 from rfl, h3, h4, h2]
  decide +kernel

theorem witness_KernelEvents_denied (h : ∀ n, Config.unitMap 0 16 n = none) :
    (postedState.snapshot posted).2.checkLaunch posted (postedState.snapshot posted).1 = some (10, 0) := by
  have h1 : postedState.unitRead 0 0x10400 256 = (.error 0, postedState.drawn) :=
    State.unitRead_denied (by decide) (by decide) (h _)
  unfold State.snapshot
  rw [show posted.ctx = 0 from rfl, show posted.record.toNat = 0x10400 by decide, h1]
  rfl

theorem pick :
    ((kernelState fun k => { k with st := .admitted, dispatched := 0, hubs := [] }).modify fun m =>
      { m with cycle := 1 }).pickTeam 0 |>.isSome := by
  unfold State.pickTeam State.virtualHubs State.partitionHubs enabledHubs hubsPerDie
  generalize Config.x7 = b
  cases b <;> decide +kernel

/-- A kernel that waits within its allowance, one whose team can be dispatched and none, and the ends of a draining. -/
theorem witness_KernelEvents (h : pageHere 0 0 0) :
    (let s := kernelState fun k => { k with st := .waiting }
     s.kernel? 0 = some { placedKernel 0 0 with st := .waiting } ∧ (s.context 0).st = .active ∧
     s.grantable.any (·.kid == 0) = true ∧ placedLaunch.pop = false) ∧
    (((kernelState fun k => { k with st := .admitted, dispatched := 0, hubs := [] }).modify fun m =>
      { m with cycle := 1 }).pickTeam 0).isSome = true ∧
    base.pickTeam 0 = none ∧ base.drainDue (placedKernel 0 0) = false ∧
    (let s := (kernelState fun k => { k with st := .draining }).modify fun m => { m with teams := [] }
     s.drainDue { placedKernel 0 0 with st := .draining } = true ∧
     s.drainDue { placedKernel 0 0 with st := .draining, ending := true } = true) ∧
    (let k := { placedKernel 0 0 with st := .done, due := some false, donectr := 0x1000 }
     base.completionDue k = true ∧ base.completionDue (placedKernel 0 0) = false ∧ k.spans = false ∧ k.donectr ≠ 0) ∧
    (base.unitRead 0 placedLaunch.kcBase.toNat placedLaunch.kcSize) = (.ok [], base) ∧
    (base.unitPages 0 placedLaunch.kcBase.toNat placedLaunch.kcSize) = (.ok [], base) ∧
    (base.unitPages 0 placedLaunch.kcCopy.toNat placedLaunch.kcSize) = (.ok [], base) ∧
    ∃ pages v, base.unitPages 0 (placedLaunch.kcCopy.toNat + placedLaunch.kcBlock) 64 = (.ok pages, v) :=
  ⟨by decide +kernel, pick, by decide +kernel, by decide +kernel, by decide +kernel, by decide +kernel, rfl, rfl, rfl,
    _, _, State.unitPages_here (a := 0) (by decide) (by decide) (h _)⟩

/-- A launch whose bank lies in a denied page, and one whose group block does; a denied counter, and a granted one. -/
theorem witness_KernelEvents_pages (h : ∀ n, Config.unitMap 0 16 n = none) (s : State) :
    (∃ u, s.unitPages 0 0x10000 64 = (.error 0, u)) ∧ (∃ u, s.unitRead 0 0x10000 64 = (.error 0, u)) ∧
    (s.unitPage 0 (0x10000 / 4096)).1 = none :=
  ⟨⟨_, State.unitPages_denied (by decide) (by decide) (h _)⟩, ⟨_, State.unitRead_denied (by decide) (by decide) (h _)⟩,
    congrArg (·.1) (State.unitPage_denied (h _))⟩

/-! ### Gangs, translations, moves -/

/-- A gang with a complete request for one block, with and without a budget. -/
def requesting (n : Nat) : State :=
  withTeam (fun x => { x with budgets := [{ core := 0, quarter := 0, role := 0, blocks := n }] })
    (withGang (fun g => { g with xacq := some { n := 1, complete := true, since := 0, order := 0 } }) (st t0))
def bin0 : Bin := { num := 15, team := ref0.teamRef, role := 0, entry := 0x10000, threads := [{ args := [], counter := none, lineage := 0, halt := none }],
                    since := 0, expired := true }
def joinState (n : Nat) : State :=
  ((st t0).updHub 0 fun h => { h with joins := [(ref0, 9, hsAddr team0 64)] }).winWrite (hsAddr team0 64) (bytesOfNat 8 n)
theorem witness_GangEvents :
    let asks := fun (g : Gang) => g.hub == 0 && g.core == 0 && g.quarter == 0 && (match g.xacq with
      | some r => r.complete
      | none => false)
    base.m.gangs.filter asks = [] ∧ ((requesting 1).m.gangs.filter asks).length = 1 ∧
    (requesting 1).budget gang0 = 1 ∧ ((requesting 1).freeBlocks { hub := 0, core := 0, quarter := 0 }).length = 32 ∧
    (requesting 0).budget gang0 < 1 ∧ gang0.blocks = [] ∧
    (let s := (st t0).updHub 0 fun h => { h with bins := [{ bin0 with expired := false }] }
     ((s.hub 0).bins.all fun b => !formable s (s.hub 0) b) = true) ∧
    (let s := ((st t0).updHub 0 fun h => { h with bins := [bin0] }).updContext 0 fun c => { c with st := .active }
     (s.hub 0).bins = [bin0] ∧ bin0.num < 16 ∧ formable s (s.hub 0) bin0 = true ∧
     s.launch? bin0.team.kid = some placedLaunch ∧ s.binPlace (s.hub 0) bin0 = some (1, 1, 0, 0) ∧ (s.hub 0).hub = 0) ∧
    (base.hub 0).joins = [] ∧
    ([0, 5].all fun n => let s := joinState n
      (s.hub 0).joins == [(ref0, 9, hsAddr team0 64)] && (s.winPoisoned (hsAddr team0 64) 8).isNone &&
      s.thread? ref0 == some t0 && natOfBytes (s.winRead (hsAddr team0 64) 4) == n) = true ∧
    (let row : GroupRow := { module := 3, ncount := 0, firstTeam := 0, teams := 1, neighbours := [] }
     ((withKernel (fun k => { k with corr := 5, group := [row] }) base).gridKernel 5 3).map (·.kid) = some 0) ∧
    base.gridKernel 5 3 = none ∧
    (let s := (joinState 0).modify fun m => { m with winPoison := [hsAddr team0 64 / 8] }
     s.winPoisoned (hsAddr team0 64) 8 ≠ none ∧ s.thread? ref0 = some t0 ∧ ((s.hub 0).joins.length = 1)) ∧
    (joinState 0).joinPresent (ref0, 9, hsAddr team0 64) = true ∧
    (withTeam (fun x => x.setCount 0 1) (joinState 0)).joinPresent (ref0, 9, hsAddr team0 64) = false := by decide +kernel

/-- A request of the merge table for page 5 of context 0. -/
def merge (gen : BitVec 8) (paged : Bool) (asking : Bool := true) : MergeRec :=
  { req := 7, ctx := 0, page := 5, need := { r := true, w := false, x := false },
    records := [{ core := 0, who := .copy 0 5, need := { r := true, w := false, x := false } }], overflow := [], paged := paged,
    asking := asking, gen := gen }
def mergeState (gen : BitVec 8) (paged : Bool) (a : AtsReply) : State :=
  (ev { id := 7, ats := a } base).updHub 0 fun h => { h with merges := [merge gen paged] }
theorem witness_TranslationEvents :
    base.findMerge 7 = none ∧
    (let s := (ev { id := 7 } base).updHub 0 fun h => { h with merges := [merge 0 true false] }
     s.findMerge 7 = some (0, merge 0 true false) ∧ s.paging (merge 0 true false) = true ∧ base.paging (merge 0 true) = false) ∧
    (merge 0 true).asking = true ∧ (merge 0 true).paged = true ∧ (merge 0 false).paged = false ∧
    ([(0, false), (0, true), (1, false)].all fun x =>
      (mergeState (BitVec.ofNat 8 x.1) x.2 .abort).findMerge 7 == some (0, merge (BitVec.ofNat 8 x.1) x.2)) = true ∧
    (merge 1 false).gen ≠ (base.context 0).gen ∧ (merge 0 false).gen = (base.context 0).gen ∧
    (mergeState 0 false .unsupported).m.ev.ats = .unsupported ∧ (mergeState 0 false .abort).m.ev.ats = .abort ∧
    (mergeState 0 true (.done 0x5000 12 false false false false)).m.ev.ats = .done 0x5000 12 false false false false ∧
    (mergeState 0 true (.done 0x5000 12 true false false false)).m.ev.ats = .done 0x5000 12 true false false false ∧
    ((ev { size := 0 } base).m.contexts.toList.find? fun c => c.pasid == 0 && c.st != .free) = none ∧
    ((((ev { size := 9 } base).updContext 2 fun c => { c with pasid := 9, st := .active }).m.contexts.toList.find? fun c =>
      c.pasid == 9 && c.st != .free).map (·.num)) = some 2 ∧
    (base.context 3).bumpWaits = false ∧
    (let s := ((ev { ctx := 3 } base).modify fun m => { m with cycle := 2 ^ 20 }).updContext 3 fun c =>
      { c with bumpWaits := true, gen := 255, last := [(0, 0)] }
     (s.context 3).bumpWaits = true ∧ s.m.ev.ctx < 64 ∧ (((s.context 3).gen + 1).toNat = 0) ∧
     ((s.context 3).last.all fun x => x.1 != ((s.context 3).gen + 1).toNat || x.2 + 2 ^ 20 ≤ s.m.cycle) = true) := by decide +kernel

/-- The page unit with a region to move, and a region that moves. -/
def paging (va : Dword) (f : PageUnit → PageUnit) : State :=
  (base.updContext 0 fun c => { c with st := .active }).modify fun m => { m with cycle := 100, page := f { m.page with pgmvaddr := va } }
def moving (drained : Bool) : Move := { ctx := 0, region := 1, phys := [(.here, 0x10000, 0x20000)], cls := some (.here, false), drained := drained }
def moved (k : Nat) (older : Option Nat) : MoveEntry := { ctx := 0, region := k, newer := 50, older := older }
theorem witness_MoveEvents :
    (paging 0x10000 fun p => { p with move := some (moving false) }).m.page.move = some (moving false) ∧
    (paging 0x10000 fun p => { p with move := some (moving true) }).m.page.move = some (moving true) ∧
    (paging 0x10000 id).m.page.move = none ∧ (paging 0x10000 id).m.page.pgmvaddr.toNat % 65536 = 0 ∧
    ((paging 0x10000 id).context 0).st ≠ .free ∧ (paging 0x10080 id).m.page.pgmvaddr.toNat % 65536 ≠ 0 ∧
    2 ^ 57 ≤ (paging 0x0200000000000000 id).m.page.pgmvaddr.toNat ∧
    (let s := paging 0x10000 fun p => { p with history := [moved 1 (some 3)] }
     (s.m.page.history.find? fun x => x.ctx == 0 && x.region == 1) = some (moved 1 (some 3)) ∧ s.m.cycle < 50 + 2 ^ 24) ∧
    (let s := paging 0x10000 fun p => { p with history := [moved 1 none] }
     (s.m.page.history.find? fun x => x.ctx == 0 && x.region == 1) = some (moved 1 none)) ∧
    (let s := paging 0x10000 fun p => { p with history := (List.range 1024).map fun k => moved (k + 2) none }
     1024 ≤ s.m.page.history.length ∧ (s.m.page.history.find? fun x => x.ctx == 0 && x.region == 1) = none) ∧
    (paging 0x10000 id).m.l2held = [] ∧ (paging 0x10000 id).m.page.waiting = [] := by decide +kernel

/-! ### Messages -/

/-- The message of event 3. -/
def message (msg : Msg) (s : State) : State := withEvent 3 [{ id := 3, due := 0, msg := msg }] s
theorem message_carries (msg : Msg) (s : State) : carries (message msg s) msg := ⟨_, rfl, rfl⟩

/-- Any message can be the event's; none is in the small state. -/
theorem witness_MessagesArrive :
    (base.m.flight.find? (·.id == base.m.ev.id)) = none ∧ (∀ msg, carries (message msg base) msg) ∧
    (message (.check { hub := 511, core := 0, tok := 4, pa := 0, va := 0, ctx := 0, tag := 0, version := 0 }) base).m.ev.id = 3 ∧
    (message (.invAck 0 0 0) base).m.l2held = [] ∧
    (message (.invAck 0 0 0) base).m.evictions = [] ∧ base.m.l2held.find? (fun h => h.why == .ready && h.req.id == base.m.ev.id) = none ∧
    (let r : HomeReq := { id := 0, link := 0, hub := 0, pa := 0, size := 8, op := .read, back := .none, rmt := false, replica := none }
     let s := base.modify fun m => { m with l2held := [{ slice := 0, why := .ready, req := r }] }
     s.m.l2held.find? (fun h => h.why == .ready && h.req.id == s.m.ev.id) = some { slice := 0, why := .ready, req := r }) :=
  ⟨by decide, fun msg => message_carries msg base, rfl, rfl, rfl, by decide +kernel, by decide +kernel⟩

/-- A load of 0x10044 that waits for its line; a sector with a mask; lines of 0x10000; what a home sends. -/
def fillAccess : Access :=
  { scratchAccess .load with space := 0, ea := 0x10044, pa := 0x10044, va := 0x10044, result := some Ty.n32 }
def sector0 (mask : BitVec 32) : L1Sector := { data := 5, mask := mask, version := none, waiting := false, poison := false }
def line0 (mask : BitVec 32) : L1Line :=
  { place := .here, pa := 0x10000, way := 0, classM := false, gen := some 0, tag := 0, sectors := Vector.replicate 4 (sector0 mask)
    va := 0, ctx := 0, use := 0 }
def data0 : LineData := { sectors := Vector.replicate 4 7, tag := 3, versions := Vector.replicate 4 2, poison := 2 }
def fill0 (ws : List (Nat × Access)) : FillWait :=
  { place := .here, line := 0x10000, sent := true, classM := false, gen := 0, req := 7, rep := false, waiters := ws }
theorem witness_HubsReceive :
    ([[], [(0, fillAccess)]].all fun ws => [[], [line0 3]].all fun ls =>
      let s := message (.l1Fill 0 .here 0x10000 7 data0) (base.updHub 0 fun h => { h with fills := [fill0 ws], l1 := ls })
      (s.hub 0).held.isEmpty && (s.hub 0).fills.find? (fun f => f.place == .here && f.line == 0x10000 && f.sent && f.req == 7) ==
        some (fill0 ws) && (s.hub 0).line? .here 0x10000 == ls.head?) = true ∧
    (0x10000 % 128 = 0 ∧ fillAccess.op = .load ∧ fillAccess.tack = false ∧ fillAccess.hub = 0 ∧ fillAccess.place = .here ∧
      lineOf fillAccess.pa = 0x10000 ∧ fillAccess.pa % 32 + fillAccess.size ≤ 32 ∧ fillAccess.result = some Ty.n32) := by decide +kernel
theorem witness_HubsReceive_backs :
    ([1, 2].all fun n =>
      let w : WriteBack := { place := .here, line := 0x10000, sector := 2, count := n }
      let s := message (.wbAck 0 .here 0x10000 2 (some 4)) (base.updHub 0 fun h => { h with writeBacks := [w], l1 := [line0 0] })
      (s.hub 0).held.isEmpty && (s.hub 0).writeBacks.find? (fun w => w.place == .here && w.line == 0x10000 && w.sector == 2) == some w
        && (s.hub 0).l1.length == 1) = true := by decide +kernel
def ackedStore : Access := { fillAccess with op := .store [1, 2, 3, 4], result := none }
def ackedState : State := message (.accessAck ackedStore [] (some 4) none) (base.updHub 0 fun h => { h with l1 := [line0 0] })
theorem witness_HubsReceive_access :
    ((ackedState.hub ackedStore.hub).held = [] ∧
      (ackedState.hub ackedStore.hub).line? ackedStore.place ackedStore.pa = some (line0 0)) ∧
    ((message (.accessAck fillAccess [1, 2, 3, 4] none none) base).hub 0).held = [] := by decide +kernel
def tackEntry : TackEntry :=
  { thread := ref0, tok := 3, place := .here, pa := 0x10040, va := 0, ctx := 0, tag := 0, version := 0, issued := 0, byFill := false }
def tackState : State := message (.tackReply 0 3 3 true) (base.updHub 0 fun h =>
  { h with cores := h.cores.setIfInBounds 3 { Core.fresh with tacks := [{ tackEntry with tok := 3 }] } })
theorem witness_HubsReceive_tack :
    (((tackState.hub 0).cores.toArray.getD 3 Core.fresh).tacks.find? (·.tok == 3)).isSome = true ∧
    (((message (.tackReply 0 3 3 true) base).hub 0).cores.toList.all (·.tacks.isEmpty)) = true := by decide +kernel

/-- A line at its home, and a request for it of each kind. -/
def homed : L2Line :=
  { slice := homeSlice 0x10040, pa := 0x10000, way := 0, home := true, tag := 1, versions := Vector.replicate 4 7,
    sectors := Vector.replicate 4 9, dirty := 0, poison := 0, writer := none, multi := false, replicas := 0, placedBy := none,
    wrote := Vector.replicate 4 0, ackId := Vector.replicate 4 0, use := 0 }
def request (pa : Nat) (op : HomeOp) (back : Back) : HomeReq :=
  { id := 2, link := 0, hub := 0, pa := pa, size := 4, op := op, back := back, rmt := false, replica := none }
def requests0 : List HomeReq :=
  [{ request 0x10040 .line (.fill 0 .here) with pa := 0x10000, size := 32 }, request 0x10044 .read (.access fillAccess),
    request 0x10040 (.write [(0x10040, 1)] none false) (.writeBack 0 .here 0x10000 2),
    request 0x10040 (.write [(0x10040, 1)] none true) (.copyWrite 0 5),
    request 0x10044 (.atomic 0 Ty.n32 5 0 .rne) (.access { fillAccess with op := .atomic 0 Ty.n32 5 0 .rne })]
def homeState (r : HomeReq) : State := message (.home r) (base.modify fun m => { m with l2 := [homed] })
theorem witness_HomesServe : ∀ r ∈ requests0, performable (taken (homeState r)) r homed := by
  unfold performable
  decide +kernel
theorem witness_HomesServe_fills :
    ([(0x10040, 1), (0x1005F, 6)] : List (Nat × Byte)).map (·.1) = [0x10040, 0x1005F] ∧
    (requests0.all fun r => !r.fails && r.size ≤ 32) = true ∧
    (let r := request 0x20044 .read (.access fillAccess)
     let s := homeState r
     r.away = none ∧ r.foreign = false ∧ s.m.l2held = [] ∧ s.m.evictions = [] ∧ s.reqLocked r = false ∧
     s.l2Line? (homeSlice r.pa) (lineOf r.pa) = none) ∧
    (let h : HeldReq := { slice := 5, why := .fill, req := request 0x10044 .read (.access fillAccess) }
     let s := message (.l2Fill 5 0x10000) (base.modify fun m => { m with l2held := [h] })
     s.l2Line? 5 0x10000 = none ∧ (s.l2Victim 5 0x10000).2 = none ∧ s.m.l2held = [h] ∧ lineOf h.req.pa = 0x10000) ∧
    (base.l2Line? 5 0x10000 = none ∧ (base.l2Victim 5 0x10000).2 = none) ∧
    (let s := message (.replicaFill homed.slice 0x10000 0 data0) (base.modify fun m => { m with l2 := [homed] })
     s.l2Line? homed.slice 0x10000 = some homed ∧ homed.home = true) ∧
    (let h : HeldReq := { slice := 5, why := .promote [3], req := request 0x10044 .read (.access fillAccess) }
     let s := message (.promoteAck 5 2 3) (base.modify fun m => { m with l2held := [h] })
     s.m.l2held = [h] ∧ h.req.id = 2) := by decide +kernel

def bumpReq (d m : Bool) : BumpReq := { thread := ref0, tok := 4, classD := d, classM := m }
def release (c : RelCont) : Release := { id := 3, at_ := 0, taken := true, waits := [], cont := c }
theorem witness_ReleasesAndBumps :
    (base.hub 0).flash = none ∧ (base.hub 0).bumps = [] ∧ (base.hub 0).holdsGen false 1 = false ∧ (base.hub 0).holdsGen true 1 = false ∧
    ([(true, true), (true, false), (false, true), (false, false)].all fun x =>
      ((base.updHub 0 fun h => { h with bumps := [bumpReq x.1 x.2] }).hub 0).bumps == [bumpReq x.1 x.2]) = true ∧
    ([some (.here, 0, 0), none].all fun w => let f : Flash := { classM := true, waits := w.toList }
      ((base.updHub 0 fun h => { h with flash := some f, bumps := [bumpReq true true] }).hub 0).flash == some f) = true ∧
    ([RelCont.promote 1 2, .kernelEnd 0, .fence ref0 4, .access (scratchAccess (.store [1])), .access fillAccess].all fun c =>
      (((ev { id := 3 } base).updHub 0 fun h => { h with releases := [release c] }).hub 0).releases.find?
        (fun r => r.id == 3 && r.taken && r.waits.isEmpty) == some (release c)) = true ∧
    (let l : L1Line := { line0 0 with gen := some 1 }
     ([(false, l), (true, { l with classM := true })].all fun x =>
       let h := (base.updHub 0 fun h => { h with l1 := [x.2], bumps := [bumpReq (!x.1) true] }).hub 0
       h.flash.isNone && h.holdsGen x.1 ((if x.1 then h.cm + 1 else h.cd + 1) % 16)) = true) ∧
    (((ev { id := 3 } base).hub 0).releases.any fun r => r.id == 3 && r.taken && r.waits.isEmpty) = false ∧
    (let s := (ev { id := 3 } base).updHub 0 fun h => { h with releases := [release (.thread ref0)] }
     ((s.hub 0).releases.find? fun r => r.id == 3 && r.taken && r.waits.isEmpty) = some (release (.thread ref0))) ∧
    (((ev { id := 3 } base).hub 0).cores.toArray.getD 0 Core.fresh).tacks = [] ∧
    (let s := base.updHub 0 fun h => { h with cores := h.cores.setIfInBounds 3 { Core.fresh with tacks := [tackEntry] } }
     ((s.hub 0).cores.toArray.getD 3 Core.fresh).tacks.find? (·.tok == 3) = some tackEntry) := by decide +kernel

/-- A line of a home slice, written in an earlier cycle and in this one. -/
def homeLine (wrote : Nat) : L2Line :=
  { slice := homeSlice 0x10040, pa := 0x10000, way := 0, home := true, tag := 1, versions := Vector.replicate 4 7,
    sectors := Vector.replicate 4 0, dirty := 0, poison := 0, writer := none, multi := false, replicas := 0, placedBy := none,
    wrote := Vector.replicate 4 wrote, ackId := Vector.replicate 4 0, use := 0 }
theorem witness_HomeWriteRule :
    ([0, 1].all fun w =>
      let s := base.modify fun m => { m with l2 := [homeLine w] }
      s.l2Line? (homeSlice 0x10040) (lineOf 0x10040) == some (homeLine w)) = true ∧
    (([(0x10040, 5), (0x1005F, 6)] : List (Nat × Byte)).all fun c => c.1 / 32 == 0x10040 / 32) = true ∧
    (([(0x10040, 5), (0x1005F, 6)] : List (Nat × Byte)).map (·.1)).Nodup := by decide +kernel

/-! ### Copies and the matrix engine -/

def copy0 (registered : Bool) : Copy :=
  { ((st t0).newCopy ref0.teamRef (pieceOf (pieceBytes 4)) (some ref0) 0 0 1 2 true).1 with id := 5, registered := registered }
def copying (x : Copy) : State := base.updHub 0 fun h => { h with copies := [x] }
theorem witness_CopyEvents :
    (base.m.teams.all fun t => t.hub != 0 || t.pieces.isEmpty) = true ∧ (base.hub 0).copies = [] ∧
    (let s := copying (copy0 false)
     (s.hub 0).copies = [copy0 false] ∧ s.team? (copy0 false).team = some team0 ∧ team0.st = .resident ∧
     s.canRegister 0 (copy0 false) = true ∧
     ((s.updTeam ref0.teamRef fun t => t.setCount 1 7).canRegister 0 (copy0 false) = false)) ∧
    (let s := copying (copy0 true)
     s.runningCopy 0 = some (copy0 true) ∧ (s.hub 0).copies.find? (·.id == 5) = some (copy0 true) ∧
     (copy0 true).readPos + 16 ≠ (copy0 true).piece.bytes) ∧
    base.runningCopy 0 = none ∧ base.m.flight = [] ∧
    carries (message (.copyData 0 5 (List.replicate 16 1) none) (copying (copy0 true))) (.copyData 0 5 (List.replicate 16 1) none) ∧
    carries (message (.copyLanded 0 5) (copying (copy0 true))) (.copyLanded 0 5) ∧
    carries (message (.copyData 0 5 [] (some 0x10000)) (copying (copy0 true))) (.copyData 0 5 [] (some 0x10000)) :=
  ⟨by decide +kernel, by decide +kernel, by decide +kernel, by decide +kernel, by decide +kernel, by decide +kernel,
    message_carries _ _, message_carries _ _, message_carries _ _⟩

/-- A copy out of the scratchpad that reads, one into it that lands a sector, each ready and not; held work that registers. -/
theorem witness_CopyEvents_parts :
    let x := { copy0 true with piece := pieceOf (pieceBytes 1), startAt := some 0 }
    let y := { copy0 true with startAt := some 0, buffer := List.replicate 32 1 }
    let s := copying x
    let u := copying y
    s.runningCopy 0 = some x ∧ x.piece.fromKind = 1 ∧ s.team? x.team = some team0 ∧ 0 ≤ s.m.cycle ∧ x.asked = false ∧
    x.writing = 0 ∧ x.waiting = false ∧ x.readPos < x.piece.bytes ∧ x.buffer.length < 128 ∧
    u.runningCopy 0 = some y ∧ y.piece.toKind = 1 ∧ 32 ≤ y.buffer.length ∧ (copy0 true).buffer.length < 32 ∧
    (copying { y with writing := 1 }).runningCopy 0 = some { y with writing := 1 } ∧
    s.m.flight.find? (·.id == s.m.ev.id) = none ∧ x.piece.toKind ≠ 1 ∧ piecesReleased s 0 = [] ∧ base.heldWork 0 = [] ∧
    ((copying (copy0 false)).heldWork 0 = [.copy (copy0 false)]) := by decide +kernel

/-- An entry of one pass whose operands lie in registers or in scratch. -/
def entry0 (op : EngineOp) (d : Option Desc) : Reservation :=
  { Reservation.fresh 6 t0 gang0 op 0 0 (.base 0 b) 0 with posted := true, locked := true, word := 0x11, descB := d }
def desc0 : Desc := { base := 0, rpitch := 128, rot := 0, tpitch := 0 }
def engineState (x : Reservation) : State := (withTeam matrixTeam base).updHub 0 fun h => { h with reservations := [x] }
def engineRun (start : Option Nat) (hit sideB : Bool) (rows : List (List Byte)) : EngineRun :=
  { entry := 6, sideB := sideB, pass := 0, start := start, og := 0, hit := hit, rows := rows }
theorem witness_EngineEvents :
    let s := engineState (entry0 .mma none)
    let p := engineState (entry0 .mzero none)
    let f := engineState (entry0 .mma (some desc0))
    (s.hub 0).pass = none ∧ (s.hub 0).passReady (entry0 .mma none) = true ∧ s.engineRuns (entry0 .mma none) = true ∧
    leastBy (fun e : Reservation => [4 - e.prio, e.seq]) (s.hub 0).reservations = some (entry0 .mma none) ∧
    (p.hub 0).reservations.filter (p.hub 0).passReady = [] ∧ (p.hub 0).port = none ∧ (entry0 .mzero none).op ≠ .mma ∧
    (p.hub 0).earlier (entry0 .mzero none) = [] ∧ (p.hub 0).fetch = none ∧
    ((p.hub 0).reservations.all fun e => !(p.hub 0).fetchReady e) = true ∧
    (f.hub 0).entry? 6 = some (entry0 .mma (some desc0)) ∧ f.team? ref0.teamRef = some (matrixTeam team0) ∧
    (((entry0 .mma (some desc0)).tile true 0).map fun x => decide (0 < x.2.2.rows)) = some true ∧
    ((f.updHub 0 fun h => { h with fetch := some (engineRun (some 0) false true []) }).hub 0).fetch
      = some (engineRun (some 0) false true []) ∧
    f.m.cycle + 1 < 0 + 16 ∧ f.m.cycle + 1 < 0 + 8 ∧
    ([EngineOp.mzero, .mldScratch, .mldRegs, .mstScratch, .mstRegs, .mcvt, .qblk].all fun o => decide (p.m.cycle + 1 < 0 + o.cycles)) = true ∧
    ((p.modify fun m => { m with cycle := 7 }).m.cycle + 1 = 0 + EngineOp.mzero.cycles) ∧
    p.portPoison (matrixTeam team0) (entry0 .mzero none) = none ∧
    ((entry0 .mma (some desc0)).tile true 0).map (fun x => f.tilePoison (matrixTeam team0) x.1 x.2.1 0 4 x.2.2.rowBytes) = some none ∧
    (((entry0 .mma (some desc0)).tile true 0).map fun x => ((f.modify fun m =>
      { m with winPoison := [hsAddr (matrixTeam team0) 0 / 8] }).tilePoison (matrixTeam team0) x.1 x.2.1 0 4 x.2.2.rowBytes).isSome) = some true ∧
    (st { t0 with sfenceWait := some [] }).thread? ref0 = some { t0 with sfenceWait := some [] } ∧
    (let h := f.hub 0
     ((entry0 .mma (some desc0)).tile true 0).map (fun x => (h.operandHit (matrixTeam team0) x.1 x.2.1 x.2.2,
       (matrixTeam team0).tilePresent x.1 x.2.1 x.2.2)) = some (none, true)) ∧
    (let t := (matrixTeam team0).setCount 0 1
     ((entry0 .mma (some desc0)).tile true 0).map (fun x => t.tilePresent x.1 x.2.1 x.2.2) = some false) ∧
    ((s.hub 0).entry? 9 = none) ∧ ((engineState { entry0 .mma (some desc0) with locked := false }).heldWork 0).length = 1 ∧
    (((p.modify fun m => { m with winPoison := [accAddr 0 0 0 0 / 8] }).portPoison (matrixTeam team0)
      { entry0 .mstScratch none with z := 0 }) ≠ none) := by decide +kernel

/-- A pass in its eighth cycle, and a fetch of the B side that hits. -/
theorem witness_PassesAndFetchesEnd :
    let d := entry0 .mma (some desc0)
    let e := { d with passes := 2 }
    let s := (engineState e).modify fun m => { m with cycle := 7 }
    (s.hub 0).hub = 0 ∧ (s.hub 0).entry? 6 = some e ∧ s.team? e.team = some (matrixTeam team0) ∧
    0 + 8 ≤ s.m.cycle + 1 ∧ s.winPoisoned (accAddr 0 ((matrixTeam team0).phys e.z) 0 0) 16384 = none ∧
    d.passes = 1 ∧ (e.tile true 0).isSome = true ∧
    0 + 1 ≠ e.passes ∧
    ((s.updHub 0 fun h => { h with pass := some (engineRun (some 0) false false []) }).hub 0).pass
      = some (engineRun (some 0) false false []) ∧
    ((s.updHub 0 fun h => { h with fetch := some (engineRun (some 0) true true []) }).hub 0).fetch
      = some (engineRun (some 0) true true []) := by decide +kernel

/-! ### Issue, resampling, measurement -/

/-- The placed thread, READY, and waiting in each way. -/
def waiting (w : WaitFor) (p : List Pending := []) : Thread := { t0 with st := .parked 1, wait := w, pend := p }
theorem witness_IssueEvents :
    (let s := { base with m := { base.m with packet := [], ev := { hub := 0, core := 0, quarter := 0 } } }
     let q : QRef := { hub := 0, core := 0, quarter := 0 }
     ((s.breakHalts q).leader ((s.breakHalts q).readyGangs q)).isSome = true ∧
     ((s.setThread (waiting .none)).breakHalts q).readyGangs q = []) ∧
    ([WaitFor.none, .present, .lkwait 0, .acquire [], .exit, .trap t0.x 0 7].all fun w =>
      ((st (waiting w)).modify fun m => { m with cycle := 5 }).wakeable (waiting w)) = true ∧
    (st (waiting (.bar 0 1 none))).wakeable (waiting (.bar 0 1 none)) = true ∧
    (st (waiting .gsync)).wakeable (waiting .gsync) = true ∧
    (withBarrier oneMore).wakeable (waiting (.tb 64 0)) = true ∧
    (st (waiting .none [waits])).wakeable (waiting .none [waits]) = false ∧
    (st (waiting .tret)).wakeable (waiting .tret) = true ∧
    (st (waiting (.tackChk 0x10040 0x10004))).wakeable (waiting (.tackChk 0x10040 0x10004)) = true ∧
    (([true, false].all fun fetch => let r : Resume := { at_ := 0, threads := [ref0], pc := 0x10000, fetch := fetch, denied := none }
     let s := (ev { flag := true, thread := ref0 } (st (waiting .translation))).modify fun m => { m with resumes := [r] }
     s.dueResumes.find? (·.threads.head? == some s.m.ev.thread) == some r) ∧ (waiting .translation).halted = false) ∧
    (match (base.fetchAt gang0 0x10000).1 with
      | .wait _ => false
      | _ => true) = true ∧
    (match ((base.updHub 0 fun h => { h with cores := h.cores.map fun c => { c with tlb := [] } }).fetchAt gang0 0x10000).1 with
      | .wait _ => true
      | _ => false) = true ∧
    base.dueResumes = [] ∧
    (st t0).thread? t0.ref = some t0 ∧ base.thread? ref1 = none := by decide +kernel

/-- A population whose one thread has arrived with a valid target, with target 0, above the limit, and with a NaN offset. -/
def arrived (a : RsmpArgs) : State :=
  withKernel (fun k => { k with rsmp := .arrived }) (withLaunch (fun l => { l with cap := 32 })
    (st { t0 with st := .parked 1, wait := .rsmp, rsmp := some a }))
def rsmpArgs (target offset : Word) (draw : Bool) : RsmpArgs :=
  { pc := 0x10000, word0 := 0, weight := 0x3F800000, target := target, offset := offset, draw := draw, dst := 5, tok := 9 }
theorem witness_ResampleEvents :
    ((base.kernel? 0).map (·.rsmp)) = some .idle ∧
    ([rsmpArgs 0 0 false, rsmpArgs 33 0 false, rsmpArgs 1 0x7FC00000 false, rsmpArgs 32 0 true].all fun a =>
      let s := arrived a
      ((s.kernel? 0).map (·.rsmp)) == some .arrived && ((s.launch? 0).map (·.cap)) == some 32 &&
      s.population 0 == [{ t0 with st := .parked 1, wait := .rsmp, rsmp := some a }] && (s.population 0).all (·.atRsmp)) = true ∧
    (f32 0x7FC00000).isNan = true ∧
    (let s := message (.rsmpDone 0) (withKernel (fun k => { k with rsmp := .resampling }) base)
     carries s (.rsmpDone 0) ∧ (taken s).unitBusy (.frames 0) = false ∧ ((s.kernel? 0).map fun k => (k.rsmp, k.kid)) = some (.resampling, 0) ∧ (s.launch? 0).isSome = true) ∧
    carries (message (.rsmpDone 0) base) (.rsmpDone 0) :=
  ⟨by decide +kernel, by decide +kernel, by decide +kernel, ⟨message_carries _ _, by decide +kernel, by decide +kernel, by decide +kernel⟩, message_carries _ _⟩
/-- A resample whose frames are still being written. -/
theorem witness_ResampleEvents_busy :
    let r := request 0x10040 (.write [(0x10040, 1)] none false) (.unit (.frames 0) .here)
    let s := withEvent 3 [{ id := 3, due := 0, msg := .rsmpDone 0 }, { id := 4, due := 0, msg := .home r }] base
    carries s (.rsmpDone 0) ∧ (taken s).unitBusy (.frames 0) = true := ⟨⟨_, rfl, rfl⟩, by decide +kernel⟩

/-- The copies of a population with one weight: its frames are empty, or of a page that is denied; and weights that sum to
zero. -/
def planOf (s : State) : List CloneRec :=
  let ts := s.population 0
  let ws := ts.map fun t => (t.rsmp.map (·.weight)).getD 0
  s.copyPlan ts (counts (prefixSums (sanitise ws)) 1 (f32 0))
theorem planOf_single : ∃ x, planOf (arrived (rsmpArgs 1 0 false)) = [x] ∧ x.parent.grank = 0 := by
  have h1 : (planOf (arrived (rsmpArgs 1 0 false))).map (fun x => x.parent.grank) = [0] := by decide +kernel
  cases hp : planOf (arrived (rsmpArgs 1 0 false)) with
  | nil => rw [hp] at h1; cases h1
  | cons a r =>
    rw [hp] at h1
    have hr : r = [] := by simpa using congrArg List.length h1
    exact ⟨a, by rw [hr], by simpa [hr] using h1⟩
theorem witness_ResampleEvents_plan : ∃ v, (arrived (rsmpArgs 1 0 false)).framePages (placedKernel 0 0) placedLaunch
    (planOf (arrived (rsmpArgs 1 0 false))) = v ∧ v.1.toOption.isSome = true := by
  obtain ⟨x, hx, h2⟩ := planOf_single
  rw [hx]
  refine ⟨_, rfl, ?_⟩
  unfold State.framePages
  simp only [List.foldl_cons, List.foldl_nil]
  rw [show placedLaunch.pvSize = 0 from rfl]
  rfl
theorem witness_ResampleEvents_weights :
    ((prefixSums (sanitise [0x3F800000])).getLast?.getD (.nat 0)).isZero = false ∧
    ((prefixSums (sanitise [0])).getLast?.getD (.nat 0)).isZero = true ∧ (f32 0).cmp (.nat 1) < 0 := by decide +kernel
theorem framePages_denied (s t : State) (k : Kernel) (l : LaunchRec) (x : CloneRec) (e : Nat)
    (h : s.unitPages k.ctx (l.pvFrame x.parent.grank) l.pvSize = (.error e, t)) :
    s.framePages k l [x] = (.error (l.pvFrame x.parent.grank), t) := by
  unfold State.framePages
  simp only [List.foldl_cons, List.foldl_nil]
  rw [h]
theorem witness_ResampleEvents_denied (h : ∀ n, Config.unitMap 0 16 n = none) :
    let l := { placedLaunch with pvBase := 0x10000, pvSize := 64 }
    ∃ addr v, (arrived (rsmpArgs 1 0 false)).framePages (placedKernel 0 0) l (planOf (arrived (rsmpArgs 1 0 false))) =
      (.error addr, v) := by
  intro l
  obtain ⟨x, hx, h2⟩ := planOf_single
  have hd : Config.unitMap 0 (0x10000 / 4096) (arrived (rsmpArgs 1 0 false)).m.free = none := by
    rw [show (0x10000 : Nat) / 4096 = 16 by norm_num]
    exact h _
  have hw : (0x10000 : Nat) % 4096 + 64 ≤ 4096 := by norm_num
  have hu := State.unitPages_denied hw (by norm_num) hd
  have hf : l.pvFrame x.parent.grank = 0x10000 := by rw [h2]; decide +kernel
  rw [hx]
  exact ⟨_, _, framePages_denied _ _ _ l x 0 (by rw [hf]; exact hu)⟩

def sample0 : SampleEntry :=
  { index := 3, acc := scratchAccess .load, stale := false, finish := some 4, l1 := 1, l2 := 2 }
theorem witness_MeasureEvents :
    (let s := base.updHub 0 fun h => { h with samples := [sample0] }
     ((s.hub 0).samples.find? fun x => x.index == 3 && x.finish.isSome) = some sample0 ∧ (s.hub 0).hub = 0) ∧
    (st t0).thread? ref0 = some t0 ∧ t0.ref = ref0 ∧ (st t0).gangOf t0 = some gang0 ∧
    (ev { unit := .threadReg ref0 4 } (st t0)).m.ev.unit = .threadReg ref0 4 ∧
    (ev { unit := .hbm 0x10000 } base).m.ev.unit = .hbm 0x10000 ∧ base.mgmt.elogtail - base.mgmt.eloghead = base.mgmt.elogsize ∧
    (let s := { base with mgmt := { base.mgmt with elogsize := 4 } }
     s.mgmt.elogtail - s.mgmt.eloghead ≠ s.mgmt.elogsize) ∧
    ([ErrorUnit.l1Data 0 0x10000 0, .l1Tag 0 0x10000, .translation 0 0 16, .tack 0 0 0, .other ref0 4, .gangReg ref0.gangRef 4, .ddr 0x10000,
      .hubScratch 8, .coreScratch 8, .accumulator 8, .l2 5 0x10000 3].all fun u => (ev { unit := u } base).m.ev.unit == u) = true ∧
    base.l1Dirty 0 0x10000 0 = false ∧ base.gang? ref0.gangRef = some gang0 ∧ gang0.ref = ref0.gangRef ∧
    (let x : L1Sector := { data := 0, mask := 1, version := none, waiting := false, poison := false }
     let l : L1Line := { place := .here, pa := 0x10000, way := 0, classM := false, gen := some 0, tag := 0, sectors := Vector.replicate 4 x, va := 0, ctx := 0, use := 0 }
     let s := base.updHub 0 fun h => { h with l1 := [l] }
     s.l1Dirty 0 0x10000 0 = true ∧ (s.hub 0).anyLine 0x10000 = some l) ∧
    (let s := base.updHub 0 fun h => { h with l1 := [line0 0] }
     s.l1Dirty 0 0x10000 0 = false ∧ (s.hub 0).anyLine 0x10000 = some (line0 0) ∧ s.backsOf 0 0x10000 0 = []) ∧
    (let s := base.updHub 0 fun h => { h with cores := h.cores.setIfInBounds 0 { Core.fresh with tacks := [tackEntry] } }
     ((s.hub 0).cores.toArray.getD 0 Core.fresh).tacks[0]? = some tackEntry) := by decide +kernel

/-! ### Encoding, the step, reset -/

theorem witness_DecodeOfEncode :
    (Instr.add (b 5 4 8)).isEvent = false ∧ (Instr.add (b 5 4 8)).wellFormed = true ∧
    (Instr.mad { b 127 127 127 with m := true }).isEvent = false ∧
    (match decodeList [0x15408400] with
      | .ok _ => true
      | _ => false) = true := by decide +kernel

/-- The small state with instruction words at its program counter, and its thread. -/
def placed (nbits w : Nat) : State := State.reset.withFetchWord nbits w
def fresh0 : Thread := Thread.fresh ref0 0x10000 0 0 0
def addWord : Nat := ((encode (.add (b 5 4 8))).getD 0 0).toNat
def denyX (s : State) : State :=
  s.updHub 0 fun h => { h with cores := h.cores.map fun c => { c with tlb := c.tlb.map fun x => { x with x := false } } }
theorem witness_Standing :
    let s := placed 32 addWord
    standing s fresh0 ((s.gangOf fresh0).getD gang0) ∧
    s.codeWord 0 0 (s.ctxOf 0) 0 0x10000 = .words [BitVec.ofNat 32 addWord] ∧
    (Instr.add (b 5 4 8)).isEvent = false ∧ (Instr.add (b 5 4 8)).wellFormed = true ∧ (encode (.add (b 5 4 8))).length = 1 ∧
    (match s.xlat 0 0 0 0x10000 with
      | .hit x => x.x && decide (x.place = .here)
      | _ => false) = true ∧ ((s.kernel? 0).map (·.fetched)) = some [] :=
  ⟨⟨by decide +kernel, by decide +kernel, by decide +kernel, by decide +kernel, by decide +kernel, by decide +kernel⟩,
    by decide +kernel, by decide +kernel, by decide +kernel, by decide +kernel, by decide +kernel, by decide +kernel⟩
/-- Words that do not decode, base with a literal and extended; a page that may not be executed, before the first word and before
the last of a literal; and a page without a translation. -/
theorem witness_StepTrapsOnBadFetch :
    let s := placed 32 0x1FC00000
    let d := denyX (placed 32 addWord)
    let n := s.updHub 0 fun h => { h with cores := h.cores.map fun c => { c with tlb := [] } }
    let x := placed 96 0x00000000_00000160_80018280
    standing s fresh0 ((s.gangOf fresh0).getD gang0) ∧ s.codeWord 0 0 (s.ctxOf 0) 0 (wordAddress s 0) = .words [0x1FC00000] ∧
    wordCount 0x1FC00000 = 1 ∧
    (match decodeList [0x1FC00000] with
      | .illegal _ _ => true
      | _ => false) = true ∧
    wordCount 0x80018280 = 3 ∧ ([(0, 0x80018280), (1, 0x160), (2, 0)].all fun p =>
      x.codeWord 0 0 (x.ctxOf 0) 0 (wordAddress x p.1) == .words [p.2]) = true ∧
    (match decodeList [0x80018280, 0x160, 0] with
      | .illegal _ _ => true
      | _ => false) = true ∧
    standing d fresh0 ((d.gangOf fresh0).getD gang0) ∧ d.codeWord 0 0 (d.ctxOf 0) 0 (wordAddress d 0) = .bad Cause.perm ∧
    n.codeWord 0 0 (n.ctxOf 0) 0 (wordAddress n 0) = .wait ∧ n.m.packet.head? = some fresh0.ref ∧
    (let p := { x with m := { x.m with packetPc := 0x10FFC } }
     p.codeWord 0 0 (p.ctxOf 0) 0 (wordAddress p 0) = .words [0] ∧ p.codeWord 0 0 (p.ctxOf 0) 0 (wordAddress p 1) = .wait) :=
  ⟨⟨by decide +kernel, by decide +kernel, by decide +kernel, by decide +kernel, by decide +kernel, by decide +kernel⟩,
    by decide +kernel, by decide +kernel, by decide +kernel, by decide +kernel, by decide +kernel, by decide +kernel,
    ⟨by decide +kernel, by decide +kernel, by decide +kernel, by decide +kernel, by decide +kernel, by decide +kernel⟩,
    by decide +kernel, by decide +kernel, by decide +kernel, by decide +kernel⟩
theorem witness_StepRunsAgenda :
    let s := base.modify fun m => { m with packet := [], agenda := [(Instr.epochEnd, {})] }
    let t := base.modify fun m => { m with packet := [], agenda := [], phase := 23 }
    s.m.bringUp = 1 ∧ s.frozen = false ∧ s.m.packet = [] ∧ s.m.agenda = [(Instr.epochEnd, {})] ∧ ({} : Event).item.kind = 0 ∧
    t.m.bringUp = 1 ∧ t.frozen = false ∧ t.m.agenda = [] ∧ 22 < t.m.phase ∧ t.freezeDue = false ∧
    ({ t with mgmt := { t.mgmt with stopcyc := 0 } } : State).freezeDue = true := by decide +kernel
theorem witness_HaltedBringUpStops :
    let s := { base with m := { base.m with bringUp := 2 } }
    let x : InboxItem := { at_ := 0, item := item 0 0 0 [], other := some (.powerOn, {}) }
    s.m.bringUp = 2 ∧ (s.inbox.all fun i => (i.other.filter resets).isNone) = true ∧
    ({ s with inbox := [x] } : State).inbox = [x] ∧ x.other = some (.powerOn, {}) := by decide +kernel
/-- A state with bytes in its memories, in the canonical form. -/
theorem witness_EveryStepKeepsMemoriesCanonical :
    (placed 32 addWord).canonical = true ∧ (placed 32 addWord).mem ≠ [] ∧ Memory.wf (placed 32 addWord).mem = true ∧
    (match step (placed 32 addWord) with
      | .next _ => true
      | _ => false) = true := by decide +kernel

/-! ## Small runs: what one step writes -/

/-- A field of the first thread after one step. -/
def after {α : Type} (f : Thread → α) (s : State) : Option α :=
  match step s with
  | .next t => t.m.threads.head?.map f
  | _ => none
/-- v4, v8 and the instruction, at the placed address. -/
def with2 (x y : Word) (i : Instr) : State :=
  let s := match encode i with
    | [w] => placed 32 w.toNat
    | [w, z] => placed 64 (w.toNat + 2 ^ 32 * z.toNat)
    | [w, z, q] => placed 96 (w.toNat + 2 ^ 32 * z.toNat + 2 ^ 64 * q.toNat)
    | _ => base
  s.modify fun m => { m with threads := m.threads.map fun t => t.setRegs 8 [y] |>.setRegs 4 [x] }
def v5 (t : Thread) : Word := t.v.toArray.getD 5 0

/-- 0xFFFFFFFF + 3 wraps to 2, and the program counter stands after the word (R71, R104). -/
theorem test_add_wraps : after (fun t => (v5 t, t.pc)) (with2 0xFFFFFFFF 3 (.add (b 5 4 8))) = some (2, 0x10004) := by decide +kernel
/-- 5 - 7 is -2 modulo 2^32. -/
theorem test_sub_order : after v5 (with2 5 7 (.sub (b 5 4 8))) = some 0xFFFFFFFE := by decide +kernel
/-- 1.5 + 2.25 is 3.75. -/
theorem test_fadd : after v5 (with2 0x3FC00000 0x40100000 (.fadd (b 5 4 8))) = some 0x40700000 := by decide +kernel
/-- The high half of (-1) times (-1), with the type code .i32 (R104). -/
theorem test_mulh_signs : after v5 (with2 0xFFFFFFFF 0xFFFFFFFF (.mulh (b 5 4 8))) = some 0 := by decide +kernel
/-- The source is also the destination. -/
theorem test_source_is_destination : after (fun t => t.v.toArray.getD 4 0) (with2 6 2 (.sub (b 4 4 8))) = some 4 := by decide +kernel
/-- A branch of 16 words from the address of its first word (R65, R120). -/
theorem test_bra : after (·.pc) (with2 0 0 (.bra (e (imm := 16)))) = some 0x10040 := by decide +kernel

/-! ## The assembler and Ixsor -/

/-- Lines of text and the words they assemble to. -/
def assembles (l : List (String × List Word)) : Bool := l.all fun p => decide (Biras.assembleLine p.1.toList = some p.2)

/-- R76, R102: the encodings of `biras`. -/
theorem test_assembled_lines : assembles [
    ("(!p3) fadd.f32.rz v8, v9, g100", [0x88020240, 0xE400B480, 0]),
    ("ld.n32 v4, [gl: v2 + 0] !", [0x360202E0]),
    ("mad.i32 v7, v1, v2", [0x01038104]),
    ("cmp.lt.i32 p2, v4, v5", [0x0711040A]),
    ("swr fmode, v3", [0x15801106]),
    ("sel.i32 v3, v4, v5, p2", [0x8600C100, 0x05020000, 0])] = true := by decide +kernel

/-- R233, R237, R267, R334, R360, R436: encodings of other chapters. -/
theorem test_assembled_lines_of_chapters : assembles [
    ("tack.ld.n32 v10, [gl: g0 + 0x20]", [0x58C560F0, 0x20, 0]),
    ("atom.or.n32.dev v9, [gl: g0 + 0x1080], 0 !", [0xB6826005, 0x70000028, 0x1080]),
    ("ld.n32.acq.dev.rmt v9, [gl: g0 + 0x1080]", [0x96026004, 0x29, 0x1080]),
    ("mma bk0, z0, g16, g18, v30, 2", [0x9D642483, 0x1E000000, 0x10000]),
    ("rsmp v5, v4, g10, RND", [0x9C014101, 0x8A000000, 0]),
    ("bkdecl bk0, 2, 0", [0xDD001E00, 0x70000000, 0, 2, 0]),
    ("tb.test p2, [hs: v4 + 0x40], v7", [0x9A808104, 0x07000000, 0x40]),
    ("sys trap, 5", [0x5F8000F0, 5, 0]),
    ("fence.acq.dev 1, 1", [0x97000000, 0x9, 0x101])] = true := by decide +kernel

/-- R72 to R76: lines that `biras` rejects. -/
theorem test_rejected_lines :
    (["ADD.i32 v1, v2, v3", "add.f32 v1, v2, v3", "add.i32 v1, v2, v96", "ld.n64 v3, [gl: v2 + 0]", "fadd.f32 v1, v2, 1",
      "add.n32 v1 !, v2, v3", "(p1) vote.all p1, p2", "add.n32 v1, v2, 4294967296", "pmov p2, v3"].all fun l =>
      (Biras.assembleLine l.toList).isNone) = true := by decide +kernel

/-- R74: an FP number takes a constant code where its pattern has one, is rounded with RNE to FP32, and to each element of a
pair from its exact value. 16777217 lies midway between two FP32 numbers; 0.1 in BF16 is 0x3DCD. -/
theorem test_assembled_numbers : assembles [
    ("fadd.f32 v1, v2, 0.0f", [0x080082E0]),
    ("fadd.f32 v1, v2, -0.0f", [0x480082F0, 0x80000000, 0]),
    ("fadd.f32 v1, v2, 16777217.0f", [0x480082F0, 0x4B800000, 0]),
    ("hadd2.f16 v1, v2, 1.0f", [0x4C0082F0, 0x3C003C00, 0]),
    ("hadd2.bf16 v1, v2, 0.1f", [0x4C0082F1, 0x3DCD3DCD, 0])] = true := by decide +kernel

/-- The parts of lines. -/
def parts (l : List String) : Option (List (List Biras.Token)) := l.mapM fun s => Biras.lex [] s.toList

/-- R76: the code of the kernel `fill`, its record and its header, in the image of R78. -/
theorem test_fill_kernel :
    (((parts [".kernel fill", ".team 1, 1", ".role work, 1, 0, 0", ".attr det", ".gang g0, 0x10000", ".gang g1, 0",
        "shl.n32 v4, rank, 2", "mov.n32 v5, 0", "add.n64 v2, g0, v4", "mov.n32 v6, 7", "st.n32 [gl: v2 + 0], v6", "exit",
        ".endk"]).bind fun ls => (Biras.settle ls 2 []).bind Biras.Pass.image).map fun x =>
      let code := fieldAt x 0x18 4
      ((List.range 12).map fun k => fieldAt x (code + 4 * k) 4, code % 128, [0, 4, 0x14, 0x1C, 0x2C].map fun a => fieldAt x a 4,
        (launchOf (x.drop 0x40)).det, (launchOf (x.drop 0x40)).frames, fieldAt x (fieldAt x 0x24 4) 4)) =
    some ([0x438277F1, 2, 0, 0x0642F001, 0x8000A000, 0x04000060, 0, 0x46437801, 7, 0, 0x164302E0, 0x11400000], 0,
      [0x4B524C42, 1, 1, 48, 0xFFFFFFFF], true, 32, 0x10000) := by decide +kernel

/-- R430: `compute` stands at 0x64 and `c_wait` at 0x88. -/
theorem test_labels :
    ((parts [".kernel l6tile", "srd v1, role", "cmp.eq.n32 p1, v1, 0", "(!p1) bra compute", "supply:", "cmp.ne.n32 p1, lane, 0",
        "(p1) exit", "tb.init [hs: v0 + 0], 1", "tb.exp [hs: v0 + 0], 512", "fence.rel.dev 3, 4", "pstep 1",
        "tb.arr [hs: v0 + 0]", "exit", "compute: cmp.lt.n32 p1, rank, 64", "(!p1) bra c_wait", "bkdecl bk0, g10, g11",
        "c_wait:"]).map fun ls =>
      let given := [("compute".toList, Biras.Place.code 0x64), ("c_wait".toList, Biras.Place.code 0x88)]
      let p := Biras.runPass given ls
      (p.labels.drop 1 == given, p.bad)) = some (true, false) := by decide +kernel

/-- R181, R430: the third piece of `l6tile`. -/
theorem test_piece :
    ((parts ["stage=1, tb=0x0000, from=gl:0x40000080, dims=2, ext=128x64, stride=256, to=hs:0x3000, bytes=8192"]).bind fun ls =>
      (Biras.piece { labels := [], consts := [] } (Biras.operands (ls.getD 0 []))).map fun x =>
        ([0, 8, 0x10].map fun a => fieldAt x.1 a 8, [0x18, 0x1C, 0x20, 0x24, 0x28, 0x2C, 0x30, 0x34, 0x38].map fun a => fieldAt x.1 a 4,
          [0x3C, 0x3D].map fun a => fieldAt x.1 a 1, x.1.length)) =
    some ([0x40000080, 0x3000, 0], [128, 64, 1, 256, 0, 128, 8192, 0, 8192], [1, 4], 64) := by decide +kernel

/-- R77: zero bytes to a multiple of 4, then `nop`, in code; a `.float` list; a 64-bit `.gang` value. -/
theorem test_directives :
    Biras.padding true 8 2 = [0, 0] ++ wordBytes 0x11800000 ∧ Biras.padding false 8 2 = List.replicate 6 0 ∧
    (parts ["0.5, 3, 0x40000000"]).map (fun ls => (Biras.operands (ls.getD 0 [])).map
      (Biras.floatDatum { labels := [], consts := [] })) =
      some [some (wordBytes 0x3F000000), some (wordBytes 0x40400000), some (wordBytes 0x40000000)] ∧
    Biras.gangValues 4 0x123456789 none =
      some [{ reg := 4, bits := 0x23456789, role := none }, { reg := 5, bits := 1, role := none }] ∧
    Biras.gangValues 5 0x123456789 none = none ∧
    Biras.gangValues 5 (-1) none = some [{ reg := 5, bits := 0xFFFFFFFF, role := none }] := by decide +kernel

/-- The names and the line of AssembledInstructions: a guard, a marker and a literal that the loader relocates. -/
theorem witness_AssembledInstructions :
    (Biras.instruction { labels := [("table".toList, .data 8)], consts := [] } 0
      [.punct '(', .word "p1".toList, .punct ')', .word "mov.n64".toList, .word "v2".toList, .punct ',', .word "table".toList,
        .punct '!']) = some { words := [0xE6409E00, 0x00001060, 0, 8, 0], reloc := some (12, true) } := by decide +kernel

/-- Images and runs of IxsorFindsDifferences: runs that part at cycle 7, in bit 9 of section 1. -/
def runImage (other : Bool) (c : Nat) : Ixsor.Sections :=
  { mapid := 3, sections := [[1, 2], [0, if other && 7 ≤ c then 2 else 0]] }
theorem witness_IxsorFindsDifferences :
    runImage false 5 = runImage true 5 ∧ runImage false 12 ≠ runImage true 12 ∧
    Ixsor.divergence (runImage false) (runImage true) 5 12 = (7, some [{ sect := 1, bit := 9 }]) ∧
    (∀ x y, 5 ≤ x → x ≤ y → y ≤ 12 → runImage false x ≠ runImage true x → runImage false y ≠ runImage true y) := by
  refine ⟨by decide +kernel, by decide +kernel, by decide +kernel, fun x y _ _ _ h => ?_⟩
  have hx : 7 ≤ x := by
    rcases Nat.lt_or_ge x 7 with h' | h'
    · exact absurd (by simp [runImage, Nat.not_le.2 h']) h
    · exact h'
  simp [runImage, show 7 ≤ y by omega]

end Sys2Proof.Tests
end

section
/-! PROOFS. REGISTER_WRITE (R2): which of the four ways a write goes, what each register keeps of the dword, and which offsets
keep nothing. -/

namespace Sys2Proof.Machine

/-! ## Halves and fields of a register -/

/-- A bit of a pair stands in its low half or in its high one (R26). -/
theorem getElem_pair (lo hi : Word) {i : Nat} (h : i < 64) :
    (pair lo hi)[i] = if _ : i < 32 then lo[i] else hi[i - 32] :=
  BitVec.getElem_append (x := hi) (y := lo) h

/-- The mask of a register's high dword, bit by bit. -/
theorem getElem_highMask {i : Nat} (h : i < 64) : (0xFFFFFFFF00000000 : Dword)[i] = decide (32 ≤ i) := by
  rw [show (0xFFFFFFFF00000000 : Dword) = pair 0 (BitVec.allOnes 32) by decide, getElem_pair]
  split
  · rw [decide_eq_false (by omega)]
    exact BitVec.getElem_zero _
  · rw [BitVec.getElem_allOnes, decide_eq_true (by omega)]

/-- The low dword of a register replaced, the high one as it stood. -/
theorem setHalf_false (x : Dword) (w : Word) : setHalf x false w = (x &&& 0xFFFFFFFF00000000) ||| w.zeroExtend 64 := by
  ext i h
  rw [BitVec.getElem_or, BitVec.getElem_and, getElem_highMask h, setHalf, if_neg Bool.false_ne_true, getElem_pair]
  by_cases hlow : i < 32
  · simp [hlow, show ¬ 32 ≤ i by omega]
  · simp [hlow, show 32 + (i - 32) = i by omega, show 32 ≤ i by omega, BitVec.getLsbD_eq_getElem h]

/-- A field at bit 0 is a remainder; the power is given as the numeral that the statement writes. -/
theorem wordBits_zero (w : Word) {n k : Nat} (h : 2 ^ n = k) : wordBits w 0 n = w.toNat % k := by simp [wordBits, h]

/-! ## Which way a write goes -/

theorem exec_registerWrite (s : State) : exec .registerWrite s = execRegisterWrite s := rfl

theorem exec_registerWrite_driver {s : State} (hf : s.m.ev.flag = true) : exec .registerWrite s = .next s.driverWrite := by
  simp [exec_registerWrite, execRegisterWrite, hf]

theorem exec_registerWrite_debug {s : State} (hf : s.m.ev.flag = false) (hs : s.m.ev.space = .bar0)
    (ha : 0x7000 ≤ s.m.ev.addr.toNat ∧ s.m.ev.addr.toNat < 0x8000) : exec .registerWrite s = .next s.debugStore := by
  simp [exec_registerWrite, execRegisterWrite, hf, hs, ha]

theorem exec_registerWrite_bar0 {s : State} (hf : s.m.ev.flag = false) (hs : s.m.ev.space = .bar0)
    (ha : ¬ (0x7000 ≤ s.m.ev.addr.toNat ∧ s.m.ev.addr.toNat < 0x8000)) :
    exec .registerWrite s = .next (s.storeBar s.m.ev.addr.toNat
      (mergeWord (s.barStored s.m.ev.addr.toNat) (lowHalf s.m.ev.x) s.m.ev.size)) := by
  simp [exec_registerWrite, execRegisterWrite, hf, hs, ha]

theorem exec_registerWrite_management {s : State} (hf : s.m.ev.flag = false) (hs : s.m.ev.space = .management) :
    exec .registerWrite s = .next (s.storeManagement s.m.ev.addr.toNat
      (mergeWord (s.managementWord s.m.ev.addr.toNat) (lowHalf s.m.ev.x) s.m.ev.size)) := by
  simp [exec_registerWrite, execRegisterWrite, hf, hs]

theorem State.debugStore_at {s : State} {o : Nat} (ho : s.m.ev.addr.toNat = o) : s.debugStore = s.modify fun m =>
    { m with debugRegs := Memory.writeBytes m.debugRegs (o - 0x7000) m.ev.item.payload } := by
  simp only [State.debugStore, State.modify, ho]

/-! ## What the driver sets -/

theorem State.driverWrite_bar0 {s : State} (h : s.m.ev.index = 0) :
    s.driverWrite = s.modify fun m => { m with bar0 := s.m.ev.x } := by simp [State.driverWrite, h]

theorem State.driverWrite_bar2 {s : State} (h : s.m.ev.index = 2) :
    s.driverWrite = s.modify fun m => { m with bar2 := s.m.ev.x } := by simp [State.driverWrite, h]

theorem State.driverWrite_bar4 {s : State} (h : s.m.ev.index = 4) :
    s.driverWrite = s.modify fun m => { m with bar4 := s.m.ev.x } := by simp [State.driverWrite, h]

theorem State.driverWrite_ctxbase {s : State} (h : s.m.ev.index = 5) :
    s.driverWrite = s.modify fun m => { m with ctxbase := s.m.ev.x } := by simp [State.driverWrite, h]

/-- A layout that is no layout of the module is not taken (R15). -/
theorem State.driverWrite_layout {s : State} (h : s.m.ev.index = 6) :
    s.driverWrite = if layoutGood (s.m.ev.item.payload.map (·.toNat)) then
      s.modify fun m => { m with nextLayout := s.m.ev.item.payload.map (·.toNat) } else s := by
  cases good : layoutGood (s.m.ev.item.payload.map (·.toNat))
  · simp [State.driverWrite, h, good]
    rfl
  · simp [State.driverWrite, h, good]

/-- A new allocation lets the Page Requests go that waited for it (R369). -/
theorem State.driverWrite_priAlloc {s : State} (h : s.m.ev.index = 7) :
    s.driverWrite = (s.modify fun m => { m with page := { m.page with priAlloc := (lowHalf s.m.ev.x).toNat } }).sendPages := by
  simp [State.driverWrite, h]

/-! ## The stamp log and the page registers -/

/-- The control word and the registers from SLOGTAIL on are the device's. -/
theorem StampLog.store_device {x : Nat} (h : x < 8 ∨ 0x20 ≤ x) (g : StampLog) (w : Word) : g.store x w = g := by
  unfold StampLog.store
  split
  case h_4 => rfl
  all_goals omega

/-- HINTTAIL and HINTDROP are the device's, and 0x0C is unassigned. -/
theorem PageUnit.store_device {x : Nat} (h : x = 0x0C ∨ 0x20 ≤ x) (p : PageUnit) (w : Word) : p.store x w = p := by
  unfold PageUnit.store
  split
  case h_8 => rfl
  all_goals omega

/-! ## The ranges of BAR0 -/

theorem State.storeBar_page {o : Nat} (h : 0x3000 ≤ o ∧ o < 0x3028) (s : State) (w : Word) :
    s.storeBar o w = s.modify fun m => { m with page := m.page.store (o - 0x3000) w } := by
  obtain ⟨hl, hu⟩ := h
  simp [State.storeBar, hl, hu, show o ≠ 0x800 by omega, show o ≠ 0x804 by omega]

theorem State.storeBar_slog {o : Nat} (h : 0x4000 ≤ o ∧ o < 0x4040) (s : State) (w : Word) :
    s.storeBar o w = { s with slog := s.slog.store (o - 0x4000) w } := by
  obtain ⟨hl, hu⟩ := h
  simp [State.storeBar, hl, hu, show o ≠ 0x800 by omega, show o ≠ 0x804 by omega, show ¬ o < 0x3028 by omega]

theorem State.storeBar_eth {o : Nat} (h : 0x5000 ≤ o ∧ o < 0x5200) (s : State) (w : Word) :
    s.storeBar o w = Claims.withEth s (37 + (o - 0x5000) / 64) fun e =>
      e.store (((s.link? (37 + (o - 0x5000) / 64)).map (·.st)).getD 0 == 0) (o % 64) w := by
  obtain ⟨hl, hu⟩ := h
  simp [State.storeBar, Claims.withEth, updBy, hl, hu, show o ≠ 0x800 by omega, show o ≠ 0x804 by omega,
    show ¬ o < 0x3028 by omega, show ¬ o < 0x4040 by omega]

theorem State.storeBar_routes {o : Nat} (h : 0x8000 ≤ o ∧ o < 0x8480) (s : State) (w : Word) :
    s.storeBar o w =
      { s with routes := Memory.writeBytes s.routes (o - 0x8000) ((bytesOfWord w).map (· &&& 0x3F)) } := by
  obtain ⟨hl, hu⟩ := h
  simp [State.storeBar, hl, hu, show o ≠ 0x800 by omega, show o ≠ 0x804 by omega, show ¬ o < 0x3028 by omega,
    show ¬ o < 0x4040 by omega, show ¬ o < 0x5200 by omega, show o ≠ 0x6000 by omega, show o ≠ 0x6018 by omega]

/-- QTBASE holds no bits below 12 (R277). -/
theorem State.storeBar_qtbase_low (s : State) (w : Word) : s.storeBar 0x800 w = s.modify fun m =>
    { m with qtbase := (m.qtbase &&& 0xFFFFFFFF00000000) ||| ((w &&& 0xFFFFF000).zeroExtend 64) } := by
  simp only [← setHalf_false]
  rfl

theorem State.storeBar_hintctl (s : State) (w : Word) : s.storeBar 0x3018 w = s.modify fun m =>
    { m with page := { m.page with hinten := w.getLsbD 16, hintthr := w.toNat % 65536 } } := by
  simp only [← wordBits_zero w (show 2 ^ 16 = 65536 by decide)]
  rfl

theorem State.storeBar_modnum (s : State) (w : Word) : s.storeBar 0x6000 w = { s with modnum := w.toNat % 2048 } := by
  simp only [← wordBits_zero w (show 2 ^ 11 = 2048 by decide)]
  rfl

theorem State.storeBar_refmod (s : State) (w : Word) :
    s.storeBar 0x6018 w = s.modify fun m => { m with refmod := w.toNat % 2048 } := by
  simp only [← wordBits_zero w (show 2 ^ 11 = 2048 by decide)]
  rfl

/-- An aligned offset that is neither listed nor in a range of its own keeps nothing. -/
theorem State.storeBar_other {o : Nat} (h4 : o % 4 = 0) (hp : o ∉ Claims.plainBar0)
    (he : ¬ (0x5000 ≤ o ∧ o < 0x5200)) (hr : ¬ (0x7000 ≤ o ∧ o < 0x8480)) (s : State) (w : Word) :
    s.storeBar o w = s := by
  simp only [Claims.plainBar0, List.mem_cons, List.not_mem_nil, or_false, not_or] at hp
  by_cases hpage : 0x3000 ≤ o ∧ o < 0x3028
  · rw [State.storeBar_page hpage]
    simp only [PageUnit.store_device (x := o - 0x3000) (by omega)]
    rfl
  by_cases hslog : 0x4000 ≤ o ∧ o < 0x4040
  · rw [State.storeBar_slog hslog, StampLog.store_device (by omega)]
  · simp only [State.storeBar, Bool.and_eq_true, decide_eq_true_eq, beq_iff_eq, hpage, hslog, he, if_false]
    simp [hp, show ¬ (0x8000 ≤ o ∧ o < 0x8480) by omega]

/-! ## The management space -/

theorem State.storeManagement_slog {o : Nat} (h : 0x6000 ≤ o ∧ o < 0x6040) (s : State) (w : Word) :
    s.storeManagement o w = { s with slog := s.slog.store (o - 0x6000) w } := by
  simp [State.storeManagement, h]

/-- An aligned offset that is not listed keeps nothing. -/
theorem State.storeManagement_other {o : Nat} (h4 : o % 4 = 0) (hp : o ∉ Claims.plainManagement) (s : State) (w : Word) :
    s.storeManagement o w = s := by
  simp only [Claims.plainManagement, List.mem_cons, List.not_mem_nil, or_false, not_or] at hp
  by_cases hslog : 0x6000 ≤ o ∧ o < 0x6040
  · rw [State.storeManagement_slog hslog, StampLog.store_device (by omega)]
  · simp only [State.storeManagement, Bool.and_eq_true, decide_eq_true_eq, hslog, if_false]
    split
    case h_13 => rfl
    all_goals omega

/-- PWRBUD is held between 2400 and 4000 (R421). -/
theorem State.storeManagement_pwrbud (s : State) (w : Word) : s.storeManagement 0x5000 w = s.modify fun m =>
    { m with pwrbud := if w.toNat < 2400 then 2400 else if 4000 < w.toNat then 4000 else w.toNat } := by
  have clamp : min (max w.toNat 2400) 4000 = if w.toNat < 2400 then 2400 else if 4000 < w.toNat then 4000 else w.toNat := by
    split_ifs <;> omega
  rw [← clamp]
  rfl

end Sys2Proof.Machine

namespace Sys2Proof.Claims
open Sys2Proof.Machine

/-- Settles O35: the write goes one of four ways, and there each listed offset evaluates to its register's own update; the
offsets that are not listed are those of which the two store functions keep nothing. -/
theorem registerWrites : Obligations.RegisterWrites := by
  intro s o ho h4 w high page mgmt slog
  refine ⟨fun hf hs => ?_, fun hf hs => ?_, fun hf => ?_⟩
  · have hw : w = mergeWord (s.barStored o) (lowHalf s.m.ev.x) s.m.ev.size := by simp only [w, hs, if_true]
    have kept {u : State} (ha : ¬ (0x7000 ≤ o ∧ o < 0x8000)) (hu : s.storeBar o w = u) :
        exec .registerWrite s = .next u := by
      subst ho
      rw [exec_registerWrite_bar0 hf hs ha, ← hw, hu]
    clear_value w
    refine ⟨?qtbaseLow, ?qtbaseHigh, ?pgmvaddr, ?pgmvctl, ?hintbaseLow, ?hintbaseHigh, ?hintctl, ?hinthead, ?slogbase,
      ?slogsize, ?sloghead, ?ethernet, ?modnum, ?refmod, ?debug, ?routes, ?other⟩
    case qtbaseLow =>
      rintro rfl
      exact kept (by omega) (s.storeBar_qtbase_low w)
    case qtbaseHigh | pgmvctl | hintbaseLow | hintbaseHigh | hinthead =>
      rintro rfl
      exact kept (by omega) rfl
    case pgmvaddr | slogbase | slogsize | sloghead => rintro (rfl | rfl) <;> exact kept (by omega) rfl
    case hintctl =>
      rintro rfl
      exact kept (by omega) (s.storeBar_hintctl w)
    case ethernet => exact fun hl hu => kept (by omega) (State.storeBar_eth ⟨hl, hu⟩ s w)
    case modnum =>
      rintro rfl
      exact kept (by omega) (s.storeBar_modnum w)
    case refmod =>
      rintro rfl
      exact kept (by omega) (s.storeBar_refmod w)
    case debug =>
      intro hl hu
      rw [exec_registerWrite_debug hf hs (ho ▸ ⟨hl, hu⟩), State.debugStore_at ho]
    case routes => exact fun hl hu => kept (by omega) (State.storeBar_routes ⟨hl, hu⟩ s w)
    case other => exact fun hp he hr => kept (by omega) (State.storeBar_other h4 hp he hr s w)
  · have hw : w = mergeWord (s.managementWord o) (lowHalf s.m.ev.x) s.m.ev.size := by
      simp only [w, hs, reduceCtorEq, if_false]
    have kept {u : State} (hu : s.storeManagement o w = u) : exec .registerWrite s = .next u := by
      subst ho
      rw [exec_registerWrite_management hf hs, ← hw, hu]
    clear_value w
    refine ⟨?frzctl, ?imgbase, ?imgsize, ?elogbase, ?elogsize, ?eloghead, ?csel, ?pwrbud, ?slogbase, ?slogsize, ?sloghead,
      ?other⟩
    case frzctl | elogsize | eloghead =>
      rintro rfl
      exact kept rfl
    case imgbase | imgsize | elogbase | csel | slogbase | slogsize | sloghead => rintro (rfl | rfl) <;> exact kept rfl
    case pwrbud =>
      rintro rfl
      exact kept (s.storeManagement_pwrbud w)
    case other => exact fun hp => kept (State.storeManagement_other h4 hp s w)
  · have sets {u : State} (hu : s.driverWrite = u) : exec .registerWrite s = .next u := by
      rw [exec_registerWrite_driver hf, hu]
    refine ⟨fun h => sets (State.driverWrite_bar0 h), fun h => sets (State.driverWrite_bar2 h),
      fun h => sets (State.driverWrite_bar4 h), fun h => sets (State.driverWrite_ctxbase h),
      fun h => sets (State.driverWrite_layout h), fun h hl => sets ?_, fun h => sets (State.driverWrite_priAlloc h)⟩
    rw [State.driverWrite_layout h, show s.m.ev.item.payload.map (·.toNat) = [4, 4] from hl]
    exact if_pos (by decide)

end Sys2Proof.Claims
end

section
/-! PROOFS. What a step does first: the row at the head of the agenda, the next part, or the stop of a halted bring-up; the
resets, and the state after reset (R20, R396, R398, R428, R429, R460). -/

namespace Sys2Proof.Machine

/-! ## Module reset -/

theorem exec_moduleReset (s : State) : exec .moduleReset s = execModuleReset s := rfl

/-- Writing back a line changes memory and its poison alone. -/
theorem State.flushL2_eq (s : State) (l : L2Line) :
    s.flushL2 l = { s with mem := (s.flushL2 l).mem, memPoison := (s.flushL2 l).memPoison } := by
  unfold State.flushL2
  refine List.foldlRecOn (motive := fun t : State => t = { s with mem := t.mem, memPoison := t.memPoison }) _ _ rfl
    fun t ht i _ => ?_
  split
  · rw [ht]
  · exact ht

/-- Writing back lines changes memory and its poison alone. -/
theorem State.flushLines_eq (s : State) (ls : List L2Line) :
    let t := ls.foldl (fun s l => s.flushL2 l) s
    t = { s with mem := t.mem, memPoison := t.memPoison } :=
  List.foldlRecOn (motive := fun t : State => t = { s with mem := t.mem, memPoison := t.memPoison }) _ _ rfl
    fun t ht l _ => by rw [State.flushL2_eq, ht]

/-- What a module reset makes of the state, but for the memory that the lines of the slices are written back to. -/
theorem State.resetRegisters_eq (s : State) : s.resetRegisters =
    { s with
      mem := s.resetRegisters.mem, memPoison := s.resetRegisters.memPoison
      m := Module.fresh s.m.nextLayout, mgmt := s.mgmt.afterReset, modnum := 0, routes := [], hcnt := [], nonce := []
      report := [], frozen := false } := by
  have h := s.flushLines_eq (s.m.l2.filter (·.home))
  simp only [State.resetRegisters]
  rw [h]

/-- With no line in the slices, memory and its poison stand. -/
theorem State.resetRegisters_memory {s : State} (h : s.m.l2 = []) :
    s.resetRegisters.mem = s.mem ∧ s.resetRegisters.memPoison = s.memPoison := by
  simp [State.resetRegisters, h]

/-- Every port trains after the enabling of all (R429). -/
theorem trainPorts_fresh (layout : List Nat) :
    trainPorts (Module.fresh layout).links = (List.range 45).map fun n => { LinkPort.fresh n with st := 1 } :=
  List.map_map

/-- MODULE_RESET is one change of the module after the registers have taken their values: it is held in reset, halted at the image
that the check refuses, or idle with its ports training (R428, R429). -/
theorem execModuleReset_eq (s : State) : ∃ f, exec .moduleReset s = .next (s.resetRegisters.modify f) ∧
    f (Module.fresh s.m.nextLayout) = (if s.m.ev.flag then { Module.fresh s.m.nextLayout with agenda := [], bringUp := 3 }
      else match badFirmware with
        | some k => { Module.fresh s.m.nextLayout with agenda := [], bringUp := 2, failing := k }
        | none => { Module.fresh s.m.nextLayout with
            agenda := [], bringUp := 1, links := (List.range 45).map fun n => { LinkPort.fresh n with st := 1 } }) := by
  rw [exec_moduleReset, execModuleReset]
  split
  · exact ⟨_, rfl, rfl⟩
  · cases badFirmware with
    | some k => exact ⟨_, rfl, rfl⟩
    | none => exact ⟨_, rfl, by rw [← trainPorts_fresh]⟩

/-! ## The attestation report -/

/-- Drawing an open value changes the counter of open values alone. -/
theorem State.freeBytes_eq (s : State) (n : Nat) :
    (s.freeBytes n).2 = s.modify fun m => { m with free := (s.freeBytes n).2.m.free } := by
  induction n generalizing s with
  | zero => rfl
  | succ n ih => 
    show (s.drawFree.2.freeBytes n).2 = s.modify fun m => { m with free := (s.drawFree.2.freeBytes n).2.m.free }
    rw [ih]
    rfl

theorem State.freeBytes_threads (s : State) (n : Nat) : (s.freeBytes n).2.m.threads = s.m.threads := by
  rw [State.freeBytes_eq, State.modify_m]

theorem State.freeBytes_mem (s : State) (n : Nat) : (s.freeBytes n).2.mem = s.mem := by
  rw [State.freeBytes_eq, State.modify_mem]

theorem State.freeBytes_length (s : State) (n : Nat) : (s.freeBytes n).1.length = n := by
  induction n generalizing s with
  | zero => rfl
  | succ n ih => exact congrArg (· + 1) (ih s.drawFree.2)

/-! ## A halted bring-up -/

theorem State.due_halted {s : State} (h : s.m.bringUp = 2) : s.due = s.haltedDue := by
  simp [State.due, h]

/-- A row that carries no item acts with its operands. -/
theorem State.admitRow_noItem (s : State) {e : Event} (h : e.item.kind = 0) :
    s.admitRow e = s.modify fun m => { m with ev := e } := by
  simp [State.admitRow, State.stamps, h]

theorem step_event {s t : State} {i : Instr} (h : s.due = .event i t) : step s = exec i t := by
  rw [step, h]

theorem step_move {s t : State} (h : s.due = .move t) : step s = .next t := by
  rw [step, h]

theorem step_halt {s : State} (h : s.due = .halt) : step s = .fault .bringUpHalted := by
  rw [step, h]

/-! ## A running module without a packet -/

/-- A module that runs takes the row at the head of its agenda. -/
theorem State.due_row {s : State} {i : Instr} {e : Event} {rest : List (Instr × Event)} (hb : s.m.bringUp = 1)
    (hf : s.frozen = false) (hp : s.m.packet = []) (ha : s.m.agenda = (i, e) :: rest) :
    s.due = .event i ((s.modify fun m => { m with agenda := rest }).admitRow e) := by
  simp only [State.due, State.runningDue, State.nextRow, hb, hf, hp, ha]
  rfl

/-- With no row left it goes on to the next part. -/
theorem State.due_part {s : State} (hb : s.m.bringUp = 1) (hf : s.frozen = false) (hp : s.m.packet = [])
    (ha : s.m.agenda = []) : s.due = .move s.advance := by
  simp only [State.due, State.runningDue, State.nextRow, hb, hf, hp, ha]
  rfl

/-- After the last part the module freezes where a freeze is due, or the next cycle begins. -/
theorem State.advance_last {s : State} (h : lastPhase < s.m.phase) : s.advance =
    if s.freezeDue then s.modify fun m => { m with agenda := [(.freeze, noOperands)] } else s.nextCycle := by
  simp [State.advance, Nat.not_le.2 h]

end Sys2Proof.Machine

namespace Sys2Proof.Claims
open Sys2Proof.Machine

/-- R20, R396, R398, R429, R460: the resets, the attestation report and the refresh tick. -/
theorem resetEvents : ResetEvents := by
  intro s bad nonce body
  refine ⟨rfl, ?reset, ?report, rfl⟩
  case reset =>
    obtain ⟨f, hexec, hm⟩ := execModuleReset_eq s
    have hbad : badFirmware = bad := by simp only [badFirmware, firmwareGood, bad]
    rw [hbad] at hm
    clear_value bad
    refine ⟨_, hexec, ?_, ?_⟩
    · rw [State.modify_m, State.resetRegisters_eq]
      cases bad <;> exact hm
    · have hmem : s.m.l2 = [] → _ := State.resetRegisters_memory (s := s)
      rw [State.resetRegisters_eq] at hmem ⊢
      exact ⟨rfl, rfl, rfl, rfl, rfl, rfl, rfl, rfl, rfl, rfl, rfl, rfl, rfl, rfl, hmem⟩
  case report =>
    exact ⟨_, _, s.freeBytes_length saltBytes, s.freeBytes_threads saltBytes, s.freeBytes_mem saltBytes, rfl⟩

theorem haltedBringUpStops : HaltedBringUpStops := by
  intro s hb
  refine ⟨fun hno => step_halt ?_, fun x e hin hx he => ?_⟩
  · have hpins : s.inbox.findSome? (fun i => i.other.filter resets) = none :=
      List.findSome?_eq_none_iff.2 fun i hi => Option.isNone_iff_eq_none.1 (List.all_eq_true.1 hno i hi)
    rw [State.due_halted hb, State.haltedDue, hpins]
  · have hpin : x.other.filter resets = some (.powerOn, e) := by rw [hx]; rfl
    have hdue : s.due = .event .powerOn (({ s with inbox := [] } : State).modify fun m => { m with ev := e }) := by
      rw [State.due_halted hb, ← State.admitRow_noItem _ he]
      simp only [State.haltedDue, hin, List.findSome?_cons, List.findIdx_cons, hpin]
      rfl
    rw [step_event hdue]
    rfl

/-- Settles O55: the resets by what they make of the registers, and the halted bring-up by what its step looks for. That memory
and its poison stand over a module reset is the model's choice (log entry 2). -/
theorem resetAndHalt : Obligations.ResetAndHalt := ⟨resetEvents, haltedBringUpStops⟩

/-- Settles O54: a module that runs without a packet takes the row at the head of its agenda, or goes on to the next part. -/
theorem stepRunsAgenda : Obligations.StepRunsAgenda := by
  intro s hb hf hp
  refine ⟨fun i e rest ha he => ?_, fun ha hlast => ?_⟩
  · rw [step_event (State.due_row hb hf hp ha), State.admitRow_noItem _ he]
    rfl
  · rw [step_move (State.due_part hb hf hp ha), State.advance_last hlast]
    exact ⟨fun h => by rw [h]; rfl, fun h => by rw [h]; rfl⟩

theorem resetState : ResetState := by
  refine ⟨rfl, rfl, rfl, rfl, rfl, rfl, rfl, rfl, by decide, fun _ => rfl, rfl, by decide, rfl, rfl, rfl, rfl, rfl, rfl, rfl,
    rfl, rfl, rfl, rfl, rfl, rfl, rfl, rfl, rfl, rfl, rfl, rfl, fun _ => rfl⟩

/-- Settles O56: each register of the reset state evaluates to its value. The values that the spec leaves open are the model's
choice (log entries 1 and 2). -/
theorem resetStateAndInvariant : Obligations.ResetStateAndInvariant := ⟨resetState, rfl, rfl⟩

end Sys2Proof.Claims
end

section
/-! PROOFS. PICKER_TICK (R311): a tick leaves every thread where it stands; and two threads of one name, of which a tick parks the
one but the name finds the other. -/

namespace Sys2Proof.Machine

/-! ## A tick moves no thread -/

/-- The threads by name, each with its program counter. -/
def State.places (s : State) : List (ThreadRef × Dword) := s.m.threads.map fun t => (t.ref, t.pc)

theorem State.places_congr {s t : State} (h : t.m.threads = s.m.threads) : t.places = s.places :=
  congrArg (List.map _) h

/-- The program counter of a name is that of its first entry. -/
theorem State.thread?_pc (s : State) (r : ThreadRef) :
    (s.thread? r).map (·.pc) = (s.places.find? (·.1 == r)).map (·.2) := by
  simp only [State.thread?, State.places, List.find?_map, Option.map_map]
  rfl

/-- A change of threads that keeps their names and program counters leaves every thread where it stands. -/
theorem State.places_updThreads (s : State) (p : Thread → Bool) {f : Thread → Thread}
    (hf : ∀ t, (f t).ref = t.ref ∧ (f t).pc = t.pc) :
    (s.modify fun m => { m with threads := updBy p f m.threads }).places = s.places := by
  simp only [State.places, State.modify_m, updBy, List.map_map]
  refine List.map_congr_left fun t _ => ?_
  simp only [Function.comp]
  split
  · rw [(hf t).1, (hf t).2]
  · rfl

/-- Steps that each leave every thread where it stands do so together. -/
theorem State.places_foldl {α : Type} {f : State → α → State} (hf : ∀ s a, (f s a).places = s.places) (l : List α) (s : State) :
    (l.foldl f s).places = s.places :=
  List.foldlRecOn (motive := fun t : State => t.places = s.places) l f rfl fun t ht a _ => (hf t a).trans ht

theorem State.breakHalts_places (s : State) (q : QRef) : (s.breakHalts q).places = s.places := by
  refine State.places_foldl (fun s g => ?_) _ s
  dsimp only
  split
  · rfl
  · refine s.places_updThreads _ fun t => ?_
    split_ifs <;> exact ⟨rfl, rfl⟩

theorem State.countSkips_places (s : State) (q : QRef) : (s.countSkips q).places = s.places := by
  refine State.places_foldl (fun s g => ?_) _ s
  refine s.places_updThreads _ fun _ => ?_
  exact ⟨rfl, rfl⟩

theorem State.activity_m_threads (s : State) (kid kind n : Nat) : (s.activity kid kind n).m.threads = s.m.threads := by
  unfold State.activity
  cases s.kernel? kid <;> rfl

theorem State.issuePacket_places (s : State) (lead : Gang) (pc : Dword) (pkt : List Thread) (n : Nat) :
    (s.issuePacket lead pc pkt n).places = s.places := by
  let clear : Thread → Thread := fun t => { t with pass := 0, pstepWait := none }
  let counted := ((s.count lead.hub 1 1).count lead.hub 2 pkt.length).count lead.hub 3 n
  let paid := (counted.activity lead.ref.kid 0 1).activity lead.ref.kid 1 pkt.length
  have hpaid : paid.m.threads = s.m.threads := by
    simp only [paid, counted, State.activity_m_threads, State.count_m]
  calc (s.issuePacket lead pc pkt n).places
      = (paid.modify fun m => { m with threads := updBy (fun t => pkt.any (·.ref == t.ref)) clear m.threads }).places := rfl
    _ = paid.places := paid.places_updThreads _ fun _ => ⟨rfl, rfl⟩
    _ = s.places := State.places_congr hpaid

theorem State.awaitXlat_places (s : State) (hub core ctx va : Nat) (r : ThreadRef) (pc : Dword) (n : Need) :
    (s.awaitXlat hub core ctx va r pc n).places = s.places := by
  have hpark : (s.updThread r fun x => x.park 4 .translation).places = s.places :=
    s.places_updThreads _ fun _ => ⟨rfl, rfl⟩
  rw [← hpark]
  refine State.places_congr ?_
  simp only [State.awaitXlat]
  split <;> simp [State.updTlb]

theorem State.awaitFetch_places (s : State) (lead : Gang) (pkt : List Thread) (va : Nat) :
    (s.awaitFetch lead pkt va).places = s.places := by
  refine State.places_foldl (fun s t => ?_) _ s
  rw [State.awaitXlat_places]
  exact s.places_updThreads _ fun _ => ⟨rfl, rfl⟩

/-- The threads that are passed over, and the gangs' counts of waiting, change no place. -/
theorem State.passOver_places (s : State) (q : QRef) (n : Nat) (p : Thread → Bool) (waiting : Gang → Bool) (stamp : Gang → Gang) :
    ((((s.countSkips q).count q.hub 15 n).modify fun m => { m with
      threads := updBy p (fun t => { t with pass := Nat.min (t.pass + 1) 256 }) m.threads }).modify fun m => { m with
        gangs := updBy waiting stamp m.gangs }).places = s.places := by
  let counted := (s.countSkips q).count q.hub 15 n
  have hcounted : counted.places = s.places := by
    rw [← s.countSkips_places q]
    exact State.places_congr (congrArg Module.threads (State.count_m _ _ _ _))
  refine (counted.places_updThreads p fun _ => ?_).trans hcounted
  exact ⟨rfl, rfl⟩

/-- An issue tick leaves every thread where it stands. -/
theorem State.tick_places (s : State) (q : QRef) : (s.tick q).places = s.places := by
  rw [← s.breakHalts_places q]
  simp only [State.tick]
  split
  · exact State.countSkips_places _ q
  · split
    · rw [State.awaitFetch_places]
      exact State.passOver_places _ q _ _ _ _
    · rw [State.issuePacket_places]
      exact State.passOver_places _ q _ _ _ _

/-- PICKER_TICK in its first use, a tick of a quarter, leaves every thread where it stands. -/
theorem State.pickerTick_places {s t : State} (hf : s.m.ev.flag = false) (h : exec .pickerTick s = .next t) :
    t.places = s.places := by
  have hexec : exec .pickerTick s = execPickerTick s := rfl
  simp only [hexec, execPickerTick, hf, Bool.false_eq_true, if_false, Host.Outcome.next.injEq] at h
  rw [← h, State.tick_places]
  rfl

end Sys2Proof.Machine

namespace Sys2Proof.Claims
open Sys2Proof.Machine

/-! ## Two threads of one name -/

/-- The one name. -/
def twinRef : ThreadRef := { kid := 0, team := 0, gang := 0, lane := 0 }
def twinGang : Gang := State.reset.newGang twinRef.gangRef 0 0 0 0 0 (0, 0)
def twin (pc : Dword) : Thread := Thread.fresh twinRef pc 0 0 0
/-- A module that runs, in a tick of the quarter of a gang with two READY threads of one name, at 4 and at 0. -/
def twins : State :=
  State.reset.modify fun m => { m with agenda := [], bringUp := 1, gangs := [twinGang], threads := [twin 4, twin 0] }
def twinQuarter : QRef := { hub := 0, core := 0, quarter := 0 }
/-- The tick is noted, as the statement has it. -/
def twinsAtIssue : State := (twins.modify fun m => { m with ticked := m.ticked ++ [twinQuarter] }).breakHalts twinQuarter

theorem twins_leader : twinsAtIssue.leader (twinsAtIssue.readyGangs twinQuarter) = some (twinGang, [twin 4, twin 0]) := rfl

/-- No translation is at hand, so the fetch at the lower address waits. -/
theorem twins_fetch : (twinsAtIssue.fetchAt twinGang (packetStart [twin 4, twin 0]).toNat).1 = .wait 0 := by decide

/-- After the tick the name still finds the thread at 4. -/
theorem twins_found {t : State} (h : exec .pickerTick twins = .next t) : (t.thread? twinRef).map (·.pc) = some 4 := by
  rw [State.thread?_pc, State.pickerTick_places rfl h]
  rfl

/-- Refutes O48: the statement speaks of every state, also of one with two threads of one name (`distinct` is no premise of it).
A tick whose fetch waits parks the twin at 0, and the name finds the twin at 4, at another address than the one that parks. -/
theorem not_issueAndResampling : ¬ Obligations.IssueAndResampling := by
  rintro ⟨issue, -⟩
  obtain ⟨-, -, -, leads, -⟩ := issue twins
  obtain ⟨t, hexec, -, -, -, -, parks⟩ := leads twinGang [twin 4, twin 0] rfl twins_leader
  obtain ⟨-, parked⟩ := parks 0 twins_fetch
  obtain ⟨y, hy, -, -, hpc⟩ := parked (twin 0) (by simp) rfl
  have hfound : (t.thread? (twin 0).ref).map (·.pc) = some 4 := twins_found hexec
  rw [hy, Option.map_some, hpc] at hfound
  have hsame : (0 : Dword) = 4 := Option.some.inj hfound
  exact absurd hsame (by decide)

end Sys2Proof.Claims
end

section
/-! PROOFS. One instruction in the threads of its packet: in each thread, once for a gang register, and across the lanes
(R23, R28, R54, R100, R103, R130). -/

namespace Sys2Proof.Machine

/-! ## Flags and registers of a thread -/

/-- Flags change the predicates and the random counter alone. -/
theorem Thread.applyFlags_eq (t : Thread) (x : Calc) :
    t.applyFlags x = { t with p := (t.applyFlags x).p, rngctr := (t.applyFlags x).rngctr } := by
  have hpreds : ∀ (l : List (Nat × Bool)) (t : Thread), let u := l.foldl (fun t p => t.setPred p.1 p.2) t
      u = { t with p := u.p, rngctr := u.rngctr } := by
    intro l t
    refine List.foldlRecOn (motive := fun u : Thread => u = { t with p := u.p, rngctr := u.rngctr }) _ _ rfl
      fun u hu p _ => ?_
    unfold Thread.setPred
    split
    · exact hu
    · rw [hu]
  have h := hpreds x.preds t
  cases hx : x.ctr with
  | none => simpa [Thread.applyFlags, hx] using h
  | some n =>
    simp only [Thread.applyFlags, hx]
    rw [h]

/-- Flags change nothing of what lets an instruction act in the thread. -/
theorem State.applyFlags_runs (s : State) (c : Code) (t : Thread) (x : Calc) :
    s.outOfRange c (t.applyFlags x) = s.outOfRange c t ∧ Code.barred c (t.applyFlags x) = Code.barred c t ∧
    s.poisonRead c (t.applyFlags x) = s.poisonRead c t := by
  rw [Thread.applyFlags_eq]
  exact ⟨rfl, rfl, rfl⟩

/-- A result without flags leaves them. -/
theorem Thread.applyFlags_words (t : Thread) (ws : List Word) : t.applyFlags { words := ws } = t := rfl

/-- A result without registers leaves them. -/
theorem Thread.setRegs_nil (t : Thread) (n : Nat) : t.setRegs n [] = t := by
  have hall : (t.poison.filter fun r => decide (r < n) || decide (n + ([] : List Word).length ≤ r)) = t.poison :=
    List.filter_eq_self.2 fun r _ => by
      rw [Bool.or_eq_true, decide_eq_true_iff, decide_eq_true_iff, List.length_nil]
      omega
  simp only [Thread.setRegs, writeRegs, hall]

/-! ## A gang whose registers are written -/

/-- Every gang that a name finds, after a change that keeps names. -/
theorem State.gang?_updGang (s : State) (r k : GangRef) {f : Gang → Gang} (hf : ∀ g, (f g).ref = g.ref) :
    (s.updGang r f).gang? k = (s.gang? k).map fun g => if g.ref == r then f g else g := by
  have hkeep : (fun g : Gang => g.ref == k) ∘ (fun g => if g.ref == r then f g else g) = fun g => g.ref == k := by
    funext g
    simp only [Function.comp]
    split
    · rw [hf]
    · rfl
  simp only [State.gang?, State.updGang, State.modify_m, updBy, List.find?_map, hkeep]

/-- What a register is named and read by hangs on the thread's gang alone. -/
theorem State.outOfRange_congr {s u : State} {t : Thread} (h : u.gangOf t = s.gangOf t) (c : Code) :
    u.outOfRange c t = s.outOfRange c t := by
  unfold State.outOfRange State.blocksOf
  rw [h]

theorem State.poisonRead_congr {s u : State} {t : Thread} (h : u.gangOf t = s.gangOf t) (c : Code) :
    u.poisonRead c t = s.poisonRead c t := by
  unfold State.poisonRead
  rw [h]

@[simp] theorem Gang.setRegs_ref (g : Gang) (n : Nat) (ws : List Word) : (g.setRegs n ws).ref = g.ref := rfl
@[simp] theorem Gang.setRegs_blocks (g : Gang) (n : Nat) (ws : List Word) : (g.setRegs n ws).blocks = g.blocks := rfl

/-- A write of gang registers gives no block away. -/
theorem State.outOfRange_updGang_setRegs (s : State) (c : Code) (t : Thread) (r : GangRef) (n : Nat) (ws : List Word) :
    (s.updGang r (·.setRegs n ws)).outOfRange c t = s.outOfRange c t := by
  have hblocks : (s.updGang r (·.setRegs n ws)).blocksOf t = s.blocksOf t := by
    unfold State.blocksOf State.gangOf
    rw [State.gang?_updGang s r _ fun g => g.setRegs_ref n ws]
    cases s.gang? t.ref.gangRef with
    | none => rfl
    | some g =>
      simp only [Option.map_some]
      split
      · rfl
      · split <;> rfl
  unfold State.outOfRange
  rw [hblocks]

/-- A write of gang registers poisons none. -/
theorem State.poisonRead_updGang_setRegs {s : State} {c : Code} {t : Thread} (h : s.poisonRead c t = none) (r : GangRef)
    (n : Nat) (ws : List Word) : (s.updGang r (·.setRegs n ws)).poisonRead c t = none := by
  unfold State.poisonRead State.gangOf at h ⊢
  rw [State.gang?_updGang s r _ fun g => g.setRegs_ref n ws]
  cases hg : s.gang? t.ref.gangRef with
  | none => rfl
  | some g =>
    simp only [hg, List.findSome?_eq_none_iff, Option.map_eq_none_iff, List.find?_eq_none] at h
    simp only [Option.map_some, List.findSome?_eq_none_iff, Option.map_eq_none_iff, List.find?_eq_none]
    intro x hx k hk
    refine h x hx k ?_
    obtain ⟨gang, n, w⟩ := x
    cases gang with
    | false => exact hk
    | true =>
      simp only [if_true] at hk ⊢
      split at hk
      · exact (List.mem_filter.1 hk).1
      · exact hk

end Sys2Proof.Machine

namespace Sys2Proof.Claims
open Sys2Proof.Machine

/-! ## The threads of the packet -/

theorem distinct_iff {s : State} : distinct s = true ↔ (s.m.threads.map (·.ref)).Nodup ∧ s.m.packet.Nodup := by
  simp [distinct]

/-- What lets an instruction act in a thread where its guard is true. -/
theorem mayRun_iff {s : State} {c : Code} {t : Thread} (hg : guardTrue c.fields t = true) :
    mayRun s c t = true ↔ s.outOfRange c t = false ∧ Code.barred c t = false ∧ s.poisonRead c t = none := by
  simp [mayRun, hg, and_assoc]

theorem mem_packetThreads {s : State} {t : Thread} (h : t ∈ packetThreads s) :
    t ∈ s.m.threads ∧ t.ref ∈ s.m.packet ∧ s.thread? t.ref = some t := by
  obtain ⟨r, hr, ht⟩ := List.mem_filterMap.1 h
  have href : t.ref = r := by simpa using List.find?_some ht
  subst href
  exact ⟨List.mem_of_find?_eq_some ht, hr, ht⟩

/-- An instruction that only goes on. -/
theorem run_finish {s : State} {c : Code} (hp : s.m.packet.Nodup) (hn : (s.m.threads.map (·.ref)).Nodup)
    (h : ∀ t, t ∈ s.m.threads → t.ref ∈ s.m.packet → guardTrue c.fields t = true →
      s.outOfRange c t = false ∧ Code.barred c t = false ∧ s.poisonRead c t = none) :
    (s.run c fun s t => s.setThread (t.finish c)) = inPacket s (·.finish c) := by
  have hf : ∀ t : Thread, (t.finish c).ref = t.ref := fun t => t.finish_ref c
  rw [State.run_eq s c _ (·.finish c) hf hf hp hn h fun _ _ _ _ _ => rfl]
  simp only [ite_self]
  rfl

section
variable {s : State} {c : Code} (hd : distinct s = true) (hr : ready s c = true)
include hd hr

theorem mayRun_of_ready {t : Thread} (ht : t ∈ s.m.threads) (hp : t.ref ∈ s.m.packet) : mayRun s c t = true := by
  have h := List.all_eq_true.1 hr _ hp
  simpa only [State.thread?_of_mem (distinct_iff.1 hd).1 ht] using h

theorem runs_of_ready {t : Thread} (ht : t ∈ s.m.threads) (hp : t.ref ∈ s.m.packet) (hg : guardTrue c.fields t = true) :
    s.outOfRange c t = false ∧ Code.barred c t = false ∧ s.poisonRead c t = none :=
  (mayRun_iff hg).1 (mayRun_of_ready hd hr ht hp)

/-- An instruction whose body sets its own thread changes every thread of the packet so, and nothing else. -/
theorem run_inPacket {body : State → Thread → State} {g : Thread → Thread} (hg : ∀ t, (g t).ref = t.ref)
    (hb : ∀ ts t, body ((s.withThreads ts).setThread t) t = ((s.withThreads ts).setThread t).setThread (g t)) :
    s.run c body = inPacket s fun t => if guardTrue c.fields t then g t else t.finish c :=
  State.run_eq s c body g hg (fun t => t.finish_ref c) (distinct_iff.1 hd).2 (distinct_iff.1 hd).1
    (fun _ ht hp hgu => runs_of_ready hd hr ht hp hgu) fun ts t _ _ _ => hb ts t

/-- An immediate computation into thread registers (R58). -/
theorem compute_inPacket {fn : Lane → Calc} (hgd : c.gangDst = false) :
    s.compute c fn = inPacket s fun t => if guardTrue c.fields t then computed c (fn (s.lane c t)) t else t.finish c := by
  unfold State.compute
  rw [hgd, if_neg Bool.false_ne_true]
  exact run_inPacket hd hr (fun t => by simp [computed]) fun _ _ => rfl

variable (hgu : guarded s c = true)
include hgu

omit hr in
theorem guardTrue_of_guarded {t : Thread} (ht : t ∈ s.m.threads) (hp : t.ref ∈ s.m.packet) : guardTrue c.fields t = true := by
  have h := List.all_eq_true.1 hgu _ hp
  simpa only [State.thread?_of_mem (distinct_iff.1 hd).1 ht] using h

omit hr in
/-- Where the guard is true throughout, its false case does not arise. -/
theorem inPacket_guarded (f g : Thread → Thread) :
    (inPacket s fun t => if guardTrue c.fields t then f t else g t) = inPacket s f := by
  refine congrArg s.withThreads (List.map_congr_left fun t ht => ?_)
  by_cases hp : s.m.packet.contains t.ref
  · rw [if_pos hp, if_pos hp]
    exact if_pos (guardTrue_of_guarded hd hgu ht (List.contains_iff_mem.1 hp))
  · rw [if_neg hp, if_neg hp]

theorem runs_of_guarded {t : Thread} (ht : t ∈ packetThreads s) :
    s.outOfRange c t = false ∧ Code.barred c t = false ∧ s.poisonRead c t = none := by
  obtain ⟨hm, hp, -⟩ := mem_packetThreads ht
  exact runs_of_ready hd hr hm hp (guardTrue_of_guarded hd hgu hm hp)

/-- Every thread of the packet takes part. -/
theorem participants_eq : s.participants c = packetThreads s := by
  unfold State.participants
  refine List.filter_eq_self.2 fun t ht => ?_
  rw [(runs_of_guarded hd hr hgu ht).1]
  rfl

/-- A cross-lane instruction: each thread takes what it is given of the threads of the packet (R130). -/
theorem across_inPacket {fn : List Thread → Thread → Calc} :
    s.across c fn = inPacket s fun t => computed c (fn (packetThreads s) t) t := by
  unfold State.across
  rw [participants_eq hd hr hgu, ← inPacket_guarded hd hgu _ fun t => t.finish c]
  exact run_inPacket hd hr (fun t => by simp [computed]) fun _ _ => rfl

/-- A result into a gang register: it is written once, the lowest lane takes the flags, and every thread of the packet goes on
(R28, R86, R103). -/
theorem scalar_inPacket {fn : Thread → List Thread → Calc} {t : Thread} {ts : List Thread} (hp : packetThreads s = t :: ts)
    (hb : s.gangWriteBarred t.ref.kid c.dstReg = false) :
    s.scalar c fn = inPacket (s.updGang t.ref.gangRef (·.setRegs c.dstReg (fn t (t :: ts)).words)) fun u =>
      (if u.ref == t.ref then u.applyFlags (fn t (t :: ts)) else u : Thread).finish c := by
  have hpois : ((t :: ts).any fun u => (s.poisonRead c u).isSome) = false := by
    refine List.any_eq_false.2 fun u hu => ?_
    rw [(runs_of_guarded hd hr hgu (hp ▸ hu)).2.2]
    exact Bool.false_ne_true
  have htp : t.ref ∈ s.m.packet := (mem_packetThreads (hp ▸ List.mem_cons_self)).2.1
  unfold State.scalar
  rw [participants_eq hd hr hgu, hp]
  simp only [hpois, hb, Bool.false_eq_true, if_false]
  generalize fn t (t :: ts) = x
  let flags : Thread → Thread := fun u => if u.ref == t.ref then u.applyFlags x else u
  have hflags : ∀ u, (flags u).ref = u.ref := fun u => by
    simp only [flags]
    split
    · exact u.applyFlags_ref x
    · rfl
  have hrefs : (s.m.threads.map flags).map (·.ref) = s.m.threads.map (·.ref) :=
    List.map_map.trans (List.map_congr_left fun u _ => hflags u)
  have hsame : ∀ u, s.outOfRange c (flags u) = s.outOfRange c u ∧ Code.barred c (flags u) = Code.barred c u ∧
      s.poisonRead c (flags u) = s.poisonRead c u := fun u => by
    simp only [flags]
    split
    · exact s.applyFlags_runs c u x
    · exact ⟨rfl, rfl, rfl⟩
  have hrun := run_finish (s := (s.updThread t.ref (·.applyFlags x)).updGang t.ref.gangRef (·.setRegs c.dstReg x.words))
    (c := c) (distinct_iff.1 hd).2 (hrefs ▸ (distinct_iff.1 hd).1) fun v hv hvp _ => by
      obtain ⟨u, hu, rfl⟩ := List.mem_map.1 hv
      have hup : u.ref ∈ s.m.packet := hflags u ▸ hvp
      obtain ⟨hout, hbar, hread⟩ := runs_of_ready hd hr hu hup (guardTrue_of_guarded hd hgu hu hup)
      obtain ⟨hout', hbar', hread'⟩ := hsame u
      refine ⟨?_, hbar'.trans hbar, State.poisonRead_updGang_setRegs (hread'.trans hread) _ _ _⟩
      rw [State.outOfRange_updGang_setRegs]
      exact hout'.trans hout
  rw [hrun]
  refine congrArg (State.withThreads (s.updGang t.ref.gangRef (·.setRegs c.dstReg x.words))) ?_
  refine List.map_map.trans (List.map_congr_left fun u _ => ?_)
  show (if s.m.packet.contains (flags u).ref then (flags u).finish c else flags u) =
    if s.m.packet.contains u.ref then (flags u).finish c else u
  rw [hflags]
  split
  · rfl
  next hu =>
    have hne : u.ref ≠ t.ref := fun h => hu (h ▸ List.contains_iff_mem.2 htp)
    simp [flags, hne]

end

/-! ## A packet of one thread -/

/-- What it means that c acts in the packet's one thread. -/
theorem alone_iff {s : State} {c : Code} {t : Thread} : alone s c t = true ↔
    distinct s = true ∧ s.m.packet = [t.ref] ∧ s.thread? t.ref = some t ∧ guardTrue c.fields t = true ∧
    s.outOfRange c t = false ∧ Code.barred c t = false ∧ s.poisonRead c t = none := by
  simp only [alone, Bool.and_eq_true, decide_eq_true_eq]
  constructor
  · rintro ⟨⟨⟨⟨hd, hp⟩, ht⟩, hg⟩, hr⟩
    exact ⟨hd, hp, ht, hg, (mayRun_iff hg).1 hr⟩
  · rintro ⟨hd, hp, ht, hg, hr⟩
    exact ⟨⟨⟨⟨hd, hp⟩, ht⟩, hg⟩, (mayRun_iff hg).2 hr⟩

/-- A deferred instruction in the packet's one thread does there what its body says. -/
theorem run_alone_defers {s : State} {c : Code} {t : Thread} (ha : alone s c t = true) {body : State → Thread → State}
    {defers : Bool} (h8 : defers = true → t.pend.length < 8) : s.run c body defers = body s t := by
  obtain ⟨hd, hp, ht, hg, hout, hbar, hread⟩ := alone_iff.1 ha
  exact State.run_one (distinct_iff.1 hd).1 hp ht hg hout hbar hread h8

/-- An instruction in the packet's one thread does there what its body says. -/
theorem run_alone {s : State} {c : Code} {t : Thread} (ha : alone s c t = true) (body : State → Thread → State) :
    s.run c body = body s t :=
  run_alone_defers ha nofun

end Sys2Proof.Claims
end

section
/-! PROOFS. The computing instructions with an immediate result: what each does is one computation in its packet (R103 to R109,
R111 to R118, R128). -/

namespace Sys2Proof.Claims
open Sys2Proof.Machine

/-- Each integer, move and compare instruction computes what its rule says. -/
theorem exec_integerRule {i : Instr} {c : Code} {fn : Lane → Calc} (hrule : integerRule i = some fn) (hc : i.code = some c)
    (s : State) : exec i s = .next (s.compute c fn) := by
  unfold integerRule at hrule
  split at hrule
  all_goals cases hrule
  all_goals
    cases hc
    rfl

/-- Each FP32, conversion and packed instruction computes what its rule says. -/
theorem exec_floatRule {i : Instr} {c : Code} {fn : Lane → Calc} (hrule : floatRule i = some fn) (hc : i.code = some c)
    (s : State) : exec i s = .next (s.compute c fn) := by
  unfold floatRule at hrule
  split at hrule
  all_goals cases hrule
  all_goals
    cases hc
    rfl

section
variable {rule : Instr → Option (Lane → Calc)}
  (hrule : ∀ {i : Instr} {c : Code} {fn : Lane → Calc}, rule i = some fn → i.code = some c → ∀ s : State,
    exec i s = .next (s.compute c fn))
include hrule

/-- Instructions that each make one computation complete in every thread of the packet. -/
theorem computesInPacket_of_compute : computesInPacket rule := by
  intro i c fn s hi hc hgd hd hr
  rw [hrule hi hc, compute_inPacket hd hr hgd]

/-- They complete on the scalar datapath. -/
theorem computesInGang_of_compute : computesInGang rule := by
  intro i c fn s t ts hi hc hgd hd hr hgu hp hb x
  rw [participants_eq hd hr hgu] at hp
  rw [hrule hi hc, State.compute, if_pos hgd, scalar_inPacket hd hr hgu hp hb]

end

/-- Settles O1: each instruction makes one computation, in every thread of its packet or, for a gang register, once. That a
gang destination takes the random counter of the lowest lane is the model's choice (log entry 56). -/
theorem computingInstructionsComplete : Obligations.ComputingInstructionsComplete :=
  ⟨computesInPacket_of_compute exec_integerRule, computesInPacket_of_compute exec_floatRule,
    computesInGang_of_compute exec_integerRule, computesInGang_of_compute exec_floatRule⟩

end Sys2Proof.Claims
end

section
/-! PROOFS. Special registers: what each reads, srd, and the write rules of swr (R32 to R41, R135, R420). -/

namespace Sys2Proof.Claims
open Sys2Proof.Machine

theorem toNat_lowHalf (x : Dword) : (lowHalf x).toNat = x.toNat % 2 ^ 32 := by simp [lowHalf]

theorem toNat_highHalf (x : Dword) : (highHalf x).toNat = x.toNat / 2 ^ 32 := by
  simp only [highHalf, BitVec.truncate_eq_setWidth, BitVec.toNat_setWidth, BitVec.toNat_ushiftRight, Nat.shiftRight_eq_div_pow]
  omega

/-! ## Reads -/

/-- Settles O11: each number evaluates to its own register. That `cadence` reads the cadence in effect is the model's choice
(log entry 112), and so is the width of the cycle count (log entry 8). -/
theorem specialRegisterValues : Obligations.SpecialRegisterValues := by
  intro s t g hg p
  refine ⟨rfl, rfl, rfl, rfl, ?low, ?high, rfl, ?vcore, ?vslot, ?role, rfl, rfl, rfl, rfl, rfl, rfl, rfl, ?blocks, rfl, ?seed,
    ?energy, rfl, rfl, rfl, rfl, rfl, rfl, rfl, rfl, ?unprivileged, ?privileged⟩
  case low => exact congrArg (BitVec.ofNat 64) (toNat_lowHalf _)
  case high => exact congrArg (BitVec.ofNat 64) (toNat_highHalf _)
  case vcore | vslot | role | blocks => simp only [State.special, hg]
  case seed =>
    intro l hl
    simp only [State.special, State.seedOf, hl]
  case energy =>
    intro k hk
    simp only [State.special, hk]
  case unprivileged =>
    intro hp
    simp [State.special, show (s.context (s.ctxOf t.ref.kid)).priv = false from hp]
  case privileged =>
    intro hp
    simp [State.special, show (s.context (s.ctxOf t.ref.kid)).priv = true from hp, hg]

/-! ## srd -/

theorem exec_srd {i : Instr} {c : Code} (hi : (∃ o, i = .srd o) ∨ ∃ o, i = .srdExt o) (hc : i.code = some c) (s : State) :
    exec i s = .next (s.compute c s.srdCalc) := by
  obtain ⟨o, rfl⟩ | ⟨o, rfl⟩ := hi
  all_goals
    cases hc
    rfl

/-- R28, R39, R135: srd is one computation of the value, without flags. -/
theorem srdCompletes : SrdCompletes := by
  intro i c s hi hc hd hr x
  rw [exec_srd hi hc]
  refine ⟨fun hgd => ?_, fun hgd hgu t ts hp hb => ?_⟩
  · rw [compute_inPacket hd hr hgd]
    rfl
  · rw [participants_eq hd hr hgu] at hp
    rw [State.compute, if_pos hgd, scalar_inPacket hd hr hgu hp hb]
    simp only [State.srdCalc, Thread.applyFlags_words, ite_self]
    rfl

/-! ## swr -/

theorem exec_swr {i : Instr} {c : Code} (hi : (∃ o, i = .swr o) ∨ ∃ o, i = .swrExt o) (hc : i.code = some c) (s : State) :
    exec i s = .next (s.run c fun s t => s.writesSpecial c t) := by
  obtain ⟨o, rfl⟩ | ⟨o, rfl⟩ := hi
  all_goals
    cases hc
    rfl

/-- No bit from k on is set in a number below 2 ^ k. -/
theorem and_highMask_eq_zero_iff {w : Nat} (x : BitVec w) (k : Nat) :
    x &&& (BitVec.allOnes w <<< k) = 0 ↔ x.toNat < 2 ^ k := by
  constructor
  · intro h
    refine Nat.lt_pow_two_of_testBit _ fun i hi => ?_
    by_cases hw : i < w
    · have hbit : (x &&& (BitVec.allOnes w <<< k)).getLsbD i = false := by rw [h]; simp
      simpa [hw, Nat.not_lt.2 hi, BitVec.testBit_toNat] using hbit
    · exact Nat.testBit_lt_two_pow (x.isLt.trans_le (Nat.pow_le_pow_right (by decide) (Nat.not_lt.1 hw)))
  · intro h
    ext i hi
    by_cases hk : i < k
    · simp [hk]
    · have hbit : x.getLsbD i = false :=
        Nat.testBit_lt_two_pow (h.trans_le (Nat.pow_le_pow_right (by decide) (Nat.not_lt.1 hk)))
      simp [← BitVec.getLsbD_eq_getElem, hbit]

/-! The reserved codes and bits of each writable register (R34 to R36, R39, R41). -/

theorem swrBad_fmode (x : Dword) : swrBad 0x11 x = !decide ((lowHalf x).toNat ≤ 4) := by
  rw [← decide_not]
  simp only [swrBad, not_le]

theorem swrBad_tackst (x : Dword) : swrBad 0x15 x = (lowHalf x).getLsbD 3 := by
  have hbit : lowHalf x &&& 0x8 = if (lowHalf x).getLsbD 3 then 8 else 0 := BitVec.and_twoPow (lowHalf x) 3
  simp only [swrBad, hbit]
  cases (lowHalf x).getLsbD 3 <;> rfl

theorem swrBad_popst (x : Dword) : swrBad 0x16 x = !decide ((lowHalf x).toNat ≤ 1) := by
  have hmask := and_highMask_eq_zero_iff (lowHalf x) 1
  rw [show BitVec.allOnes 32 <<< 1 = 0xFFFFFFFE by decide] at hmask
  rw [Bool.eq_iff_iff, swrBad]
  simp only [bne_iff_ne, ne_eq, hmask, Bool.not_eq_true', decide_eq_false_iff_not]
  omega

theorem swrBad_xpc (x : Dword) : swrBad 0x21 x = !decide (x.toNat < 2 ^ 57) := by
  have hmask := and_highMask_eq_zero_iff x 57
  rw [show BitVec.allOnes 64 <<< 57 = 0xFE00000000000000 by decide] at hmask
  rw [Bool.eq_iff_iff, swrBad]
  simp only [bne_iff_ne, ne_eq, hmask, Bool.not_eq_true', decide_eq_false_iff_not]

/-- The write rule of `tackst` leaves the read-only fields and the reserved bit, and clears DEG by a one (R35, R39). -/
theorem tackstWritten_eq (old x : Word) :
    tackstWritten old x = x &&& 0xFFFFFF00 ||| (old &&& 0xFD#32) ||| (old &&& ~~~x &&& 2) := by
  unfold tackstWritten
  ac_rfl

/-- A special register has a write rule of its own exactly when it is one of these five. -/
theorem specialWritten_eq (t : Thread) {n : Nat} (hn : n ∈ [0x11, 0x14, 0x15, 0x16, 0x21]) (x : Dword) :
    specialWritten t n x = if swrBad n x then none else some (t.writeSpecial n x) := by
  simp only [List.mem_cons, List.not_mem_nil, or_false] at hn
  obtain rfl | rfl | rfl | rfl | rfl := hn
  case inl =>
    rw [swrBad_fmode]
    simp only [Bool.not_eq_true', decide_eq_false_iff_not, ite_not]
    rfl
  case inr.inl => rfl
  case inr.inr.inl =>
    rw [swrBad_tackst]
    simp only [specialWritten, Thread.writeSpecial, tackstWritten_eq]
  case inr.inr.inr.inl =>
    rw [swrBad_popst]
    simp only [Bool.not_eq_true', decide_eq_false_iff_not, ite_not]
    rfl
  case inr.inr.inr.inr =>
    rw [swrBad_xpc]
    simp only [Bool.not_eq_true', decide_eq_false_iff_not, ite_not]
    rfl

theorem specialWritten_other (t : Thread) {n : Nat} (hn : n ∉ [0x11, 0x14, 0x15, 0x16, 0x21]) (x : Dword) :
    specialWritten t n x = none := by
  simp only [List.mem_cons, List.not_mem_nil, or_false, not_or] at hn
  simp [specialWritten, hn]

theorem srPrivileged_written {n : Nat} (hn : n ∈ [0x11, 0x14, 0x15, 0x16, 0x21]) : srPrivileged n = false := by
  revert n
  decide

theorem srPrivileged_restricted {n : Nat} (hn : n ∈ [0x30, 0x31, 0x32]) : srPrivileged n = true := by
  revert n
  decide

/-- R34 to R36, R39, R41, R135: a restricted register raises, a reserved value raises, and any other is written by its rule. -/
theorem swrCompletes : SwrCompletes := by
  intro i c s t hi hc ha n x
  rw [exec_swr hi hc, run_alone ha]
  have hw : s.writesSpecial c t =
      if srPrivileged n then
        if (s.context (s.ctxOf t.ref.kid)).priv then s.raiseAt t c { cause := Cause.illegalField, badf := 4 }
        else s.raiseAt t c { cause := Cause.priv }
      else if swrBad n x then s.raiseAt t c { cause := Cause.illegalField, badf := 9 }
      else s.setThread ((t.writeSpecial n x).finish c) := by
    simp only [State.writesSpecial, beq_iff_eq, n, x]
  rw [hw]
  clear_value n x
  refine ⟨fun u hu => ?_, fun hn hu => ?_, fun hn => ?_⟩
  · have hn : n ∈ [0x11, 0x14, 0x15, 0x16, 0x21] := by
      by_contra hn
      rw [specialWritten_other t hn] at hu
      cases hu
    rw [specialWritten_eq t hn] at hu
    split at hu
    · cases hu
    next hbad =>
      cases hu
      rw [srPrivileged_written hn, if_neg Bool.false_ne_true, if_neg hbad]
  · have hn : n ∈ [0x11, 0x14, 0x15, 0x16, 0x21] := by
      simp only [List.mem_cons, List.not_mem_nil, or_false] at hn ⊢
      tauto
    rw [specialWritten_eq t hn, ite_eq_left_iff] at hu
    have hbad : swrBad n x = true := by
      by_contra hbad
      cases hu hbad
    rw [srPrivileged_written hn, if_neg Bool.false_ne_true, if_pos hbad]
    rfl
  · rw [srPrivileged_restricted hn, if_pos rfl]
    split <;> rfl

/-- Settles O12. That ones written to OUT, STRUCK or OPEN of `tackst` are ignored is the model's choice (log entry 107). -/
theorem specialRegistersReadAndWritten : Obligations.SpecialRegistersReadAndWritten := ⟨srdCompletes, swrCompletes⟩

end Sys2Proof.Claims
end

section
/-! PROOFS. The cross-lane instructions: votes, shuffles, reductions and scans (R130 to R134). -/

namespace Sys2Proof.Claims
open Sys2Proof.Machine

/-! ## Results without registers, and without flags -/

theorem computed_pred (c : Code) (n : Nat) (b : Bool) (t : Thread) :
    computed c { preds := [(n, b)] } t = (t.setPred n b).finish c := by
  rw [computed, Thread.setRegs_nil]
  rfl

theorem computed_words (c : Code) (ws : List Word) (t : Thread) :
    computed c { words := ws } t = (t.setRegs c.dstReg ws).finish c := rfl

theorem computed_words_pred (c : Code) (ws : List Word) (n : Nat) (b : Bool) (t : Thread) :
    computed c { words := ws, preds := [(n, b)] } t = ((t.setRegs c.dstReg ws).setPred n b).finish c := rfl

/-- Changes that agree in the threads of the packet are one. -/
theorem inPacket_congr {s : State} (hd : distinct s = true) {f g : Thread → Thread} (h : ∀ t ∈ packetThreads s, f t = g t) :
    inPacket s f = inPacket s g := by
  refine congrArg s.withThreads (List.map_congr_left fun t ht => ?_)
  by_cases hp : s.m.packet.contains t.ref
  · have hmem : t ∈ packetThreads s := List.mem_filterMap.2
      ⟨t.ref, List.contains_iff_mem.1 hp, State.thread?_of_mem (distinct_iff.1 hd).1 ht⟩
    rw [if_pos hp, if_pos hp, h t hmem]
  · rw [if_neg hp, if_neg hp]

/-! ## vote -/

/-- Each mode of vote over the participating lanes (R132). -/
theorem voteCalc_eq (s : State) (c : Code) (ts : List Thread) :
    let a := predOf c.fields.a
    let d := predOf c.fields.d
    (subBits c.fields 0 2 = 0 → s.voteCalc c ts = { preds := [(d, ts.all (·.pred a))] }) ∧
    (subBits c.fields 0 2 = 1 → s.voteCalc c ts = { preds := [(d, ts.any (·.pred a))] }) ∧
    (subBits c.fields 0 2 = 2 → s.voteCalc c ts = { preds := [(d, ts.all (·.pred a) || ts.all (!·.pred a))] }) ∧
    (subBits c.fields 0 2 = 3 → s.voteCalc c ts =
      { words := [BitVec.ofNat 32 ((ts.filter (·.pred a)).map fun u => 2 ^ u.ref.lane).sum] }) := by
  refine ⟨fun h => ?_, fun h => ?_, fun h => ?_, fun h => ?_⟩
  case refine_4 => simp [State.voteCalc, h, List.sum_eq_foldl, List.foldl_map]
  all_goals simp [State.voteCalc, h, voteResult, List.all_map, List.any_map, Function.comp_def]

theorem exec_vote (o : Ext) (s : State) :
    exec (.vote o) s = .next (s.across (.ext 0x51 o) fun ts _ => s.voteCalc (.ext 0x51 o) ts) := rfl

/-- R130, R132: vote is one cross-lane computation. -/
theorem voteCompletes : VoteCompletes := by
  intro o s hd c hr hgu a d ts
  obtain ⟨hall, hany, huni, hballot⟩ := voteCalc_eq s c ts
  rw [exec_vote, across_inPacket hd hr hgu]
  refine ⟨fun h => ?_, fun h => ?_, fun h => ?_, fun h => ?_⟩
  case refine_1 => simp only [show s.voteCalc (.ext 0x51 o) (packetThreads s) = _ from hall h, computed_pred]; rfl
  case refine_2 => simp only [show s.voteCalc (.ext 0x51 o) (packetThreads s) = _ from hany h, computed_pred]; rfl
  case refine_3 => simp only [show s.voteCalc (.ext 0x51 o) (packetThreads s) = _ from huni h, computed_pred]; rfl
  case refine_4 => simp only [show s.voteCalc (.ext 0x51 o) (packetThreads s) = _ from hballot h, computed_words]; rfl

/-! ## shfl -/

/-- The lane that a mode of shfl names, in range or not (R131). -/
def laneNamed (mode lane b : Nat) : Int :=
  match mode with
  | 0 => b
  | 1 => (lane : Int) - b
  | 2 => (lane : Int) + b
  | _ => if b < 32 then ((lane ^^^ b : Nat) : Int) else -1

/-- The source lane of shfl is the lane that its mode names, where that is one of the 32. -/
theorem shflSource_eq (mode : Nat) {lane : Nat} (h : lane < 32) (b : Nat) :
    shflSource mode lane b =
      if 0 ≤ laneNamed mode lane b ∧ laneNamed mode lane b < 32 then some (laneNamed mode lane b).toNat else none := by
  match mode with
  | 0 =>
    show (if b < 32 then some b else none) = if 0 ≤ (b : Int) ∧ (b : Int) < 32 then some (b : Int).toNat else none
    simp
  | 1 =>
    show (if b ≤ lane then some (lane - b) else none) =
      if 0 ≤ (lane : Int) - b ∧ (lane : Int) - b < 32 then some ((lane : Int) - b).toNat else none
    rw [Int.toNat_sub]
    exact if_congr (by omega) rfl rfl
  | 2 =>
    show (if lane + b < 32 then some (lane + b) else none) =
      if 0 ≤ (lane : Int) + b ∧ (lane : Int) + b < 32 then some ((lane : Int) + b).toNat else none
    exact if_congr (by omega) rfl rfl
  | n + 3 =>
    show (if b < 32 then some (lane ^^^ b) else none) =
      if 0 ≤ (if b < 32 then ((lane ^^^ b : Nat) : Int) else -1) ∧ (if b < 32 then ((lane ^^^ b : Nat) : Int) else -1) < 32
      then some (if b < 32 then ((lane ^^^ b : Nat) : Int) else -1).toNat else none
    split
    next hb =>
      have hx : lane ^^^ b < 32 := Nat.xor_lt_two_pow (n := 5) h hb
      rw [if_pos (by omega), Int.toNat_natCast]
    · rfl

/-- The thread in the source lane is the participating one in the lane that the mode names. -/
theorem find?_shflSource (mode : Nat) {lane : Nat} (h : lane < 32) (b : Nat) {ts : List Thread} (hts : ∀ u ∈ ts, u.ref.lane < 32) :
    ((shflSource mode lane b).bind fun k => ts.find? (·.ref.lane == k)) =
      ts.find? fun u => (u.ref.lane : Int) = laneNamed mode lane b := by
  rw [shflSource_eq mode h]
  generalize laneNamed mode lane b = n
  split
  next hn =>
    refine congrArg (ts.find? ·) (funext fun u => ?_)
    rw [Bool.eq_iff_iff, beq_iff_eq, decide_eq_true_iff]
    omega
  next hn =>
    refine (List.find?_eq_none.2 fun u hu => ?_).symm
    have := hts u hu
    rw [decide_eq_true_iff]
    omega

/-- shfl in one lane, by the thread in its source lane. -/
theorem shflCalc_eq (s : State) (c : Code) (ts : List Thread) (t : Thread) : s.shflCalc c ts t =
    match (shflSource (subBits c.fields 0 2) t.ref.lane ((s.lane c t).word c.fields.b).toNat).bind
      fun k => ts.find? (·.ref.lane == k) with
    | some u => { words := (s.lane c u).opnd (Ty.regs c.ty) c.fields.a, preds := [(subBits c.fields 2 3, true)] }
    | none => { words := (s.lane c t).opnd (Ty.regs c.ty) c.fields.c, preds := [(subBits c.fields 2 3, false)] } := by
  unfold State.shflCalc
  simp only
  cases shflSource (subBits c.fields 0 2) t.ref.lane ((s.lane c t).word c.fields.b).toNat with
  | none => rfl
  | some k => 
    simp only [Option.bind_some]
    cases ts.find? (·.ref.lane == k) <;> rfl

theorem exec_shfl (o : Ext) {s : State} (hgd : Code.gangDst (.ext 0x50 o) = false) :
    exec (.shfl o) s = .next (s.across (.ext 0x50 o) fun ts t => s.shflCalc (.ext 0x50 o) ts t) := by
  show Host.Outcome.next (s.shuffle (.ext 0x50 o)) = _
  rw [State.shuffle, if_neg (ne_true_of_eq_false hgd)]

/-- R130, R131: each participating lane takes the value of its source lane, or its own third source. -/
theorem shuffleCompletes : ShuffleCompletes := by
  intro o s hd c hr hgu hgd w source hlane
  rw [exec_shfl o hgd, across_inPacket hd hr hgu]
  refine congrArg _ (inPacket_congr hd fun t ht => ?_)
  have hfind := find?_shflSource (subBits c.fields 0 2) (hlane t ht) ((s.lane c t).word c.fields.b).toNat hlane
  have hsource : laneNamed (subBits c.fields 0 2) t.ref.lane ((s.lane c t).word c.fields.b).toNat = source t := rfl
  rw [hsource] at hfind
  rw [shflCalc_eq, hfind]
  cases (packetThreads s).find? fun u => decide ((u.ref.lane : Int) = source t) <;> rfl

/-! ## rdfl, redux and scan -/

theorem exec_reduceRule {s : State} {c : Code} {t : Thread} {ts : List Thread} {i : Instr} {ws : List Word}
    (hi : reduceRule s c (t :: ts) t i = some ws) (hc : i.code = some c) :
    ∃ fn, exec i s = .next (s.reduceInto c fn) ∧ ∀ u, fn (t :: ts) u = { words := ws } := by
  unfold reduceRule at hi
  split at hi
  case h_4 => cases hi
  case h_1 | h_2 =>
    cases hi
    cases hc
    exact ⟨s.rdflCalc _, rfl, fun _ => rfl⟩
  case h_3 =>
    cases hi
    cases hc
    exact ⟨s.reduxCalc _, rfl, fun _ => rfl⟩

/-- R28, R130, R133, R134: rdfl and redux give one result, to each thread or to the gang register. -/
theorem laneReductionsComplete : LaneReductionsComplete := by
  intro i c s t ts ws hc hd hr hgu hp hi
  obtain ⟨fn, hexec, hfn⟩ := exec_reduceRule hi hc
  rw [hexec, State.reduceInto]
  refine ⟨fun hgd => ?_, fun hgd hb => ?_⟩
  · rw [if_neg (ne_true_of_eq_false hgd), across_inPacket hd hr hgu, hp]
    simp only [hfn, computed_words]
  · rw [if_pos hgd, scalar_inPacket hd hr hgu hp hb]
    simp only [hfn, Thread.applyFlags_words, ite_self]

theorem exec_scan (o : Ext) (s : State) :
    exec (.scanInstr o) s = .next (s.across (.ext 0x54 o) (s.scanCalc (.ext 0x54 o))) := rfl

/-- R130, R134: each participating lane takes its own place of the scan. -/
theorem scanCompletes : ScanCompletes := by
  intro o s t ts hd c hr hgu hp op xs ys
  rw [exec_scan, across_inPacket hd hr hgu, hp]
  rfl

/-- Settles O13: each is one cross-lane computation, or one result on the scalar datapath. -/
theorem crossLaneInstructionsComplete : Obligations.CrossLaneInstructionsComplete :=
  ⟨voteCompletes, shuffleCompletes, laneReductionsComplete, scanCompletes⟩

end Sys2Proof.Claims
end

section
/-! PROOFS. Taking an exception: what the trap registers hold, the entry of the handler and the wait for results (R37, R41, R61,
R71, R263, R270). -/

namespace Sys2Proof.Machine

/-! ## The decoded fields in `xfld` (R37) -/

/-- Bits laid side by side are digits. -/
theorem toNat_append_add {m n : Nat} (x : BitVec m) (y : BitVec n) : (x ++ y).toNat = 2 ^ n * x.toNat + y.toNat := by
  rw [BitVec.toNat_append, Nat.shiftLeft_eq, Nat.mul_comm, Nat.two_pow_add_eq_or_of_lt y.isLt]

/-- `xfld` is the sum of its fields. -/
theorem xfldOf_eq (w0 : Word) (f : Fields) (badf : BitVec 4) : xfldOf w0 f badf =
    BitVec.ofNat 64 (f.op.toNat + 2 ^ 7 * f.ext.toNat + 2 ^ 8 * f.sub.toNat + 2 ^ 14 * f.d.toNat + 2 ^ 22 * f.a.toNat +
      2 ^ 30 * f.b.toNat + 2 ^ 38 * f.c.toNat + 2 ^ 46 * (lenOf w0).toNat + 2 ^ 48 * f.s.toNat + 2 ^ 52 * badf.toNat) := by
  refine BitVec.eq_of_toNat_eq ?_
  have hop := f.op.isLt
  have hsub := f.sub.isLt
  have hd := f.d.isLt
  have ha := f.a.isLt
  have hb := f.b.isLt
  have hc := f.c.isLt
  have hlen := (lenOf w0).isLt
  have hbadf := badf.isLt
  have hext := f.ext.toNat_lt
  have hs := f.s.toNat_lt
  simp only [xfldOf, toNat_append_add, BitVec.toNat_ofNat, BitVec.toNat_ofBool, BitVec.ofNat_eq_ofNat]
  omega

/-- The length field of a form's word 0 (R47). -/
theorem toNat_lenOf_words (c : Code) :
    (lenOf (c.words.getD 0 0)).toNat = 2 * c.fields.ext.toNat + c.fields.lit.isSome.toNat := by
  cases c with
  | base op o =>
    show (lenOf (o.word0 op)).toNat = 2 * 0 + o.lit.isSome.toNat
    have hop := op.isLt
    have hd := o.d.isLt
    have ha := o.a.isLt
    have hb := o.b.isLt
    have hs := o.s.toNat_lt
    have hm := o.m.toNat_lt
    have hl := o.lit.isSome.toNat_lt
    simp only [lenOf, Base.word0, lenBits, BitVec.extractLsb'_toNat, Nat.shiftRight_eq_div_pow, toNat_append_add,
      BitVec.toNat_ofBool, Bool.toNat_false]
    omega
  | ext op o =>
    show (lenOf (o.word0 op)).toNat = 2 * 1 + o.lit.isSome.toNat
    have hop := op.isLt
    have hd := o.d.isLt
    have ha := o.a.isLt
    have hsub := o.sub.isLt
    have hs := o.s.toNat_lt
    have hl := o.lit.isSome.toNat_lt
    simp only [lenOf, Ext.word0, lenBits, BitVec.extractLsb'_toNat, Nat.shiftRight_eq_div_pow, toNat_append_add,
      BitVec.toNat_ofBool, Bool.toNat_true]
    omega

theorem trapRegs_fld (cause : Nat) (pc addr : Dword) (c : Code) (badf : BitVec 4) :
    (trapRegs cause pc addr c badf).fld = BitVec.ofNat 64 (c.fields.op.toNat + 2 ^ 7 * c.fields.ext.toNat +
      2 ^ 8 * c.fields.sub.toNat + 2 ^ 14 * c.fields.d.toNat + 2 ^ 22 * c.fields.a.toNat + 2 ^ 30 * c.fields.b.toNat +
      2 ^ 38 * c.fields.c.toNat + 2 ^ 46 * (2 * c.fields.ext.toNat + c.fields.lit.isSome.toNat) + 2 ^ 48 * c.fields.s.toNat +
      2 ^ 52 * badf.toNat) := by
  rw [← toNat_lenOf_words, ← xfldOf_eq]
  rfl

theorem trapRegs_word3 (cause : Nat) (pc addr : Dword) (c : Code) (badf : BitVec 4) :
    (trapRegs cause pc addr c badf).word3 = c.fields.lit.getD 0 := by
  simp only [trapRegs]
  cases c.fields.lit <;> rfl

theorem trapRegs_cause {cause : Nat} (h : cause ≤ 0x0C) (pc addr : Dword) (c : Code) (badf : BitVec 4) :
    (trapRegs cause pc addr c badf).cause.toNat = cause :=
  (BitVec.toNat_ofNat cause 32).trans (Nat.mod_eq_of_lt (by omega))

/-! ## A commit (R59) -/

/-- A commit changes the registers, their poison and the pending list alone. -/
theorem Thread.commitAll_eq (t : Thread) :
    t.commitAll = { t with v := t.commitAll.v, poison := t.commitAll.poison, pend := [] } := by
  let write : Thread → Pending → Thread := fun t e => t.setRegs e.reg ((e.value.getD []).take e.count)
  have h : t.pend.foldl write t = { t with v := (t.pend.foldl write t).v, poison := (t.pend.foldl write t).poison } :=
    List.foldlRecOn (motive := fun u : Thread => u = { t with v := u.v, poison := u.poison }) _ _ rfl fun u hu e _ => by
      rw [hu]
      rfl
  exact congrArg (fun u : Thread => { u with pend := [] }) h

@[simp] theorem Thread.commitAll_nest (t : Thread) : t.commitAll.nest = t.nest := by rw [Thread.commitAll_eq]
@[simp] theorem Thread.commitAll_x (t : Thread) : t.commitAll.x = t.x := by rw [Thread.commitAll_eq]

/-! ## The handled causes (R263, R264) -/

/-- What the record of a cause gives for its detail (R270). -/
def Raise.recordDetail (e : Raise) : Nat := if e.cause = 0x02 then e.badf.toNat else e.detail

/-- A handled cause traps in its thread. -/
theorem State.raise_handled {s : State} {e : Raise} (h1 : 1 ≤ e.cause) (h12 : e.cause ≤ 0x0C) (r : ThreadRef) (pc : Dword)
    (c : Code) : s.raise r pc c e = s.trap r (trapRegs e.cause pc e.addr c e.badf) e.recordDetail := by
  have hhandled : Cause.handled e.cause = true := by simp [Cause.handled, h1, h12]
  simp [State.raise, hhandled, Raise.recordDetail]

/-- In a context with a handler the thread enters it once its results have returned, and waits for them before. -/
theorem State.trap_handler {s : State} {t : Thread} (ht : s.thread? t.ref = some t)
    (hen : (s.context (s.ctxOf t.ref.kid)).hen = true) (x : TrapRegs) (detail : Nat) :
    s.trap t.ref x detail = if t.allReturned then s.enterHandler t x detail s.m.cycle
      else s.setThread (t.park 1 (.trap x detail s.m.cycle)) := by
  simp [State.trap, ht, hen]

/-- The entry of a handler below the deepest nesting. -/
theorem State.enterHandler_eq {s : State} {t : Thread} (hn : t.nest < 3) (x : TrapRegs) (detail : Nat) :
    s.enterHandler t x detail s.m.cycle =
      ((if (s.context (s.ctxOf t.ref.kid)).fqh then
          s.addRecord (s.threadRecord t.commitAll x.cause.toNat x.pc x.addr false false detail x.word0)
        else s).setThread { t.commitAll with
          x := x, nest := t.nest + 1, st := .trapped, inHandler := true, wait := .none
          pc := (s.context (s.ctxOf t.ref.kid)).handler }) := by
  have hnest := t.commitAll_nest
  have href := t.commitAll_ref
  have h3 : (t.nest == 3) = false := by
    rw [beq_eq_false_iff_ne]
    omega
  simp only [State.enterHandler, hnest, href, h3, Bool.false_eq_true, if_false]
  rfl

end Sys2Proof.Machine

namespace Sys2Proof.Claims
open Sys2Proof.Machine

/-- R37, R41, R71, R263: the trap registers field by field, and the entry of the handler. -/
theorem handlerEntry : HandlerEntry := by
  intro s t pc c e h1 h12 ht x hen hret hn detail regs
  refine ⟨rfl, rfl, rfl, rfl, fun hx => ⟨if_neg (ne_true_of_eq_false hx), if_neg (ne_true_of_eq_false hx)⟩,
    fun hx => ⟨if_pos hx, if_pos hx⟩, trapRegs_word3 _ _ _ _ _, trapRegs_fld _ _ _ _ _, ?_⟩
  rw [State.raise_handled h1 h12, State.trap_handler ht hen, if_pos hret, State.enterHandler_eq hn, trapRegs_cause h12]
  rfl

/-- R61, R263, R270: with a result awaited the thread parks, and keeps the cycle. -/
theorem handlerEntryAwaitsResults : HandlerEntryAwaitsResults := by
  intro s t pc c e h1 h12 ht hen hret
  rw [State.raise_handled h1 h12, State.trap_handler ht hen, if_neg (ne_true_of_eq_false hret)]
  rfl

/-- Settles O29: a handled cause traps in its thread, which enters the handler or waits for its results. -/
theorem trapEntry : Obligations.TrapEntry := ⟨handlerEntry, handlerEntryAwaitsResults⟩

end Sys2Proof.Claims
end

section
/-! PROOFS. The break, the system calls and the request of a cadence (R39, R127, R267, R268, R276, R425). -/

namespace Sys2Proof.Machine

/-! ## A quarter's grant changes quarters and loans alone -/

/-- What a change of quarters and of the teams' loans keeps. -/
def State.sameThreads (s t : State) : Prop :=
  t.m.threads = s.m.threads ∧ t.m.gangs = s.m.gangs ∧ t.m.packet = s.m.packet

theorem State.sameThreads_updQuarter (s : State) (q : QRef) (f : Quarter → Quarter) : s.sameThreads (s.updQuarter q f) :=
  ⟨rfl, rfl, rfl⟩

theorem State.sameThreads.trans {s t u : State} (h : s.sameThreads t) (h' : t.sameThreads u) : s.sameThreads u := by
  obtain ⟨ht, hg, hp⟩ := h
  obtain ⟨ht', hg', hp'⟩ := h'
  exact ⟨ht'.trans ht, hg'.trans hg, hp'.trans hp⟩

theorem State.sameThreads_regrant (s : State) (q : QRef) : s.sameThreads (s.regrant q) := by
  unfold State.regrant
  simp only
  split
  · exact ⟨rfl, rfl, rfl⟩
  · refine State.sameThreads.trans ?_ (State.sameThreads_updQuarter _ _ _)
    exact List.foldlRecOn (motive := fun t : State => s.sameThreads t) _ _ ⟨rfl, rfl, rfl⟩
      fun t ht q _ => ht.trans (t.sameThreads_updQuarter q _)

end Sys2Proof.Machine

namespace Sys2Proof.Claims
open Sys2Proof.Machine

/-- What lets an instruction act in the packet's one thread is in the threads, the gangs and the packet. -/
theorem alone_of_sameThreads {s u : State} {c : Code} {t : Thread} (h : s.sameThreads u) (ha : alone s c t = true) :
    alone u c t = true := by
  obtain ⟨ht, hg, hp⟩ := h
  obtain ⟨hd, hpt, htt, hgt, hout, hbar, hread⟩ := alone_iff.1 ha
  have hgang : u.gangOf t = s.gangOf t := by simp only [State.gangOf, State.gang?, hg]
  refine alone_iff.2 ⟨?_, hp.trans hpt, ?_, hgt, ?_, hbar, ?_⟩
  · rw [← hd, distinct, distinct, ht, hp]
  · rw [← htt, State.thread?, State.thread?, ht]
  · rw [← hout, State.outOfRange_congr hgang]
  · rw [← hread, State.poisonRead_congr hgang]

/-- The packet's one thread takes part. -/
theorem participants_alone {s : State} {c : Code} {t : Thread} (ha : alone s c t = true) : s.participants c = [t] := by
  obtain ⟨-, hp, ht, -, hout, -, -⟩ := alone_iff.1 ha
  simp [State.participants, hp, ht, hout]

/-! ## brk -/

theorem exec_brk {i : Instr} {c : Code} (hi : (∃ o, i = .brk o) ∨ ∃ o, i = .brkExt o) (hc : i.code = some c) (s : State) :
    exec i s = .next (s.run c fun s t => s.breaks c t) := by
  obtain ⟨o, rfl⟩ | ⟨o, rfl⟩ := hi
  all_goals
    cases hc
    rfl

/-- R127, R276: brk halts its thread or raises. -/
theorem breakCompletes : BreakCompletes := by
  intro i c s t hi hc ha x
  rw [exec_brk hi hc, run_alone ha, State.breaks]
  simp only [Bool.and_eq_true]
  rfl

/-! ## sys -/

theorem exec_sysTrap {i : Instr} {c : Code} (hi : (∃ o, i = .sysTrap o) ∨ ∃ o, i = .sysTrapExt o) (hc : i.code = some c)
    (s : State) : exec i s = .next (s.run c fun s t => s.sysTraps c t) := by
  obtain ⟨o, rfl⟩ | ⟨o, rfl⟩ := hi
  all_goals
    cases hc
    rfl

theorem exec_sysTret {i : Instr} {c : Code} (hi : (∃ o, i = .sysTret o) ∨ ∃ o, i = .sysTretExt o) (hc : i.code = some c)
    (s : State) : exec i s = .next (s.run c fun s t => s.sysReturns c t) := by
  obtain ⟨o, rfl⟩ | ⟨o, rfl⟩ := hi
  all_goals
    cases hc
    rfl

theorem exec_sysHalt {i : Instr} {c : Code} (hi : (∃ o, i = .sysHalt o) ∨ ∃ o, i = .sysHaltExt o) (hc : i.code = some c)
    (s : State) : exec i s = .next (s.run c fun s t => s.sysHalts c t) := by
  obtain ⟨o, rfl⟩ | ⟨o, rfl⟩ := hi
  all_goals
    cases hc
    rfl

theorem exec_sysCad {i : Instr} {c : Code} (hi : (∃ o, i = .sysCad o) ∨ ∃ o, i = .sysCadExt o) (hc : i.code = some c)
    (s : State) : exec i s = .next (s.sysCadence c) := by
  obtain ⟨o, rfl⟩ | ⟨o, rfl⟩ := hi
  all_goals
    cases hc
    rfl

/-- The return from a handler commits first (R268). -/
theorem tret_commitAll (t : Thread) : t.commitAll.tret = { t.commitAll with
    pc := t.x.pc &&& 0x01FFFFFFFFFFFFFF, nest := 0, st := .ready, inHandler := false, wait := .none } := by
  simp only [Thread.tret, Thread.commitAll_x, addr57]

/-- R267, R268: the system calls. -/
theorem systemInstructionsComplete : SystemInstructionsComplete := by
  intro i c s t hc ha
  refine ⟨fun hi => ?trap, fun hi => ?tret, fun hi => ?halt⟩
  case trap =>
    rw [exec_sysTrap hi hc, run_alone ha]
    rfl
  case tret =>
    rw [exec_sysTret hi hc, run_alone ha]
    refine ⟨fun hn => ?_, fun hn hx => ?_, fun hn hx hret => ?_, fun hn hx hret => ?_⟩
    · simp only [State.sysReturns, hn]
      rfl
    · simp only [State.sysReturns, beq_iff_eq, hn, if_false, bne_iff_ne, ne_eq, hx, not_false_eq_true, if_true]
      rfl
    · simp only [State.sysReturns, beq_iff_eq, hn, if_false, bne_iff_ne, ne_eq, hx, not_true_eq_false, hret, if_true,
        tret_commitAll]
    · simp only [State.sysReturns, beq_iff_eq, hn, if_false, bne_iff_ne, ne_eq, hx, not_true_eq_false, hret,
        Bool.false_eq_true]
      rfl
  case halt =>
    rw [exec_sysHalt hi hc, run_alone ha, State.sysHalts]
    simp only [Bool.and_eq_true]
    rfl

/-- Held between 1 and 16. -/
theorem min_max_cadence (k : Nat) : Nat.min (Nat.max k 1) 16 = if k = 0 then 1 else if 16 < k then 16 else k := by
  show min (max k 1) 16 = _
  split_ifs <;> omega

/-- R425, R39: sys cad is judged in the packet's lowest lane, and the thread goes on after the grant. -/
theorem cadenceRequestCompletes : CadenceRequestCompletes := by
  intro i c s t g hi hc ha hg q k
  obtain ⟨-, -, -, -, -, -, hread⟩ := alone_iff.1 ha
  rw [exec_sysCad hi hc, State.sysCadence, participants_alone ha]
  simp only [List.any_cons, List.any_nil, hread, Option.isSome_none, Bool.or_self, Bool.false_eq_true, if_false, hg,
    min_max_cadence]
  cases hpriv : (s.context (s.ctxOf t.ref.kid)).priv
  · simp only [Bool.not_false, if_true, Bool.false_eq_true, if_false, run_alone ha]
    rfl
  · simp only [Bool.not_true, Bool.false_eq_true, if_false, if_true]
    rw [run_alone (alone_of_sameThreads ?_ ha)]
    exact (s.sameThreads_updQuarter _ _).trans (State.sameThreads_regrant _ _)

/-- Settles O31: brk, the system calls and the request of a cadence, each by what it does in its thread. The bytes of the packet
that tells a halt are the model's choice (log entry 13). -/
theorem breakAndSystemCall : Obligations.BreakAndSystemCall :=
  ⟨breakCompletes, systemInstructionsComplete, cadenceRequestCompletes⟩

end Sys2Proof.Claims
end

section
/-! PROOFS. join and spawn (R33, R142, R156, R178, R319 to R321, R325). -/

namespace Sys2Proof.Machine

/-! ## What the estimate and the scratchpad leave -/

/-- An event of the energy estimate changes kernels and contexts alone (R420). -/
theorem State.activity_eq (s : State) (kid kind n : Nat) : s.activity kid kind n = s.modify fun m =>
    { m with kernels := (s.activity kid kind n).m.kernels, contexts := (s.activity kid kind n).m.contexts } := by
  unfold State.activity
  simp only
  split <;> rfl

/-- Operands are read in the thread and its gang. -/
theorem State.lane_opnd_congr {s u : State} (h : u.m.gangs = s.m.gangs) (c : Code) (t : Thread) (w : Nat) (code : BitVec 8) :
    (u.lane c t).opnd w code = (s.lane c t).opnd w code := by
  have hg : u.gregs t = s.gregs t := by simp only [State.gregs, State.gangOf, State.gang?, h]
  unfold State.lane Lane.opnd
  rw [hg]

/-- A change of the one thread of a name sets that thread. -/
theorem State.updThread_eq_setThread {s : State} (hn : (s.m.threads.map (·.ref)).Nodup) {t : Thread}
    (ht : s.thread? t.ref = some t) {f : Thread → Thread} (hf : (f t).ref = t.ref) : s.updThread t.ref f = s.setThread (f t) := by
  refine congrArg s.withThreads ?_
  rw [hf, updBy_eq_map hn ht f]
  simp only [updBy, beq_iff_eq]

/-! ## The counter's lines (R155) -/

/-- A range of the scratchpad is present when none of its bytes lies in a counted line. -/
theorem Team.present_eq (x : Team) (a : Nat) {n : Nat} (hn : 0 < n) :
    x.present a n = (List.range n).all fun k => !x.counts.any (·.1 == (a + k) / 128) := by
  have line (l : Nat) : ¬ (l * 128 < a + n ∧ a < l * 128 + 128) ↔ ∀ k < n, l ≠ (a + k) / 128 := by
    constructor
    · intro h k hk hl
      omega
    · intro h ⟨hlo, hhi⟩
      exact h (l * 128 - a) (by omega) (by omega)
  rw [Bool.eq_iff_iff]
  simp only [Team.present, List.all_eq_true, Bool.not_eq_true', Bool.and_eq_false_iff, decide_eq_false_iff_not, List.mem_range,
    List.any_eq_false, beq_iff_eq, ← not_and_or, line]
  exact ⟨fun h k hk c hc => h c hc k hk, fun h c hc k hk => h k hk c hc⟩

/-! ## The counter of a spawn (R319, R320) -/

theorem State.spawnCounter_eq (s : State) (c : Code) (t : Thread) : s.spawnCounter c t =
    if (s.lane c t).word c.fields.b = 0xFFFFFFFF then none else some ((s.lane c t).word c.fields.b).toNat := by
  simp only [State.spawnCounter, beq_iff_eq]

theorem State.spawnHeld_iff {s : State} {c : Code} {t : Thread} : s.spawnHeld c t = true ↔
    (s.lane c t).word c.fields.b ≠ 0xFFFFFFFF ∧ (t.fenced 3 = true ∨ t.storing = true) := by
  rw [State.spawnHeld, State.spawnCounter_eq]
  split <;> simp_all

/-- A counter that fits, is aligned and is not locked is found at its address. -/
theorem State.counterAddress_ok {s : State} {t : Thread} {g : Gang} {j : Nat} (hfit : j + 8 ≤ s.limit t 1) (h8 : j % 8 = 0)
    (hl : s.rangeLocked t g 1 j j 8 true = false) : s.counterAddress t g j = .ok j := by
  have hea : effAddr 1 (s.limit t 1) j 0 8 = .ok j := by
    have hlow : ¬ ((j : Int) < 0 ∨ (s.limit t 1 : Int) < (j : Int) + 8) := by omega
    simp [effAddr, h8, hlow]
  simp [State.counterAddress, hea, hl]

end Sys2Proof.Machine

namespace Sys2Proof.Claims
open Sys2Proof.Machine

/-! ## join -/

theorem exec_join {i : Instr} {c : Code} (hi : (∃ o, i = .join o) ∨ ∃ o, i = .joinExt o) (hc : i.code = some c) (s : State) :
    exec i s = .next (s.run c (fun s t => s.joinsCounter c t) true) := by
  obtain ⟨o, rfl⟩ | ⟨o, rfl⟩ := hi
  all_goals
    cases hc
    rfl

/-- R142, R156, R178, R325, R420. -/
theorem joinCompletes : JoinCompletes := by
  intro i c s t g x a hi hc ha h8 hf hg hx haddr n u present
  rw [exec_join hi hc, run_alone_defers ha fun _ => h8]
  refine ⟨fun hst => ?_, fun hst => ?_⟩
  · simp only [State.joinsCounter, hst, Bool.or_true, if_true]
  · have hpresent : x.present a 8 = present := x.present_eq a (by decide)
    have hf' : t.fenced classRead = false := hf
    simp only [State.joinsCounter, hst, hf', haddr, hg, hx, hpresent, Bool.or_self, Bool.false_eq_true, if_false]
    cases present
    · rfl
    · exact congrArg (fun r : ThreadRef => Host.Outcome.next (State.activity _ r.kid 3 1)) (u.finish_ref c)

/-! ## spawn -/

theorem spawnCount_some {s : State} {c : Code} {t : Thread} {g : Gang} {j : Option Nat} (h : spawnCount s c t g = some j) :
    s.spawnCounter c t = j ∧ ∀ a, j = some a → s.counterAddress t g a = .ok a := by
  unfold spawnCount at h
  simp only at h
  split at h
  next hno =>
    cases h
    have hw : (s.lane c t).word c.fields.b = 0xFFFFFFFF := BitVec.eq_of_toNat_eq hno
    exact ⟨(s.spawnCounter_eq c t).trans (if_pos hw), nofun⟩
  next hsome =>
    split at h
    next hok =>
      cases h
      have hw : (s.lane c t).word c.fields.b ≠ 0xFFFFFFFF := fun hw => hsome (congrArg BitVec.toNat hw)
      obtain ⟨hfit, h8, hl⟩ := hok
      refine ⟨(s.spawnCounter_eq c t).trans (if_neg hw), fun a ha => ?_⟩
      cases ha
      exact State.counterAddress_ok hfit h8 hl
    · cases h

/-- A misuse in the packet's one thread is raised there, and without one the instruction acts (R366). -/
theorem runMisuse_alone {s : State} {c : Code} {t : Thread} (ha : alone s c t = true) (window : Bool) (bad : State → Thread → Bool)
    (body : State → Thread → State) : s.runMisuse c window bad body =
      if !(window && (tackOpenBit t.tackst || t.outstanding)) && bad s t then s.raiseAt t c { cause := Cause.barrierMisuse }
      else body s t := by
  obtain ⟨-, hp, ht, hg, hout, -, -⟩ := alone_iff.1 ha
  have hbody : s.runThread c false body t = body s t := by
    rw [← run_alone ha body, State.run, State.eachThread_one hp ht]
  simp only [State.runMisuse, run_alone ha]
  rw [hp]
  simp only [List.foldl_cons, List.foldl_nil, ht, hbody, hg, hout, Bool.not_false, Bool.and_true, Bool.true_and, Bool.false_or]

theorem exec_spawn (o : Ext) (s : State) : exec (.spawn o) s = .next
    (s.runMisuse (.ext 0x6D o) true (fun s t => s.badSpawn (.ext 0x6D o) t) fun s t => s.spawns (.ext 0x6D o) t) := rfl

theorem badSpawn_of_held {s : State} {c : Code} {t : Thread} (h : s.spawnHeld c t = true) : s.badSpawn c t = false := by
  unfold State.badSpawn
  split
  · rw [h, Bool.not_true, Bool.and_false, Bool.false_and]
  · rfl

theorem badSpawn_of_pop {s : State} {c : Code} {t : Thread} (h : s.pop t.ref.kid = true) : s.badSpawn c t = false := by
  unfold State.badSpawn
  split
  · rw [h, Bool.not_true, Bool.false_and, Bool.false_and]
  · rfl

section
variable {s : State} {c : Code} {t : Thread} {g : Gang} {x : Team} (hg : s.gangOf t = some g) (hx : s.teamOf t = some x)
include hg hx

/-- A spawn that nothing holds back and whose counter is full is a misuse (R320, R366). -/
theorem badSpawn_iff {j : Option Nat} (hheld : s.spawnHeld c t = false) (hpop : s.pop t.ref.kid = false)
    (hj : spawnCount s c t g = some j) :
    s.badSpawn c t = true ↔ ∃ a, j = some a ∧ natOfBytes (s.winRead (hsAddr x a) 4) = 0xFFFFFFFF := by
  obtain ⟨hcounter, haddr⟩ := spawnCount_some hj
  cases j with
  | none => simp [State.badSpawn, hcounter]
  | some a => simp [State.badSpawn, hcounter, hg, hx, hheld, hpop, haddr a rfl]

/-- The spawn itself (R320, R321): the counter, where there is one, is raised, and the child enters a bin. -/
theorem spawns_eq {j : Option Nat} (hheld : s.spawnHeld c t = false) (hpop : s.pop t.ref.kid = false)
    (hj : spawnCount s c t g = some j) :
    s.spawns c t =
      if t.outstanding then s
      else match (s.hub g.hub).binFor t.ref.teamRef g.role (relTarget c.fields t.pc) with
        | none => s
        | some n =>
          let r := match j with
            | some a =>
              (s.winWrite (hsAddr x a) (bytesOfNat 4 (natOfBytes (s.winRead (hsAddr x a) 4) + 1))).activity t.ref.kid 3 1
            | none => s
          (r.setHub ((r.hub g.hub).enterBin n r.m.cycle t.ref.teamRef g.role (relTarget c.fields t.pc)
            { args := (r.lane c t).quad c.fields.a, counter := j, lineage := spawnLineage t, halt := none })).updThread t.ref
              fun t => ({ t with spawns := t.spawns + 1 } : Thread).finish c := by
  obtain ⟨hcounter, haddr⟩ := spawnCount_some hj
  cases j with
  | none =>
    simp only [State.spawns, hheld, hpop, hg, hx, hcounter, Bool.false_eq_true, if_false] <;> rfl
  | some a =>
    simp only [State.spawns, hheld, hpop, hg, hx, hcounter, haddr a rfl, Bool.false_eq_true, if_false] <;> rfl

end

/-- R319 to R321, R33. -/
theorem spawnCompletes : SpawnCompletes := by
  intro o s t g x c ha hg hx hopen held
  rw [exec_spawn, runMisuse_alone ha, hopen, Bool.true_and, Bool.false_or]
  have hiff : s.spawnHeld c t = true ↔ held := State.spawnHeld_iff
  refine ⟨fun hheld => ?held, fun hfree hpop => ?population, fun j hfree hpop hj hout => ?outstanding,
    fun j hfree hpop hj hout => ?_⟩
  case held =>
    rw [badSpawn_of_held (hiff.2 hheld), Bool.and_false, if_neg Bool.false_ne_true, State.spawns, if_pos (hiff.2 hheld)]
  case population =>
    rw [badSpawn_of_pop hpop, Bool.and_false, if_neg Bool.false_ne_true, State.spawns, if_neg (mt hiff.1 hfree), if_pos hpop]
    rfl
  case outstanding =>
    rw [hout, Bool.not_true, Bool.false_and, if_neg Bool.false_ne_true,
      spawns_eq hg hx (eq_false_of_ne_true (mt hiff.1 hfree)) hpop hj, if_pos hout]
  have hheld : s.spawnHeld c t = false := eq_false_of_ne_true (mt hiff.1 hfree)
  intro entry pend full r
  have hbad : s.badSpawn c t = true ↔ full := badSpawn_iff hg hx hheld hpop hj
  rw [hout, Bool.not_false, Bool.true_and, spawns_eq hg hx hheld hpop hj, hout, if_neg Bool.false_ne_true]
  refine ⟨fun hfull => ?full, fun hroom hbin => ?noBin, fun n hroom hbin => ?spawned⟩
  case full =>
    rw [if_pos (hbad.2 hfull)]
    rfl
  case noBin =>
    rw [if_neg (mt hbad.1 hroom), show relTarget c.fields t.pc = entry from rfl, hbin]
  case spawned =>
    rw [if_neg (mt hbad.1 hroom), show relTarget c.fields t.pc = entry from rfl, hbin]
    obtain ⟨hd, -, ht, -⟩ := alone_iff.1 ha
    have hr : r.m.hubs = s.m.hubs ∧ r.m.cycle = s.m.cycle ∧ r.m.threads = s.m.threads ∧ r.m.gangs = s.m.gangs := by
      cases j with
      | none => exact ⟨rfl, rfl, rfl, rfl⟩
      | some a =>
        simp only [r]
        rw [State.activity_eq]
        exact ⟨rfl, rfl, rfl, rfl⟩
    show Host.Outcome.next ((r.setHub ((r.hub g.hub).enterBin n r.m.cycle t.ref.teamRef g.role entry
      { args := (r.lane c t).quad c.fields.a, counter := j, lineage := spawnLineage t, halt := none })).updThread t.ref
        fun t => ({ t with spawns := t.spawns + 1 } : Thread).finish c) = _
    clear_value r
    obtain ⟨hhubs, hcycle, hthreads, hgangs⟩ := hr
    have hhub : r.hub g.hub = s.hub g.hub := by simp only [State.hub, hhubs]
    have hargs : (r.lane c t).quad c.fields.a = (s.lane c t).opnd 4 o.a := State.lane_opnd_congr hgangs c t 4 o.a
    rw [hhub, hcycle, hargs, State.updThread_eq_setThread]
    · rfl
    · exact hthreads ▸ (distinct_iff.1 hd).1
    · exact (congrArg (List.find? _) hthreads).trans ht
    · exact Thread.finish_ref _ c

/-- Settles O25. That a spawn changes its counter at issue and that a child's entry wraps at 57 bits are the model's choices (log
entries 58 and 96). -/
theorem spawnAndJoin : Obligations.SpawnAndJoin := ⟨joinCompletes, spawnCompletes⟩

end Sys2Proof.Claims
end

section
/-! PROOFS. A poisoned register in an accumulator operation: where a thread's gang has no team, the operation has no effect at all
(R157, R251). -/

namespace Sys2Proof.Machine

/-- An accumulator operation of a thread whose gang has no team does nothing. -/
theorem State.engineOp_of_no_team {s : State} {c : Code} {t : Thread} {g : Gang} (hp : s.m.packet = [t.ref])
    (ht : s.thread? t.ref = some t) (hf : t.fenced classMatrix = false) (hout : s.outOfRange c t = false)
    (h8 : t.pend.length < 8) (hg : s.gangOf t = some g) (hx : s.teamOf t = none) (op : EngineOp) : s.engineOp c op = s := by
  have hfull : decide (8 ≤ t.pend.length) = false := decide_eq_false (Nat.not_le.2 h8)
  simp only [State.engineOp, hp, List.filterMap_cons, List.filterMap_nil, ht, List.any_cons, List.any_nil, hf, hout, hfull, hg, hx,
    List.filter_cons, Bool.and_false, Bool.false_and, Bool.not_false, Bool.or_self, Bool.false_eq_true, if_false, if_true]

end Sys2Proof.Machine

namespace Sys2Proof.Claims
open Sys2Proof.Machine

/-! ## A gang without a team -/

/-- mld from the rows at v0. -/
def rowLoad : Ext :=
  { s := false, d := 0, a := 0, sub := 1, b := 0, c := 0, n := false, p := 0, rnd := 0, fmt := 0, scope := 0, ord := 0, imm := 0
    lit := none }
def orphanRef : ThreadRef := { kid := 0, team := 0, gang := 0, lane := 0 }
def orphanGang : Gang := State.reset.newGang orphanRef.gangRef 0 0 0 0 0 (0, 0)
/-- A thread whose v0 is poisoned. -/
def orphan : Thread := { Thread.fresh orphanRef 0 0 0 0 with poison := [0] }
/-- A module that runs, with the thread in the packet, its gang, and no team. -/
def orphaned : State := State.reset.modify fun m =>
  { m with agenda := [], bringUp := 1, gangs := [orphanGang], threads := [orphan], packet := [orphanRef] }
def rowLoadCode : Code := .ext 0x77 rowLoad

theorem orphaned_unchanged : exec (.mldRegs rowLoad) orphaned = .next orphaned :=
  congrArg Host.Outcome.next
    (State.engineOp_of_no_team (t := orphan) (g := orphanGang) rfl rfl rfl (by decide) (by decide) rfl rfl .mldRegs)

theorem orphaned_poison : orphaned.poisonRead rowLoadCode orphan =
    some (BitVec.ofNat 64 (threadRegWindow orphanGang 0 0)) := by decide

/-- The end of the team takes the thread with it. -/
theorem orphaned_fatal (addr : Dword) (word0 : Word) : (orphaned.fatal orphan 0x0E 0 addr false 0 word0).m.threads = [] := rfl

/-- Refutes O10: the statement speaks of every state, also of one whose gang has no team (that it has one is no premise). There
mld of a poisoned row has no effect, where the statement has MEM_ERROR end the team. -/
theorem not_registerFaults : ¬ Obligations.RegisterFaults := by
  rintro ⟨-, poisoned⟩
  have h := poisoned (.mldRegs rowLoad) rowLoadCode orphaned orphan _ rfl rfl (by decide) (by decide) rfl rfl (by decide) (by decide)
    rfl (by decide) (by decide) orphaned_poison
  rw [orphaned_unchanged, Host.Outcome.next.injEq] at h
  have hthreads : [orphan] = [] := (congrArg (·.m.threads) h).trans (orphaned_fatal _ _)
  exact List.cons_ne_nil _ _ hthreads

end Sys2Proof.Claims
end

section
/-! PROOFS. Answers of another module: a packet names a request by the low 32 bits of its number, so it answers a request whose whole
number it does not hold (R163, R393, R399). -/

namespace Sys2Proof.Claims
open Sys2Proof.Machine

/-! ## The acknowledgement of the stamp log's first write -/

/-- The first request that the stamp log sends to another module: its numbers begin at 2 ^ 64 (R399; log entry 6). -/
def logWrite : HomeReq :=
  { id := logBase, link := unitLink, hub := logHub, pa := 0, size := 32, op := .write [(0, 1)] none false
    back := .unit .other (.module 1), rmt := false, replica := none }
/-- The other module's acknowledgement, of class 5, as it names the request: by 32 bits, all zero. -/
def logAck : Arrival := { port := 1, kind := 3, desc := 0x50001, payload := packet Packet.ack logBase 0 [] }
/-- A module that runs, with the request on its way, to which the acknowledgement comes. -/
def logAwaits : State := State.reset.modify fun m =>
  { m with agenda := [], bringUp := 1, remote := [logWrite], ev := { item := logAck } }

/-- The acknowledgement takes the request off the list. -/
theorem logAck_answers : exec .fabricPacket logAwaits = .next (logAwaits.modify fun m => { m with remote := [] }) := rfl

/-- No request has the number that the acknowledgement holds. -/
theorem logAck_names_none : logAwaits.m.remote.find? (·.id == fieldAt logAck.payload 4 4) = none := by decide

/-- Refutes O34: an answer holds the low 32 bits of a request's number, and the model answers the request that has them (R163);
the statement has the packet name a request by its whole number, and have no effect where none has that number. -/
theorem not_hostAndFabricPackets : ¬ Obligations.HostAndFabricPackets := by
  rintro ⟨-, packets⟩
  obtain ⟨-, -, -, -, -, -, -, unnamed, -⟩ := packets logAwaits
  have h := unnamed (.inr (by decide)) logAck_names_none
  rw [logAck_answers, Host.Outcome.next.injEq] at h
  have hremote : [] = [logWrite] := congrArg (·.m.remote) h
  exact List.cons_ne_nil _ _ hremote.symm

end Sys2Proof.Claims
end

section
/-! PROOFS. Words and instructions: the fields of a form are laid in its words and read from them again, and a form names one
instruction (R47, R48, R50, R63, R68 to R70). -/

namespace Sys2Proof

/-! ## The parts of a word -/

/-- A bit as a field of one bit. -/
theorem ofBool_getLsbD {n : Nat} (x : BitVec n) (i : Nat) : BitVec.ofBool (x.getLsbD i) = x.extractLsb' i 1 := by
  ext k hk
  obtain rfl : k = 0 := by omega
  simp

/-- LEN announces the form and the literal. -/
theorem lenBits_eq (w0 : Word) (lit : Dword) :
    lenBits (isExt w0) (if hasLit w0 then some lit else none) = w0.extractLsb' 30 2 := by
  have hlit : (if hasLit w0 then some lit else none).isSome = hasLit w0 := by
    cases hasLit w0 <;> rfl
  rw [lenBits, hlit, isExt, hasLit, ofBool_getLsbD, ofBool_getLsbD]
  exact (BitVec.extractLsb'_append_extractLsb'_eq_extractLsb' (x := lenOf w0) (by decide)).trans BitVec.extractLsb'_eq_self

/-- The parts of a base word make the word (R48). -/
theorem word0_baseOf {w0 : Word} (h : isExt w0 = false) (lit : Dword) :
    (baseOf w0 lit).word0 (w0.extractLsb' 22 7) = w0 := by
  have hlen := lenBits_eq w0 lit
  rw [h] at hlen
  simp only [Base.word0, baseOf, hlen, ofBool_getLsbD, -Nat.reduceAdd]
  repeat rw [BitVec.extractLsb'_append_extractLsb'_eq_extractLsb' (by decide)]
  exact BitVec.extractLsb'_eq_self

/-- The parts of word 0 of an extended form make the word (R50). -/
theorem word0_extOf {w0 : Word} (h : isExt w0 = true) (w1 w2 : Word) (lit : Dword) :
    (extOf w0 w1 w2 lit).word0 (w0.extractLsb' 22 7) = w0 := by
  have hlen := lenBits_eq w0 lit
  rw [h] at hlen
  simp only [Ext.word0, extOf, hlen, ofBool_getLsbD, -Nat.reduceAdd]
  repeat rw [BitVec.extractLsb'_append_extractLsb'_eq_extractLsb' (by decide)]
  exact BitVec.extractLsb'_eq_self

/-- The parts of word 1 of an extended form make the word (R50). -/
theorem word1_extOf (w0 w1 w2 : Word) (lit : Dword) : (extOf w0 w1 w2 lit).word1 = w1 := by
  simp only [Ext.word1, extOf, ofBool_getLsbD, -Nat.reduceAdd]
  repeat rw [BitVec.extractLsb'_append_extractLsb'_eq_extractLsb' (by decide)]
  exact BitVec.extractLsb'_eq_self

/-- LEN of a form names its form and says whether it has a literal. -/
theorem getLsbD_lenBits (ext : Bool) (lit : Option Dword) :
    (lenBits ext lit).getLsbD 1 = ext ∧ (lenBits ext lit).getLsbD 0 = lit.isSome := by
  simp only [lenBits, BitVec.getLsbD_append, -Nat.reduceAdd]
  simp

theorem lenOf_base (op : BitVec 7) (o : Base) : lenOf (o.word0 op) = lenBits false o.lit := by
  simp (disch := decide) only [lenOf, Base.word0, BitVec.extractLsb'_append_eq_of_le, -Nat.reduceAdd]
  exact BitVec.extractLsb'_eq_self

theorem lenOf_ext (op : BitVec 7) (o : Ext) : lenOf (o.word0 op) = lenBits true o.lit := by
  simp (disch := decide) only [lenOf, Ext.word0, BitVec.extractLsb'_append_eq_of_le, -Nat.reduceAdd]
  exact BitVec.extractLsb'_eq_self

/-- The fields of a base word are read as they were laid (R48). -/
theorem baseOf_word0 (op : BitVec 7) (o : Base) (lit : Dword) :
    baseOf (o.word0 op) lit = { o with lit := if o.lit.isSome then some lit else none } := by
  simp only [baseOf, hasLit, lenOf_base, getLsbD_lenBits]
  simp (disch := decide) only [Base.word0, BitVec.extractLsb'_append_eq_of_le, BitVec.extractLsb'_append_eq_of_add_le,
    BitVec.getLsbD_append, -Nat.reduceAdd]
  simp

theorem op_baseWord (op : BitVec 7) (o : Base) : (o.word0 op).extractLsb' 22 7 = op := by
  simp (disch := decide) only [Base.word0, BitVec.extractLsb'_append_eq_of_le, BitVec.extractLsb'_append_eq_of_add_le,
    -Nat.reduceAdd]
  exact BitVec.extractLsb'_eq_self

/-- The fields of an extended form are read as they were laid (R50). -/
theorem extOf_words (op : BitVec 7) (o : Ext) (lit : Dword) :
    extOf (o.word0 op) o.word1 o.imm lit = { o with lit := if o.lit.isSome then some lit else none } := by
  simp only [extOf, hasLit, lenOf_ext, getLsbD_lenBits]
  simp (disch := decide) only [Ext.word0, Ext.word1, BitVec.extractLsb'_append_eq_of_le, BitVec.extractLsb'_append_eq_of_add_le,
    BitVec.getLsbD_append, -Nat.reduceAdd]
  simp

theorem op_extWord (op : BitVec 7) (o : Ext) : (o.word0 op).extractLsb' 22 7 = op := by
  simp (disch := decide) only [Ext.word0, BitVec.extractLsb'_append_eq_of_le, BitVec.extractLsb'_append_eq_of_add_le,
    -Nat.reduceAdd]
  exact BitVec.extractLsb'_eq_self

/-! ## The form that words are read as -/

/-- The form that a list of words is read as, before the checks (R47). -/
def readForm (ws : List Word) : Code :=
  let k := if isExt (ws.getD 0 0) then 3 else 1
  formOfWords (ws.getD 0 0) (ws.getD 1 0) (ws.getD 2 0) (pair (ws.getD k 0) (ws.getD (k + 1) 0))

theorem decodeList_eq (ws : List Word) : decodeList ws = match checkFields (readForm ws).fields with
    | some why => .illegal why (xfldOf (ws.getD 0 0) (readForm ws).fields why.badf)
    | none => match (readForm ws).instr? with
      | some i => .ok i
      | none => .illegal .op (xfldOf (ws.getD 0 0) (readForm ws).fields 0) := rfl

/-- The decoder accepts the words whose form passes the checks and names an instruction. -/
theorem decodeList_eq_ok_iff {ws : List Word} {i : Instr} :
    decodeList ws = .ok i ↔ checkFields (readForm ws).fields = none ∧ (readForm ws).instr? = some i := by
  rw [decodeList_eq]
  generalize readForm ws = c
  cases checkFields c.fields with
  | some why => simp
  | none => cases c.instr? <;> simp

/-- A literal is read from its two words (R3, R53). -/
theorem pair_halves (x : Dword) : pair (lowHalf x) (highHalf x) = x := by
  ext i hi
  rw [Machine.getElem_pair _ _ hi]
  split
  · simp [BitVec.getLsbD_eq_getElem hi]
  next h => simp [BitVec.getLsbD_eq_getElem hi, show 32 + (i - 32) = i by omega]

theorem pair_literalWords (lit : Option Dword) :
    (if lit.isSome then some (pair ((literalWords lit).getD 0 0) ((literalWords lit).getD 1 0)) else none) = lit := by
  cases lit with
  | none => rfl
  | some x => exact congrArg some (pair_halves x)

theorem literalWords_pair (lo hi : Word) : literalWords (some (pair lo hi)) = [lo, hi] := by
  have hlow : lowHalf (pair lo hi) = lo := by
    ext i h
    simp [BitVec.getLsbD_eq_getElem (show i < 64 by omega), Machine.getElem_pair, h]
  have hhigh : highHalf (pair lo hi) = hi := by
    ext i h
    simp [BitVec.getLsbD_eq_getElem (show 32 + i < 64 by omega), Machine.getElem_pair]
  rw [literalWords, hlow, hhigh]

/-- The words of a form are read as that form: no operand of it is lost. -/
theorem readForm_words (c : Code) : readForm c.words = c := by
  cases c with
  | base op o =>
    have hext : isExt (o.word0 op) = false := by rw [isExt, lenOf_base, (getLsbD_lenBits false o.lit).1]
    simp only [readForm, Code.words, List.getD_cons_zero, List.getD_cons_succ, formOfWords, hext, Bool.false_eq_true, if_false,
      op_baseWord, baseOf_word0]
    rw [pair_literalWords]
  | ext op o =>
    have hext : isExt (o.word0 op) = true := by rw [isExt, lenOf_ext, (getLsbD_lenBits true o.lit).1]
    simp only [readForm, Code.words, List.getD_cons_zero, List.getD_cons_succ, formOfWords, hext, if_true, op_extWord, extOf_words]
    rw [pair_literalWords]

/-- The words of the form that words are read as: those that LEN announces (R47). -/
theorem words_formOfWords (w0 w1 w2 lo hi : Word) : (formOfWords w0 w1 w2 (pair lo hi)).words =
    w0 :: (if isExt w0 then [w1, w2] else []) ++ (if hasLit w0 then [lo, hi] else []) := by
  have hlit : literalWords (if hasLit w0 then some (pair lo hi) else none) = if hasLit w0 then [lo, hi] else [] := by
    cases hasLit w0
    · rfl
    · exact literalWords_pair lo hi
  unfold formOfWords
  cases hext : isExt w0 with
  | false => exact congrArg₂ List.cons (word0_baseOf hext _) hlit
  | true =>
    exact congrArg₂ List.cons (word0_extOf hext w1 w2 _)
      (congrArg₂ List.cons (word1_extOf w0 w1 w2 _) (congrArg (w2 :: ·) hlit))

/-- They are the words read, so that no bit of them is dropped. -/
theorem words_readForm (ws : List Word) :
    (readForm ws).words = (List.range (readForm ws).words.length).map fun k => ws.getD k 0 := by
  rw [readForm, words_formOfWords]
  cases isExt (ws.getD 0 0) <;> cases hasLit (ws.getD 0 0) <;> rfl

/-! ## The instruction that a form names -/

theorem eq_ofNat_of_toNat {n k : Nat} {x : BitVec n} (h : x.toNat = k) : x = BitVec.ofNat n k := by
  rw [← h, BitVec.ofNat_toNat, BitVec.setWidth_eq]

/-- A base word that names an instruction is that instruction's own, and its selecting field holds the constructor's value (R63,
R69). -/
theorem code_of_baseInstr {op : BitVec 7} {o : Base} {i : Instr} (h : baseInstr op o = some i) :
    i.code = some (.base op o) ∧ i.selects = true := by
  unfold baseInstr at h
  split at h
  -- sys: the first source field selects the operation (R69)
  case h_84 =>
    obtain rfl := eq_ofNat_of_toNat ‹op.toNat = _›
    split at h
    all_goals cases h
    all_goals exact ⟨rfl, beq_iff_eq.2 ‹_›⟩
  all_goals
    cases h
  all_goals
    obtain rfl := eq_ofNat_of_toNat ‹op.toNat = _›
    exact ⟨rfl, rfl⟩

/-- The same of an extended form (R63, R68, R69). -/
theorem code_of_extInstr {op : BitVec 7} {o : Ext} {i : Instr} (h : extInstr op o = some i) :
    i.code = some (.ext op o) ∧ i.selects = true := by
  unfold extInstr at h
  split at h
  -- bar, tb, mld, mst and sys: a field selects the operation (R68, R69)
  case h_93 | h_94 | h_104 | h_105 | h_111 =>
    obtain rfl := eq_ofNat_of_toNat ‹op.toNat = _›
    split at h
    all_goals cases h
    all_goals exact ⟨rfl, beq_iff_eq.2 ‹_›⟩
  all_goals
    cases h
  all_goals
    obtain rfl := eq_ofNat_of_toNat ‹op.toNat = _›
    exact ⟨rfl, rfl⟩

theorem code_of_instr? {c : Code} {i : Instr} (h : c.instr? = some i) : i.code = some c ∧ i.selects = true := by
  cases c with
  | base op o => exact code_of_baseInstr h
  | ext op o => exact code_of_extInstr h

/-- An instruction's form names the instruction, where its selecting field holds the constructor's value (R63, R68, R69). -/
theorem instr?_of_code {c : Code} {i : Instr} (hc : i.code = some c) (hs : i.selects = true) : c.instr? = some i := by
  cases i
  all_goals cases hc
  case barArr o => exact Laws.Words.barArr o _ rfl hs
  case barWait o => exact Laws.Words.barWait o _ rfl hs
  case barSync o => exact Laws.Words.barSync o _ rfl hs
  case tbInit o => exact Laws.Words.tbInit o _ rfl hs
  case tbArr o => exact Laws.Words.tbArr o _ rfl hs
  case tbExp o => exact Laws.Words.tbExp o _ rfl hs
  case tbWait o => exact Laws.Words.tbWait o _ rfl hs
  case tbTest o => exact Laws.Words.tbTest o _ rfl hs
  case mld o => exact Laws.Words.mld o _ rfl hs
  case mldRegs o => exact Laws.Words.mldRegs o _ rfl hs
  case mst o => exact Laws.Words.mst o _ rfl hs
  case mstRegs o => exact Laws.Words.mstRegs o _ rfl hs
  case sysTrap o => exact Laws.Words.sysTrap o _ rfl hs
  case sysTrapExt o => exact Laws.Words.sysTrapExt o _ rfl hs
  case sysTret o => exact Laws.Words.sysTret o _ rfl hs
  case sysTretExt o => exact Laws.Words.sysTretExt o _ rfl hs
  case sysTkill o => exact Laws.Words.sysTkill o _ rfl hs
  case sysTkillExt o => exact Laws.Words.sysTkillExt o _ rfl hs
  case sysHalt o => exact Laws.Words.sysHalt o _ rfl hs
  case sysHaltExt o => exact Laws.Words.sysHaltExt o _ rfl hs
  case sysCad o => exact Laws.Words.sysCad o _ rfl hs
  case sysCadExt o => exact Laws.Words.sysCadExt o _ rfl hs
  case sysIdle o => exact Laws.Words.sysIdle o _ rfl hs
  case sysIdleExt o => exact Laws.Words.sysIdleExt o _ rfl hs
  all_goals rfl

end Sys2Proof

namespace Sys2Proof.Claims

theorem wellFormed_iff {i : Instr} {c : Code} (hc : i.code = some c) :
    i.wellFormed = true ↔ checkFields c.fields = none ∧ i.selects = true := by
  simp [Instr.wellFormed, hc]

theorem isEvent_eq_false_iff {i : Instr} : i.isEvent = false ↔ ∃ c, i.code = some c := by
  rw [Instr.isEvent, Option.isNone_eq_false_iff, Option.isSome_iff_exists]

theorem encode_of_code {i : Instr} {c : Code} (hc : i.code = some c) : encode i = c.words := by
  rw [encode, hc]

/-- Settles O50: the words of the instruction's form are read as that form, which passes the checks and names the instruction. -/
theorem decodeOfEncode : Obligations.DecodeOfEncode := by
  intro i he hw
  obtain ⟨c, hc⟩ := isEvent_eq_false_iff.1 he
  obtain ⟨hcheck, hsel⟩ := (wellFormed_iff hc).1 hw
  rw [encode_of_code hc, decodeList_eq_ok_iff, readForm_words]
  exact ⟨hcheck, instr?_of_code hc hsel⟩

/-- Settles O51: the form that the words are read as is the instruction's own, and its words are those read. -/
theorem encodeOfDecode : Obligations.EncodeOfDecode := by
  intro ws i h
  obtain ⟨hcheck, hi⟩ := decodeList_eq_ok_iff.1 h
  obtain ⟨hc, hsel⟩ := code_of_instr? hi
  refine ⟨(wellFormed_iff hc).2 ⟨hcheck, hsel⟩, isEvent_eq_false_iff.2 ⟨_, hc⟩, ?_⟩
  rw [encode_of_code hc]
  exact words_readForm ws

/-- Settles O52: each word list is decoded. -/
theorem wordsOfTheSpecDecode : Obligations.WordsOfTheSpecDecode := by
  refine ⟨?_, ?_, ?_, ?_, ?_, ?_, ?_, ?_⟩ <;> decide

end Sys2Proof.Claims
end

section
/-! PROOFS. Compares: the condition on the operands, and how the result is combined with the predicate as it stood (R68, R109, R113,
R118). -/

namespace Sys2Proof.Claims
open Sys2Proof.Machine

/-- A NaN makes every condition false but ne and un (R113). -/
theorem fpCond_nan {x y : Fp} (h : x.isNan ∨ y.isNan) (cond : Nat) : fpCond cond x y = decide (cond = 1 ∨ cond = 6) := by
  have hun : (x.isNan || y.isNan) = true := by simpa using h
  unfold fpCond
  rw [hun]
  split <;> simp_all

/-- Without a NaN each condition is of the comparison (R113). -/
theorem fpCond_number {x y : Fp} (hx : x.isNan = false) (hy : y.isNan = false) (cond : Nat) :
    fpCond cond x y = match cond with
      | 0 => decide (x.cmp y = 0)
      | 1 => decide (x.cmp y ≠ 0)
      | 2 => decide (x.cmp y < 0)
      | 3 => decide (x.cmp y ≤ 0)
      | 4 => decide (x.cmp y > 0)
      | 5 => decide (x.cmp y ≥ 0)
      | 6 => false
      | _ => true := by
  unfold fpCond
  rw [hx, hy]
  split <;> simp [bne, beq_eq_decide]

/-- Settles O4: the result is combined as the model's `combine` says, and the conditions are those of `intCond` and `fpCond`. -/
theorem predicateValues : Obligations.PredicateValues := by
  intro l n k put a b x y
  have hput (q : Nat) (r : Bool) : l.combined q r = put q r := by
    rw [Lane.combined]
    rfl
  have hcmp (r : Bool) (h : intCond (condOf l.f) a b = r) : cmpCalc l = { preds := [put n r] } := by rw [← hput, ← h, cmpCalc]
  have hfcmp (r : Bool) (h : fpCond (condOf l.f) x y = r) : fcmpCalc l = { preds := [put n r] } := by rw [← hput, ← h, fcmpCalc]
  refine ⟨fun h => hcmp _ ?_, fun h => hcmp _ ?_, fun h => hcmp _ ?_, fun h => hcmp _ ?_, fun h => hcmp _ ?_, fun h => hcmp _ ?_,
    fun h => hfcmp _ (fpCond_nan h _), fun hx hy => hfcmp _ (fpCond_number hx hy _), ?_⟩
  case refine_2 => simp [h, intCond, bne, beq_eq_decide]
  case refine_1 | refine_3 | refine_4 | refine_5 | refine_6 =>
    rw [h]
    rfl
  case refine_7 =>
    rintro f rfl
    rw [hcmp2Calc, hput, hput]

end Sys2Proof.Claims
end

section
/-! PROOFS. nop, yield, branches, pmov, sfence, lkwait and sys idle, and a branch target that is no code address (R54, R120, R126,
R129, R176, R179, R268). -/

namespace Sys2Proof.Machine

/-! ## Absolute targets (R120) -/

/-- The bits of an address (R120). -/
theorem addr57_eq (x : Dword) : addr57 x = BitVec.ofNat 64 (x.toNat % 2 ^ 57) := by
  refine BitVec.eq_of_toNat_eq ?_
  rw [addr57, BitVec.toNat_and, BitVec.toNat_ofNat, Nat.mod_eq_of_lt (b := 2 ^ 64) (by omega)]
  exact Nat.and_two_pow_sub_one_eq_mod x.toNat 57

/-! ## One thread -/

/-- pmov sets its thread (R129). -/
theorem State.movesPreds_eq (s : State) (c : Code) (t : Thread) : s.movesPreds c t = s.setThread
    ((if pmovIn c.fields then t.setPreds ((s.lane c t).word c.fields.a)
      else t.setRegs c.dstReg [t.predByte.zeroExtend 32] : Thread).finish c) := by
  unfold State.movesPreds
  split <;> rfl

/-- sfence sets its thread, or leaves it while the bump of an earlier one is awaited (R176). -/
theorem State.sfences_setThread (s : State) (c : Code) (t : Thread) : (s.setThread t).sfences c t = (s.setThread t).setThread
    (if t.sfenceWait.isSome then t else
      ({ t with sfenceWait := some ((t.out.filter fun o => o.classes &&& classHs != 0).map (·.tok)) } : Thread).finish c) := by
  unfold State.sfences
  split
  · rw [State.setThread_setThread _ _ _ rfl]
  · rfl

/-! ## The port of a packet -/

/-- A packet that enters the port changes hubs alone. -/
theorem State.sameThreads_openPort (s : State) : s.sameThreads s.openPort := by
  unfold State.openPort
  split <;> exact ⟨rfl, rfl, rfl⟩

theorem State.openPort_lane (s : State) (c : Code) (t : Thread) : s.openPort.lane c t = s.lane c t := by
  unfold State.openPort
  split <;> rfl

end Sys2Proof.Machine

namespace Sys2Proof.Claims
open Sys2Proof.Machine

/-- What an absolute target raises (R120). -/
theorem badTarget_eq (x : Dword) : badTarget x =
    if 2 ^ 57 ≤ x.toNat then some { cause := 0x06, addr := BitVec.ofNat 64 (x.toNat % 2 ^ 57) }
    else if x.toNat % 4 ≠ 0 then some { cause := 0x05, addr := x } else none := by
  have hwide : (x &&& 0xFE00000000000000 != 0) = !decide (x.toNat < 2 ^ 57) := swrBad_xpc x
  simp only [badTarget, hwide, addr57_eq, Bool.not_eq_true', decide_eq_false_iff_not, Nat.not_lt, bne_iff_ne]

/-- What the instructions of `threadRule` do in each thread of their packet. -/
theorem exec_threadRule {s : State} {i : Instr} {c : Code} {g : Code → Thread → Thread} (hrule : threadRule s i = some g)
    (hc : i.code = some c) : ∃ body, exec i s = .next (s.run c body) ∧ (∀ t, (g c t).ref = t.ref) ∧
      ∀ ts t, body ((s.withThreads ts).setThread t) t = ((s.withThreads ts).setThread t).setThread (g c t) := by
  unfold threadRule at hrule
  split at hrule
  all_goals cases hrule
  all_goals cases hc
  -- nop
  case h_1 | h_2 => exact ⟨_, rfl, fun t => t.finish_ref _, fun _ _ => rfl⟩
  -- bra
  case h_3 => exact ⟨_, rfl, fun t => t.goTo_ref _ _, fun _ _ => rfl⟩
  -- pmov
  case h_4 | h_5 =>
    refine ⟨_, rfl, fun t => (Thread.finish_ref _ _).trans ?_, fun _ _ => State.movesPreds_eq _ _ _⟩
    split <;> rfl
  -- sfence
  case h_6 | h_7 =>
    refine ⟨_, rfl, fun t => ?_, fun _ _ => State.sfences_setThread _ _ _⟩
    dsimp only
    split
    · rfl
    · exact Thread.finish_ref _ _
  -- lkwait
  case h_8 | h_9 => exact ⟨_, rfl, fun _ => rfl, fun _ _ => rfl⟩
  -- sys idle
  case h_10 | h_11 => exact ⟨_, rfl, fun t => Thread.finish_ref _ _, fun _ _ => rfl⟩

/-- R54, R120, R126, R129, R176, R179, R268: the instructions whose effect is a change of their own thread. -/
theorem threadInstructionsComplete : ThreadInstructionsComplete := by
  intro i c s g hrule hc hd hr
  obtain ⟨body, hexec, href, hbody⟩ := exec_threadRule hrule hc
  rw [hexec, run_inPacket hd hr href hbody]

/-- R126: yield. -/
theorem yieldCompletes : YieldCompletes := by
  intro i c s t hi hc ha
  have hexec : exec i s = .next (s.run c fun s t => s.yields c t) := by
    obtain ⟨o, rfl⟩ | ⟨o, rfl⟩ := hi
    all_goals
      cases hc
      rfl
  rw [hexec, run_alone ha]
  rfl

theorem exec_brx {i : Instr} {c : Code} (hi : absoluteBranch i = true) (hc : i.code = some c) (s : State) :
    usesPort i = false ∧ exec i s = .next (s.run c fun s t => s.branchTo c t) := by
  unfold absoluteBranch at hi
  split at hi
  case h_3 => cases hi
  all_goals
    cases hc
    exact ⟨rfl, rfl⟩

theorem exec_callx {i : Instr} {c : Code} (hi : absoluteCall i = true) (hc : i.code = some c) (s : State) :
    usesPort i = true ∧ exec i s = .next (s.runAccess c false fun s t => s.callsTo c t) := by
  unfold absoluteCall at hi
  split at hi
  case h_3 => cases hi
  all_goals
    cases hc
    exact ⟨rfl, rfl⟩

/-- R120: brx goes to a target that is a code address. -/
theorem absoluteBranchCompletes : AbsoluteBranchCompletes := by
  intro i c s t hi hc ha x hx h4
  rw [(exec_brx hi hc s).2, run_alone ha, State.branchTo, badTarget_eq, if_neg (Nat.not_le.2 hx), if_neg (not_not.2 h4)]

/-- brx and callx raise what their target is refused for. -/
theorem exec_badTarget {i : Instr} {c : Code} {s : State} {t : Thread} {e : Raise} (hi : absoluteBranch i || absoluteCall i)
    (hc : i.code = some c) (ha : alone s c t = true) (hf : absoluteCall i = true → t.fenced 2 = false)
    (hbad : badTarget ((s.lane c t).dword c.fields.a) = some e) :
    exec i s = .next (inPort i s fun s => s.raise t.ref t.pc c e) := by
  cases hb : absoluteBranch i with
  | true =>
    obtain ⟨hport, hexec⟩ := exec_brx hb hc s
    rw [hexec, run_alone ha, State.branchTo, hbad, inPort, hport]
    rfl
  | false =>
    have hcall : absoluteCall i = true := by simpa [hb] using hi
    obtain ⟨hport, hexec⟩ := exec_callx hcall hc s
    rw [hexec, State.runAccess, run_alone (alone_of_sameThreads s.sameThreads_openPort ha), State.callsTo, State.openPort_lane,
      hbad, inPort, hport]
    simp only [hf hcall]
    rfl

/-- R120: a target that is no code address. -/
theorem badBranchTargetTraps : BadBranchTargetTraps := by
  intro i c s t hi hc ha hf x
  exact ⟨fun hx => exec_badTarget hi hc ha hf ((badTarget_eq _).trans (if_pos hx)),
    fun hx h4 => exec_badTarget hi hc ha hf ((badTarget_eq _).trans ((if_neg (Nat.not_le.2 hx)).trans (if_pos h4)))⟩

/-- Settles O8: the instructions that change their own thread by what they make of it, yield and the absolute branches in the
packet's one thread. That a target of bra wraps at 57 bits is the model's choice (log entry 96), and so is that a thread stays at
a second sfence (log entry 97). -/
theorem jumpsComplete : Obligations.JumpsComplete :=
  ⟨threadInstructionsComplete, yieldCompletes, absoluteBranchCompletes, badBranchTargetTraps⟩

end Sys2Proof.Claims
end

section
/-! PROOFS. The assembler: the guard and the marker of a line stand over its qualifiers and operands, and its words are those of one
form (R70, R72, R76). -/

namespace Sys2Proof

/-! ## The words of a form -/

theorem isExt_words (c : Code) : isExt (c.words.getD 0 0) = c.fields.ext := by
  cases c with
  | base op o => exact (congrArg (·.getLsbD 1) (lenOf_base op o)).trans (getLsbD_lenBits false o.lit).1
  | ext op o => exact (congrArg (·.getLsbD 1) (lenOf_ext op o)).trans (getLsbD_lenBits true o.lit).1

theorem hasLit_words (c : Code) : hasLit (c.words.getD 0 0) = c.fields.lit.isSome := by
  cases c with
  | base op o => exact (congrArg (·.getLsbD 0) (lenOf_base op o)).trans (getLsbD_lenBits false o.lit).2
  | ext op o => exact (congrArg (·.getLsbD 0) (lenOf_ext op o)).trans (getLsbD_lenBits true o.lit).2

/-- Word 0 holds S (R48, R50). -/
theorem s_words (c : Code) : (c.words.getD 0 0).getLsbD 29 = c.fields.s := by
  cases c with
  | base op o => exact congrArg Base.s (baseOf_word0 op o 0)
  | ext op o => exact congrArg Ext.s (extOf_words op o 0)

/-- A form's length in bytes is that of its words (R47). -/
theorem length_words (c : Code) : c.length = 4 * c.words.length := by
  cases c with
  | base op o => cases h : o.lit <;> simp [Code.length, Code.fields, Base.fields, Code.words, literalWords, h]
  | ext op o => cases h : o.lit <;> simp [Code.length, Code.fields, Ext.fields, Code.words, literalWords, h]

end Sys2Proof

namespace Sys2Proof.Biras
open Sys2Proof.Machine

/-! ## What reading a line leaves of its guard and marker -/

/-- The guard and the marker of an instruction under way. -/
def Draft.head (x : Draft) : Option (Bool × Nat) × Bool := (x.guard, x.marker)

/-- A reading that has the guard and the marker it began with, if it has any result. -/
def Keeps (x : Draft) (r : Option Draft) : Prop := ∀ y, r = some y → y.head = x.head

theorem keeps_none (x : Draft) : Keeps x none := fun _ h => nomatch h

theorem keeps_some {x y : Draft} (h : y.head = x.head) : Keeps x (some y) := by
  rintro _ ⟨⟩
  exact h

theorem keeps_bind {α : Type} {x : Draft} {f : α → Option Draft} (h : ∀ a, Keeps x (f a)) (o : Option α) :
    Keeps x (o.bind f) := by
  cases o with
  | none => exact keeps_none x
  | some a => exact h a

theorem keeps_map {α : Type} {x : Draft} {f : α → Draft} (h : ∀ a, (f a).head = x.head) (o : Option α) :
    Keeps x (o.map f) := by
  cases o with
  | none => exact keeps_none x
  | some a => exact keeps_some (h a)

@[simp] theorem Draft.put_head (x : Draft) (f : Field) (v : Content) : (x.put f v).head = x.head := by
  cases f <;> rfl

theorem Draft.putNumber_keeps (x : Draft) (f : Field) (k : Kind) (v : Val) : Keeps x (x.putNumber f k v) := by
  unfold Draft.putNumber
  exact keeps_bind (fun _ => keeps_map (fun _ => by cases f <;> rfl) _) _

theorem Draft.putImm_keeps (x : Draft) (lo : Nat) (least most : Int) (bits : Nat) (less : Int) (v : Val) :
    Keeps x (x.putImm lo least most bits less v) :=
  keeps_map (x := x) (f := fun n => { x with imm := x.imm + ((n - less) % 2 ^ bits).toNat * 2 ^ lo }) (fun _ => rfl) _

theorem memory_keeps (env : Names) (x : Draft) (spaces : List Nat) (lo : Option Nat) (o : List Token) :
    Keeps x (memory env x spaces lo o) := by
  unfold memory
  split
  · split
    · exact keeps_none x
    · dsimp only
      split
      · split
        · exact keeps_none x
        · exact keeps_some rfl
      · exact keeps_none x
  · exact keeps_none x

/-- A thread or gang register into a field (R74). -/
def Draft.putReg (x : Draft) (f : Field) (o : List Token) : Option Draft :=
  match asReg o with
  | some (.v n) => some (x.put f (.opnd (.v n)))
  | some (.g n) => some (x.put f (.opnd (.g n)))
  | _ => none

theorem Draft.putReg_keeps (x : Draft) (f : Field) (o : List Token) : Keeps x (x.putReg f o) := by
  unfold Draft.putReg
  split
  · exact keeps_some (x.put_head f _)
  · exact keeps_some (x.put_head f _)
  · exact keeps_none x

/-- A predicate into what holds it (R74). -/
theorem predicate_keeps {x : Draft} {k : Nat → Draft} (h : ∀ n, (k n).head = x.head) (r : Option Reg) :
    Keeps x (match r with
      | some (.p n) => some (k n)
      | _ => none) := by
  split
  · exact keeps_some (h _)
  · exact keeps_none x

/-- A source: a register, `lane`, `rank` or a number (R74). -/
def Draft.putSource (env : Names) (x : Draft) (f : Field) (k : Kind) (o : List Token) : Option Draft :=
  match x.putReg f o with
  | some y => some y
  | none =>
    if isWord o "lane" then some (x.put f (.opnd .lane))
    else if isWord o "rank" then some (x.put f (.opnd .rank))
    else (value env o).bind (x.putNumber f k)

theorem Draft.putSource_keeps (env : Names) (x : Draft) (f : Field) (k : Kind) (o : List Token) :
    Keeps x (x.putSource env f k o) := by
  unfold Draft.putSource
  split
  next y hy => exact keeps_some (x.putReg_keeps f o y hy)
  · split
    · exact keeps_some (x.put_head f _)
    · split
      · exact keeps_some (x.put_head f _)
      · exact keeps_bind (fun v => x.putNumber_keeps f k v) _

/-- An operand in its position. -/
theorem fill_keeps (env : Names) (here : Nat) (s : Slot) (o : List Token) (x : Draft) : Keeps x (fill env here s o x) := by
  cases s with
  | dst => exact x.putReg_keeps .d o
  | old =>
    show Keeps x (match x.putReg .d o with
      | some y => some y
      | none => _)
    split
    next y hy => exact keeps_some (x.putReg_keeps .d o y hy)
    · exact keeps_bind (fun v => keeps_map (fun _ => x.put_head .d _) _) _
  | reg f bit =>
    intro y hy
    obtain ⟨z, hz, rfl⟩ := Option.map_eq_some_iff.1 hy
    refine Eq.trans ?_ (x.putReg_keeps f o z hz)
    split
    · split <;> rfl
    · rfl
  | src f k => exact x.putSource_keeps env f k o
  | third k => exact x.putSource_keeps env .c k o
  | pred f => exact predicate_keeps (fun _ => x.put_head f _) _
  | optPred => exact predicate_keeps (fun _ => x.put_head .d _) _
  | cond => exact predicate_keeps (fun _ => x.put_head .d _) _
  | outPred => exact predicate_keeps (k := fun n => { x with sub := x.sub + 4 * n }) (fun _ => rfl) _
  | predSet n =>
    unfold fill
    dsimp only
    split
    · exact keeps_some rfl
    · exact keeps_none x
  | special =>
    unfold fill
    dsimp only
    split
    · exact keeps_map (fun _ => x.put_head .a _) _
    · exact keeps_none x
  | swrSrc =>
    unfold fill
    dsimp only
    split
    · exact x.putSource_keeps env .b _ o
    · exact keeps_none x
  | mem spaces lo => exact memory_keeps env x spaces lo o
  | target => exact keeps_bind (fun v => keeps_map (f := fun n => { x with imm := n }) (fun _ => rfl) _) _
  | num lo least most bits less | optNum lo least most bits less =>
    exact keeps_bind (fun v => x.putImm_keeps lo least most bits less v) _
  | buckle =>
    unfold fill
    dsimp only
    split
    · exact keeps_some rfl
    · exact keeps_none x
  | accumulator =>
    unfold fill
    dsimp only
    split
    · exact keeps_some rfl
    · exact keeps_none x
  | sysOp n => exact keeps_some (x.put_head .a _)
  | rnd => exact keeps_some rfl

theorem fillAll_keeps (env : Names) (here : Nat) (ss : List Slot) (os : List (List Token)) (x : Draft) :
    Keeps x (fillAll env here ss os x) := by
  induction ss generalizing os x with
  | nil =>
    cases os with
    | nil => exact keeps_some rfl
    | cons o os => exact keeps_none x
  | cons s ss ih =>
    cases os with
    | nil =>
      unfold fillAll
      split
      · exact keeps_some rfl
      · exact keeps_none x
    | cons o os =>
      intro z hz
      obtain ⟨y, hy, hz⟩ := Option.bind_eq_some_iff.1 hz
      exact (ih os y z hz).trans (fill_keeps env here s o x y hy)

/-- A choice of qualifiers sets neither. -/
def Choice.keeps (c : Choice) : Prop := ∀ n x, (c.set n x).head = x.head

theorem qualify_keeps {cs : List Choice} (h : ∀ c ∈ cs, c.keeps) (qs : List (List Char)) (x : Draft) :
    Keeps x (qualify cs qs x) := by
  induction cs generalizing qs x with
  | nil =>
    cases qs with
    | nil => exact keeps_some rfl
    | cons q qs => exact keeps_none x
  | cons c cs ih =>
    cases qs with
    | nil => exact keeps_some rfl
    | cons q qs =>
      have hcs := fun c hc => h c (List.mem_cons_of_mem _ hc)
      unfold qualify
      split
      next n _ =>
        intro y hy
        exact (ih hcs qs _ y hy).trans (h c List.mem_cons_self n x)
      · exact ih hcs (q :: qs) x

theorem choices_keep (op : Nat) : ∀ c ∈ choices op, c.keeps := by
  have hsub : ∀ c ∈ subChoices op, c.keeps := by
    unfold subChoices
    split
    all_goals simp [Choice.keeps, Choice.sub, Draft.head]
  have hlast : ∀ c ∈ lastChoices op, c.keeps := by
    unfold lastChoices
    split
    all_goals simp [Choice.keeps, Choice.sub, Draft.head]
  intro c hc
  simp only [choices, List.mem_append] at hc
  obtain (((hc | hc) | hc) | hc) | hc := hc
  · exact hsub c hc
  · split at hc
    · obtain rfl := List.mem_singleton.1 hc
      exact fun _ _ => rfl
    · cases hc
  · split at hc
    · obtain rfl := List.mem_singleton.1 hc
      exact fun _ _ => rfl
    · cases hc
  · simp only [List.mem_cons, List.not_mem_nil, or_false] at hc
    obtain rfl | rfl | rfl := hc <;> exact fun _ _ => rfl
  · exact hlast c hc

/-! ## The form of a line -/

/-- What the assembler emits of a form: its words, which are those of one well-formed instruction, and the place of its literal
where the loader relocates it (R70, R78). -/
theorem emit_eq_some {c : Code} {l : Option Literal} {e : Emitted} (h : emit c l = some e) (hl : c.fields.lit = l.map (·.dword)) :
    e.words = c.words ∧ (∃ i, decodeList c.words = .ok i) ∧
    ∀ off b, e.reloc = some (off, b) → off + 8 = 4 * c.words.length ∧ hasLit (c.words.getD 0 0) = true := by
  unfold emit at h
  split at h
  · cases h
  next i hi =>
    cases h
    refine ⟨rfl, ⟨i, hi⟩, fun off b hreloc => ?_⟩
    obtain ⟨x, rfl, hx⟩ := Option.bind_eq_some_iff.1 hreloc
    obtain ⟨y, hy, hpair⟩ := Option.map_eq_some_iff.1 hx
    obtain ⟨rfl, rfl⟩ := Prod.mk.inj hpair
    have hsome : c.fields.lit.isSome = true := by rw [hl]; rfl
    rw [hasLit_words, ← length_words]
    refine ⟨?_, hsome⟩
    simp only [Code.length, hsome, if_true]
    omega

/-- The form chosen for a line has its marker, its literal, and is an extended one where a guard is written (R76). -/
theorem finish_eq_some {x : Draft} {e : Emitted} (h : x.finish = some e) : ∃ c l, emit c l = some e ∧
    c.fields.lit = l.map (·.dword) ∧ c.fields.s = x.marker ∧ (x.guard.isSome = true → c.fields.ext = true) := by
  unfold Draft.finish at h
  split at h
  next c l hbase =>
    refine ⟨c, l, h, ?_⟩
    unfold Draft.base? at hbase
    dsimp only at hbase
    generalize (x.sub == if x.op == 0x58 || x.op == 0x59 then 8 * x.space.getD 0 else 0) = subClear at hbase
    split at hbase
    · cases hbase
    next hcond =>
      have hguard : x.guard.isSome = false := Bool.eq_false_iff.2 fun hg => hcond (by simp [hg])
      split at hbase
      · split at hbase
        · cases hbase
          exact ⟨rfl, rfl, fun hg => absurd (hguard.symm.trans hg) Bool.false_ne_true⟩
        · cases hbase
      · cases hbase
  · obtain ⟨⟨c, l⟩, hext, hemit⟩ := Option.bind_eq_some_iff.1 h
    refine ⟨c, l, hemit, ?_⟩
    unfold Draft.ext? at hext
    dsimp only at hext
    split at hext
    · cases hext
      exact ⟨rfl, rfl, fun _ => rfl⟩
    · cases hext

/-! ## Lines -/

/-- What precedes the mnemonic of a line: nothing, or a guard between parentheses. -/
theorem guardOf_eq_some {ts rest : List Token} {guard : Option (Bool × Nat)} (h : guardOf ts = some (guard, rest)) :
    rest <:+ ts ∧ (ts.head? = some (.punct '(') → guard.isSome = true) := by
  unfold guardOf at h
  split at h
  next w _ =>
    split at h
    · cases h
      exact ⟨⟨[.punct '(', .punct '!', .word w, .punct ')'], rfl⟩, fun _ => rfl⟩
    · cases h
  next w _ =>
    split at h
    · cases h
      exact ⟨⟨[.punct '(', .word w, .punct ')'], rfl⟩, fun _ => rfl⟩
    · cases h
  · cases h
  next hno =>
    cases h
    refine ⟨List.suffix_rfl, fun hts => ?_⟩
    obtain ⟨tail, rfl⟩ := List.head?_eq_some_iff.1 hts
    exact absurd rfl (hno tail)

/-- The end of a line is that of what follows its mnemonic: the mnemonic is no `!` (R72). -/
theorem getLast?_eq_marker {ts rest : List Token} {w : List Char} (h : .word w :: rest <:+ ts) :
    (ts.getLast? == some (.punct '!')) = (rest.getLast? == some (.punct '!')) := by
  obtain ⟨pre, rfl⟩ := h
  rw [List.getLast?_append_of_ne_nil _ (List.cons_ne_nil _ _)]
  cases rest with
  | nil => rfl
  | cons t rest => rw [List.getLast?_cons_cons]

/-- What the assembler answers for an instruction of a line is the end of a reading that has the line's guard, and its `!` for the
marker. -/
theorem instruction_eq_some {env : Names} {here : Nat} {ts : List Token} {e : Emitted} (h : instruction env here ts = some e) :
    ∃ x : Draft, x.finish = some e ∧ (ts.head? = some (.punct '(') → x.guard.isSome = true) ∧
      x.marker = (ts.getLast? == some (.punct '!')) := by
  unfold instruction at h
  split at h
  next guard w rest hg =>
    obtain ⟨hsuffix, hguard⟩ := guardOf_eq_some hg
    dsimp only at h
    split at h
    next op qs _ =>
      obtain ⟨x, hx, hrest⟩ := Option.bind_eq_some_iff.1 h
      obtain ⟨ss, -, hfill⟩ := Option.bind_eq_some_iff.1 hrest
      obtain ⟨y, hy, hfinish⟩ := Option.bind_eq_some_iff.1 hfill
      have hhead : y.head = (guard, rest.getLast? == some (.punct '!')) :=
        (fillAll_keeps _ _ _ _ _ y hy).trans (qualify_keeps (choices_keep op) _ _ x hx)
      obtain ⟨rfl, hmarker⟩ := Prod.mk.inj hhead
      exact ⟨y, hfinish, hguard, hmarker.trans (getLast?_eq_marker hsuffix).symm⟩
    · cases h
  · cases h

end Sys2Proof.Biras

namespace Sys2Proof.Claims
open Sys2Proof.Machine

/-- Settles O59: the words are those of the form that `Draft.finish` chooses, which has the line's marker, and which the decoder
reads as one well-formed instruction. -/
theorem assembledInstructions : Obligations.AssembledInstructions := by
  intro env here ts e h
  obtain ⟨x, hfinish, hguard, hmarker⟩ := Biras.instruction_eq_some h
  obtain ⟨c, l, hemit, hlit, hs, hext⟩ := Biras.finish_eq_some hfinish
  obtain ⟨hwords, ⟨i, hi⟩, hreloc⟩ := Biras.emit_eq_some hemit hlit
  rw [hwords]
  obtain ⟨hwf, -, -⟩ := encodeOfDecode c.words i hi
  obtain ⟨-, hinstr⟩ := decodeList_eq_ok_iff.1 hi
  rw [readForm_words] at hinstr
  refine ⟨⟨i, hi, hwf, encode_of_code (code_of_instr? hinstr).1⟩, fun hts => ?_, ?_, hreloc⟩
  · rw [isExt_words, hext (hguard hts)]
  · rw [s_words, hs, hmarker]

end Sys2Proof.Claims
end

section
/-! PROOFS. A thread that ends may free its gang's extended blocks, and the registers that a thread of the gang leaves there lie
where its lane says: nothing bounds the lane of a thread that does not end (R144, R317). -/

namespace Sys2Proof.Machine

/-- A gang that holds pool block 0 of its quarter. -/
def blockGang : Gang := { State.reset.newGang { kid := 0, team := 0, gang := 0 } 0 0 0 0 0 (0, 0) with blocks := [0] }

/-- The thread of lane 0, which ends. -/
def endingThread : Thread := Thread.fresh { kid := 0, team := 0, gang := 0, lane := 0 } 0x10000 0 0 0

/-- A thread of the gang whose lane no hardware has, with v32 = 1 and its `xrel` issued. -/
def strayThread : Thread :=
  { Thread.fresh { kid := 0, team := 0, gang := 0, lane := 2 ^ 27 } 0x10000 0 0 0 with
    v := (Vector.replicate 96 0).setIfInBounds 32 1
    xrelIssued := true }

/-- The two threads in their gang. -/
def strayState : State :=
  State.reset.modify fun m => { m with threads := [endingThread, strayThread], gangs := [blockGang] }

/-- Where the stray thread's v32 is left: in the window of unit 4, core scratch, not in that of the registers. -/
def strayAddr : Nat := regAddr blockGang true 0 0 (2 ^ 27)

theorem strayAddr_written : Memory.read (strayState.endThread endingThread false).m.win strayAddr = 1 := by decide +kernel

end Sys2Proof.Machine

namespace Sys2Proof.Claims
open Sys2Proof.Machine

/-- Refutes O24, in `EndedThreadIsGone`: in `strayState` thread 0 ends by `endThread` without a join counter, which frees the gang's
block as its other thread has issued `xrel`; with lane 2^27 that thread leaves v32 at `strayAddr`, a byte outside the windows of
the registers. (The claim bounds the lane of the thread that ends, and of no other.) -/
theorem not_threadEnd : ¬ Obligations.ThreadEnd := by
  rintro ⟨-, -, hgone, -⟩
  have hplaced : ∀ g, strayState.gangOf endingThread = some g → placed g = true := by
    rintro g h
    obtain rfl : blockGang = g := Option.some.inj (Eq.trans (by rfl) h)
    decide +kernel
  obtain ⟨-, -, hwin, -⟩ := hgone strayState endingThread false rfl rfl hplaced (by decide)
  have hbyte := strayAddr_written.symm.trans (hwin strayAddr (by decide +kernel))
  exact absurd hbyte (by decide +kernel)

end Sys2Proof.Claims
end

section
/-! PROOFS. The fetch of a word frees the first level's entries for its address that are no longer usable (R371), so that a step
does not leave the translations of a core as they were but for their recency. -/

namespace Sys2Proof.Machine

/-- `nop` with every field 0. -/
def plainNop : Base := { s := false, d := 0, a := 0, b := 0, m := false, lit := none }

/-- A translation of the placed page from an earlier generation of its context (R379). -/
def staleTlb : Tlb := placedTlb 0 1

/-- A thread at a `nop`, in a core that holds the page's translation and behind it the stale one. -/
def staleState : State := (State.reset.withFetchWord 32 0x11800000).updTlb 0 0 fun l => l ++ [staleTlb]

/-- Its thread. -/
def nopThread : Thread := Thread.fresh { kid := 0, team := 0, gang := 0, lane := 0 } 0x10000 0 0 0

/-- Its gang. -/
def nopGang : Gang := State.reset.newGang nopThread.ref.gangRef 0 0 0 0 0 (0, 0)

/-- How many translations the first levels of hub 0 hold, core by core. -/
def State.firstLevels (s : State) : List Nat := ((s.hub 0).cores.map (·.tlb.length)).toList

/-- The same, of the state after a step. -/
def firstLevelsOf : Out → List Nat
  | .next s => s.firstLevels
  | _ => []

theorem staleState_firstLevels : staleState.firstLevels = [2, 0, 0, 0] := by decide +kernel

/-- The fetch has freed the stale translation. -/
theorem step_staleState_firstLevels : firstLevelsOf (step staleState) = [1, 0, 0, 0] := by decide +kernel

end Sys2Proof.Machine

namespace Sys2Proof.Claims
open Sys2Proof.Machine

theorem standing_staleState : standing staleState nopThread nopGang :=
  ⟨by decide +kernel, by decide +kernel, by decide +kernel, by decide +kernel, by decide +kernel, by decide +kernel⟩

theorem codeWord_staleState : ∀ k < (encode (.nop plainNop)).length,
    staleState.codeWord nopGang.hub nopGang.core (staleState.ctxOf nopThread.ref.kid) nopThread.ref.kid (wordAddress staleState k) =
      .words [(encode (.nop plainNop)).getD k 0] := by decide +kernel

theorem alone_staleState : alone staleState (.base 0x46 plainNop) nopThread = true := by decide +kernel

/-- States that agree but for what a fetch notes have first levels of the same sizes. -/
theorem firstLevels_of_sameButFetched {s u : State} (h : sameButFetched s u) : u.firstLevels = s.firstLevels := by
  obtain ⟨-, -, hhubs⟩ := h
  have hcores := congrArg (fun cs => (cs.map (·.tlb.length)).toList) (hhubs 0).2
  simpa only [State.firstLevels, Vector.map_map, Function.comp_def, List.length_map] using hcores

/-- And the same threads and packet. -/
theorem sameThreads_of_sameButFetched {s u : State} (h : sameButFetched s u) : s.sameThreads u := by
  obtain ⟨hu, -, -⟩ := h
  rw [hu]
  exact ⟨rfl, rfl, rfl⟩

/-- nop in the packet's one thread leaves the translations alone. -/
theorem firstLevelsOf_nop {o : Base} {s : State} {t : Thread} (ha : alone s (.base 0x46 o) t = true) :
    firstLevelsOf (afterPacket (exec (.nop o) s)) = s.firstLevels := by
  have hexec : exec (.nop o) s = .next (s.run (.base 0x46 o) fun s t => s.setThread (t.finish (.base 0x46 o))) := rfl
  rw [hexec, run_alone ha]
  rfl

/-- Refutes O53, in `StepRunsDecodedInstruction`: in `staleState` a thread stands at a `nop` in a core whose first level holds its
page's translation and a stale one. The step frees the stale one, while before and after `exec` of the `nop` in any state that
agrees with `staleState` but for the recency of its translations there are two. -/
theorem not_stepFetchesAndRuns : ¬ Obligations.StepFetchesAndRuns := by
  rintro ⟨⟨hruns, -⟩, -⟩
  obtain ⟨u, hu, hstep⟩ := hruns staleState nopThread nopGang (.nop plainNop) standing_staleState rfl (by decide +kernel)
    codeWord_staleState
  have ha : alone u (.base 0x46 plainNop) nopThread = true :=
    alone_of_sameThreads (sameThreads_of_sameButFetched hu) alone_staleState
  have hafter : step staleState = afterPacket (exec (.nop plainNop) u) := by
    rw [hstep]
    unfold afterPacket
    rfl
  have hsizes : [1, 0, 0, 0] = [2, 0, 0, 0] :=
    calc [1, 0, 0, 0] = firstLevelsOf (step staleState) := step_staleState_firstLevels.symm
      _ = u.firstLevels := by rw [hafter, firstLevelsOf_nop ha]
      _ = [2, 0, 0, 0] := (firstLevels_of_sameButFetched hu).trans staleState_firstLevels
  exact absurd hsizes (by decide)

end Sys2Proof.Claims
end

section
/-! PROOFS. The lane order of reductions and scans: after the round at distance 2^k a lane holds the combination of its block of
2^(k+1) lanes, and its scan that of the block's lanes up to itself (R95). -/

namespace Sys2Proof.Machine

/-- The combination of the lanes a to a + n, from the lowest on. -/
def laneSpan (f : Dword → Dword → Dword) (x : Vector Dword 32) (a : Nat) : Nat → Dword
  | 0 => x.toArray.getD a 0
  | n + 1 => f (laneSpan f x a n) (x.toArray.getD (a + (n + 1)) 0)

/-- Each lane holds the combination of its block of 2^k lanes. -/
def BlocksCombined (f : Dword → Dword → Dword) (x : Vector Dword 32) (k : Nat) (t : Vector Dword 32) : Prop :=
  ∀ i < 32, t.toArray.getD i 0 = laneSpan f x (2 ^ k * (i / 2 ^ k)) (2 ^ k - 1)

/-- Each lane holds the combination of the lanes of its block of 2^k up to itself. -/
def PrefixesCombined (f : Dword → Dword → Dword) (x : Vector Dword 32) (k : Nat) (s : Vector Dword 32) : Prop :=
  ∀ i < 32, s.toArray.getD i 0 = laneSpan f x (2 ^ k * (i / 2 ^ k)) (i % 2 ^ k)

/-- The distances of the first n rounds. -/
def roundDistances (n : Nat) : List Nat := (List.range n).map (2 ^ ·)

theorem roundDistances_succ (n : Nat) : roundDistances (n + 1) = roundDistances n ++ [2 ^ n] := by
  rw [roundDistances, List.range_succ, List.map_append]
  rfl

/-- One round of scan: a lane with bit d of its number set puts its partner's block before its own lanes. -/
def scanRound (f : Dword → Dword → Dword) (st : Vector Dword 32 × Vector Dword 32) (d : Nat) :
    Vector Dword 32 × Vector Dword 32 :=
  (.ofFn fun i => if i.val &&& d != 0 then f (st.2.toArray.getD (i.val ^^^ d) 0) st.1[i] else st.1[i], butterfly f st.2 d)

/-! ## Lanes of the vectors -/

theorem lane_ofFn {g : Fin 32 → Dword} {i : Nat} (hi : i < 32) : (Vector.ofFn g).toArray.getD i 0 = g ⟨i, hi⟩ := by
  simp [Array.getD, hi]

theorem lane_eq_getElem {t : Vector Dword 32} {i : Nat} (hi : i < 32) : t.toArray.getD i 0 = t[i] := by
  simp [Array.getD, hi]

theorem butterfly_getD (f : Dword → Dword → Dword) (t : Vector Dword 32) (d : Nat) {i : Nat} (hi : i < 32) :
    (butterfly f t d).toArray.getD i 0 =
      f (t.toArray.getD (min i (i ^^^ d)) 0) (t.toArray.getD (max i (i ^^^ d)) 0) := lane_ofFn hi

theorem scanRound_getD (f : Dword → Dword → Dword) (st : Vector Dword 32 × Vector Dword 32) (k : Nat) {i : Nat} (hi : i < 32) :
    (scanRound f st (2 ^ k)).1.toArray.getD i 0 =
      if i / 2 ^ k % 2 = 1 then f (st.2.toArray.getD (i ^^^ 2 ^ k) 0) (st.1.toArray.getD i 0) else st.1.toArray.getD i 0 := by
  have hbit : (i &&& 2 ^ k != 0) = decide (i / 2 ^ k % 2 = 1) := by
    rw [Nat.and_two_pow, ← Nat.testBit_eq_decide_div_mod_eq]
    cases i.testBit k <;> simp
  rw [scanRound, lane_ofFn hi, lane_eq_getElem (t := st.1) hi]
  simp only [hbit, decide_eq_true_iff]
  rfl

/-! ## Reduce and scan by their rounds -/

theorem roundDistances_five : roundDistances 5 = [1, 2, 4, 8, 16] := by decide

theorem laneReduce_eq_rounds (f : Dword → Dword → Dword) (x : Vector Dword 32) :
    laneReduce f x = ((roundDistances 5).foldl (butterfly f) x).toArray.getD 0 0 := by
  rw [roundDistances_five, laneReduce]

theorem laneScan_inclusive_eq_rounds (f : Dword → Dword → Dword) (e : Dword) (x : Vector Dword 32) :
    laneScan f e false x = ((roundDistances 5).foldl (scanRound f) (x, x)).1 := by
  rw [roundDistances_five]
  unfold scanRound
  simp only [laneScan, Bool.false_eq_true, if_false]

/-- The exclusive scan is the inclusive one moved up by a lane. -/
theorem laneScan_exclusive_eq (f : Dword → Dword → Dword) (e : Dword) (x : Vector Dword 32) :
    laneScan f e true x =
      .ofFn fun i => if i.val == 0 then e else (laneScan f e false x).toArray.getD (i.val - 1) 0 := by
  unfold laneScan
  rfl

theorem laneScan_exclusive_zero (f : Dword → Dword → Dword) (e : Dword) (x : Vector Dword 32) :
    (laneScan f e true x).toArray.getD 0 0 = e := by
  rw [laneScan_exclusive_eq, lane_ofFn (by decide)]
  rfl

theorem laneScan_exclusive_succ (f : Dword → Dword → Dword) (e : Dword) (x : Vector Dword 32) {i : Nat} (hi : i < 31) :
    (laneScan f e true x).toArray.getD (i + 1) 0 = (laneScan f e false x).toArray.getD i 0 := by
  rw [laneScan_exclusive_eq, lane_ofFn (by omega)]
  simp

/-! ## Partners and blocks -/

theorem partner_lt {i k : Nat} (hi : i < 32) (hk : k < 5) : i ^^^ 2 ^ k < 32 :=
  Nat.xor_lt_two_pow (n := 5) hi (Nat.pow_lt_pow_right (by decide) hk)

/-- The partner at distance 2^k is in the neighbouring block of 2^k lanes. -/
theorem partner_block (i k : Nat) : (i ^^^ 2 ^ k) / 2 ^ k = i / 2 ^ k ^^^ 1 := by
  rw [Nat.xor_div_two_pow, Nat.div_self (Nat.two_pow_pos k)]

/-- A lane of the lower half of its block of 2^(k+1) lanes. -/
theorem lower_half {i k p : Nat} (h : i / 2 ^ k = 2 * p) :
    i < i ^^^ 2 ^ k ∧ (i ^^^ 2 ^ k) / 2 ^ k = 2 * p + 1 ∧ i / 2 ^ (k + 1) = p ∧ i % 2 ^ (k + 1) = i % 2 ^ k := by
  have hpartner : (i ^^^ 2 ^ k) / 2 ^ k = 2 * p + 1 := by
    rw [partner_block, h, Nat.xor_one_of_even (even_two_mul p)]
  refine ⟨Nat.lt_of_div_lt_div (c := 2 ^ k) (by omega), hpartner, ?_, ?_⟩
  · rw [Nat.pow_succ, ← Nat.div_div_eq_div_mul, h]
    omega
  · rw [Nat.mod_pow_succ, h]
    simp

/-- A lane of the upper half. -/
theorem upper_half {i k p : Nat} (h : i / 2 ^ k = 2 * p + 1) :
    i ^^^ 2 ^ k < i ∧ (i ^^^ 2 ^ k) / 2 ^ k = 2 * p ∧ i / 2 ^ (k + 1) = p ∧ i % 2 ^ (k + 1) = 2 ^ k + i % 2 ^ k := by
  have hpartner : (i ^^^ 2 ^ k) / 2 ^ k = 2 * p := by
    rw [partner_block, h, Nat.xor_one_of_odd (odd_two_mul_add_one p), Nat.add_sub_cancel]
  refine ⟨Nat.lt_of_div_lt_div (c := 2 ^ k) (by omega), hpartner, ?_, ?_⟩
  · rw [Nat.pow_succ, ← Nat.div_div_eq_div_mul, h]
    omega
  · rw [Nat.mod_pow_succ, h, Nat.add_comm]
    simp

/-! ## The rounds -/

section
variable {f : Dword → Dword → Dword} (hf : ∀ a b c, f (f a b) c = f a (f b c)) {x : Vector Dword 32}
include hf

/-- Two adjacent spans combine to one. -/
theorem laneSpan_append (a m n : Nat) :
    f (laneSpan f x a m) (laneSpan f x (a + (m + 1)) n) = laneSpan f x a (m + 1 + n) := by
  induction n with
  | zero => rfl
  | succ n ih => rw [laneSpan, ← hf, ih, Nat.add_assoc a, ← Nat.add_assoc (m + 1), laneSpan]

/-- A block of 2^k lanes before a span of the next one, where the two blocks are halves of a block of 2^(k+1). -/
theorem block_append_span (k p r : Nat) :
    f (laneSpan f x (2 ^ k * (2 * p)) (2 ^ k - 1)) (laneSpan f x (2 ^ k * (2 * p + 1)) r) =
      laneSpan f x (2 ^ (k + 1) * p) (2 ^ k + r) := by
  have hsize : 2 ^ k - 1 + 1 = 2 ^ k := Nat.sub_add_cancel (Nat.two_pow_pos k)
  have happend := laneSpan_append hf (x := x) (2 ^ k * (2 * p)) (2 ^ k - 1) r
  rw [hsize] at happend
  rw [Nat.mul_succ, happend, ← Nat.mul_assoc, ← Nat.pow_succ]

/-- Two blocks of 2^k lanes make one of 2^(k+1). -/
theorem block_append_block (k p : Nat) :
    f (laneSpan f x (2 ^ k * (2 * p)) (2 ^ k - 1)) (laneSpan f x (2 ^ k * (2 * p + 1)) (2 ^ k - 1)) =
      laneSpan f x (2 ^ (k + 1) * p) (2 ^ (k + 1) - 1) := by
  have hpos := Nat.two_pow_pos k
  rw [block_append_span hf]
  congr 1
  omega

/-- A round of the butterfly doubles the blocks. -/
theorem BlocksCombined.butterfly {k : Nat} (hk : k < 5) {t : Vector Dword 32} (ht : BlocksCombined f x k t) :
    BlocksCombined f x (k + 1) (butterfly f t (2 ^ k)) := by
  intro i hi
  obtain ⟨p, hp | hp⟩ := Nat.even_or_odd' (i / 2 ^ k)
  · obtain ⟨hlt, hpartner, hblock, -⟩ := lower_half hp
    rw [butterfly_getD f t _ hi, min_eq_left hlt.le, max_eq_right hlt.le, ht i hi, ht _ (partner_lt hi hk), hp, hpartner,
      hblock, block_append_block hf]
  · obtain ⟨hlt, hpartner, hblock, -⟩ := upper_half hp
    rw [butterfly_getD f t _ hi, min_eq_right hlt.le, max_eq_left hlt.le, ht i hi, ht _ (partner_lt hi hk), hp, hpartner,
      hblock, block_append_block hf]

/-- A round of the scan doubles the blocks whose lanes it has combined up to each one. -/
theorem PrefixesCombined.scanRound {k : Nat} (hk : k < 5) {st : Vector Dword 32 × Vector Dword 32}
    (hs : PrefixesCombined f x k st.1) (ht : BlocksCombined f x k st.2) :
    PrefixesCombined f x (k + 1) (scanRound f st (2 ^ k)).1 := by
  intro i hi
  obtain ⟨p, hp | hp⟩ := Nat.even_or_odd' (i / 2 ^ k)
  · obtain ⟨-, -, hblock, hplace⟩ := lower_half hp
    rw [scanRound_getD f st k hi, if_neg (by omega), hs i hi, hp, hblock, hplace, Nat.pow_succ, Nat.mul_assoc]
  · obtain ⟨-, hpartner, hblock, hplace⟩ := upper_half hp
    rw [scanRound_getD f st k hi, if_pos (by omega), ht _ (partner_lt hi hk), hs i hi, hp, hpartner, hblock, hplace,
      block_append_span hf]

omit hf in
/-- Before the first round every lane is a block of its own. -/
theorem blocksCombined_zero : BlocksCombined f x 0 x := fun i _ => by simp [laneSpan]

omit hf in
theorem prefixesCombined_zero : PrefixesCombined f x 0 x := fun i _ => by simp [laneSpan, Nat.mod_one]

theorem blocksCombined_rounds : ∀ n ≤ 5, BlocksCombined f x n ((roundDistances n).foldl (Machine.butterfly f) x)
  | 0, _ => blocksCombined_zero
  | n + 1, hn => by
    rw [roundDistances_succ, List.foldl_concat]
    exact (blocksCombined_rounds n (by omega)).butterfly hf (by omega)

theorem combined_scanRounds : ∀ n ≤ 5,
    PrefixesCombined f x n ((roundDistances n).foldl (Machine.scanRound f) (x, x)).1 ∧
    BlocksCombined f x n ((roundDistances n).foldl (Machine.scanRound f) (x, x)).2
  | 0, _ => ⟨prefixesCombined_zero, blocksCombined_zero⟩
  | n + 1, hn => by
    obtain ⟨hs, ht⟩ := combined_scanRounds n (by omega)
    rw [roundDistances_succ, List.foldl_concat]
    exact ⟨hs.scanRound hf (by omega) ht, ht.butterfly hf (by omega)⟩

/-- reduce gives the combination of all 32 lanes. -/
theorem laneReduce_eq_laneSpan : laneReduce f x = laneSpan f x 0 31 := by
  rw [laneReduce_eq_rounds, blocksCombined_rounds hf 5 le_rfl 0 (by decide)]
  rfl

/-- The inclusive scan gives each lane the combination of the lanes up to itself. -/
theorem laneScan_inclusive_eq_laneSpan (e : Dword) {i : Nat} (hi : i < 32) :
    (laneScan f e false x).toArray.getD i 0 = laneSpan f x 0 i := by
  rw [laneScan_inclusive_eq_rounds, (combined_scanRounds hf 5 le_rfl).1 i hi, Nat.div_eq_of_lt (b := 2 ^ 5) hi,
    Nat.mod_eq_of_lt (b := 2 ^ 5) hi, Nat.mul_zero]

end

/-- The combination of the lanes 0 to n is a fold of the list of lanes. -/
theorem laneSpan_zero_eq_foldl (f : Dword → Dword → Dword) (x : Vector Dword 32) :
    ∀ n < 32, laneSpan f x 0 n = (x.toList.take (n + 1)).tail.foldl f (x.toList.headD 0)
  | 0, _ => by
    have hlanes : x.toList ≠ [] := List.ne_nil_of_length_pos (by simp)
    obtain ⟨y, ys, hx⟩ := List.exists_cons_of_ne_nil hlanes
    rw [hx]
    simp [laneSpan, ← Vector.getElem_toList, hx]
  | n + 1, hn => by
    have hlane : x.toList[n + 1]? = some (x.toArray.getD (n + 1) 0) := by simp [hn]
    have htake : x.toList.take (n + 1) ≠ [] := List.ne_nil_of_length_pos (by simp)
    rw [laneSpan, laneSpan_zero_eq_foldl f x n (by omega), Nat.zero_add, List.take_add_one (i := n + 1), hlane,
      Option.toList_some, List.tail_append_of_ne_nil htake, List.foldl_concat]

end Sys2Proof.Machine

namespace Sys2Proof.Claims
open Sys2Proof.Machine

/-- Settles O14: after five rounds the block of a lane is all 32 lanes. -/
theorem laneOrder : Obligations.LaneOrder := by
  intro f x e hf upTo
  have hspan : ∀ n < 32, laneSpan f x 0 n = upTo n := laneSpan_zero_eq_foldl f x
  refine ⟨?_, fun i hi => ?_, fun i hi => ?_, laneScan_exclusive_zero f e x⟩
  · rw [laneReduce_eq_laneSpan hf, hspan 31 (by decide)]
  · rw [laneScan_inclusive_eq_laneSpan hf e hi, hspan i hi]
  · rw [laneScan_exclusive_succ f e x hi, laneScan_inclusive_eq_laneSpan hf e (by omega), hspan i (by omega)]

end Sys2Proof.Claims
end

section
/-! PROOFS. FP32: what a pattern's value is, that the rounding of a value of the format gives its pattern back, and what NaNs do (R79,
R80, R83, R111, R112). -/

namespace Sys2Proof.Machine

/-! ## The value of a pattern (R79) -/

/-- A finite pattern holds m steps of 2^k of the smallest magnitude; where k is not 0, m has its leading bit. -/
theorem Fmt.value_finite (f : Fmt) {x : Nat} (h : x % f.signBit < f.infBits) :
    ∃ k m : Nat, f.value x = .fin (x / f.signBit % 2 == 1) m (f.minExp + k) ∧ k * 2 ^ f.frac + m = x % f.signBit ∧
      m < 2 ^ (f.frac + 1) ∧ (k ≠ 0 → 2 ^ f.frac ≤ m ∧ k + 2 < 2 ^ f.ebits) := by
  have hfrac : x % f.signBit % 2 ^ f.frac < 2 ^ f.frac := Nat.mod_lt _ (Nat.two_pow_pos _)
  have hpow : 2 ^ (f.frac + 1) = 2 ^ f.frac + 2 ^ f.frac := Nat.two_pow_succ _
  have hex : x % f.signBit / 2 ^ f.frac < 2 ^ f.ebits - 1 := Nat.div_lt_of_lt_mul (by rwa [Nat.mul_comm])
  have hmag := Nat.div_add_mod' (x % f.signBit) (2 ^ f.frac)
  unfold Fmt.value
  simp only [if_neg h.not_gt, beq_iff_eq, if_neg h.ne]
  generalize x % f.signBit / 2 ^ f.frac = ex at *
  cases ex with
  | zero =>
    refine ⟨0, x % f.signBit % 2 ^ f.frac, ?_, by omega, by omega, fun hk => absurd rfl hk⟩
    simp
  | succ k =>
    refine ⟨k, x % f.signBit % 2 ^ f.frac + 2 ^ f.frac, ?_, ?_, by omega, fun _ => ⟨by omega, by omega⟩⟩
    · simp
    · rw [Nat.succ_mul] at hmag
      omega

theorem Fmt.value_infinite (f : Fmt) {x : Nat} (h : x % f.signBit = f.infBits) : f.value x = .inf (x / f.signBit % 2 == 1) := by
  simp [Fmt.value, h]

/-- Every larger magnitude is a NaN (R80). -/
theorem Fmt.value_nan (f : Fmt) {x : Nat} (h : f.infBits < x % f.signBit) : f.value x = .nan := if_pos h

/-- A pattern is its sign bit and its magnitude. -/
theorem Fmt.sign_magnitude (f : Fmt) {x : Nat} (h : x < 2 * f.signBit) :
    f.sign (x / f.signBit % 2 == 1) (x % f.signBit) = x := by
  have hsplit := Nat.div_add_mod x f.signBit
  have hq : x / f.signBit < 2 := Nat.div_lt_of_lt_mul (by omega)
  unfold Fmt.sign
  generalize x / f.signBit = q at *
  match q, hq with
  | 0, _ => simpa using hsplit
  | 1, _ => simpa using hsplit

/-! ## Rounding (R83) -/

/-- A magnitude on the grid of the format is not changed: m steps of 2^k of the smallest magnitude, with m's leading bit in its place
unless k is 0. -/
theorem Fmt.round_grid (f : Fmt) (stoch : Bool) (r : Rnd) (u : Word) (neg : Bool) {k m : Nat} (h0 : m ≠ 0)
    (hm : m < 2 ^ (f.frac + 1)) (hlead : k ≠ 0 → 2 ^ f.frac ≤ m) (hk : k < 2 * f.bias) :
    f.round stoch r u neg m (f.minExp + k) = { bits := f.sign neg (k * 2 ^ f.frac + m), drew := false } := by
  have hlog : Nat.log2 m ≤ f.frac := Nat.lt_succ_iff.1 ((Nat.log2_lt h0).2 hm)
  have hplace : k ≠ 0 → Nat.log2 m = f.frac := fun h => le_antisymm hlog ((Nat.le_log2 h0).2 (hlead h))
  have htop : ¬ (Nat.log2 m : Int) + (f.minExp + k) > f.bias := by
    unfold Fmt.minExp
    omega
  have hq : (if (Nat.log2 m : Int) + (f.minExp + k) - f.frac < f.minExp then f.minExp
      else (Nat.log2 m : Int) + (f.minExp + k) - f.frac) = f.minExp + k := by
    split <;> omega
  unfold Fmt.round
  simp only [if_neg htop, hq, le_refl, if_true]
  simp

/-- A value that the format holds is encoded as it stands, in every mode and without a draw (R83, R85). -/
theorem Fmt.encode_value (f : Fmt) (h0 : 0 < f.bias) (hb : 2 ^ f.ebits ≤ 2 * f.bias + 2) (stoch : Bool) (r : Rnd) (u : Word)
    {x : Nat} (hx : x < 2 * f.signBit) (hn : (f.value x).isNan = false) :
    f.encode stoch r u (f.value x) = { bits := x, drew := false } := by
  have hsign := f.sign_magnitude hx
  rcases lt_trichotomy (x % f.signBit) f.infBits with hfin | hinf | hnan
  · obtain ⟨k, m, hvalue, hmag, hm, hlead⟩ := f.value_finite hfin
    rw [hvalue, Fmt.encode]
    split
    next hzero =>
      obtain rfl : m = 0 := by simpa using hzero
      obtain rfl : k = 0 := by
        by_contra hk
        exact absurd (hlead hk).1 (Nat.two_pow_pos _).not_ge
      rw [← hmag, Nat.zero_mul] at hsign
      rw [hsign]
    next hzero =>
      rw [f.round_grid stoch r u _ (by simpa using hzero) hm (fun hk => (hlead hk).1) (by omega), hmag, hsign]
  · rw [f.value_infinite hinf, Fmt.encode, ← hinf, hsign]
  · rw [f.value_nan hnan] at hn
    cases hn

/-! ## NaNs (R80) -/

theorem Fp.isNan_iff {x : Fp} : x.isNan = true ↔ x = .nan := by cases x <;> simp [Fp.isNan]

@[simp] theorem Fp.nan_add (r : Rnd) (x : Fp) : Fp.nan.add r x = .nan := rfl
@[simp] theorem Fp.add_nan (r : Rnd) (x : Fp) : x.add r .nan = .nan := by cases x <;> rfl
@[simp] theorem Fp.nan_mul (x : Fp) : Fp.nan.mul x = .nan := rfl
@[simp] theorem Fp.mul_nan (x : Fp) : x.mul .nan = .nan := by cases x <;> rfl
@[simp] theorem Fp.neg_nan : Fp.nan.neg = .nan := rfl

/-- A NaN is rounded to the canonical one. -/
theorem toF32_nan (r : Rnd) : toF32 r .nan = 0x7FC00000 := rfl

theorem minmaxBits_nan_nan (f : Fmt) (isMax : Bool) {a b : Nat} (ha : f.value a = .nan) (hb : f.value b = .nan) :
    minmaxBits f isMax a b = f.nanBits := by rw [minmaxBits, ha, hb]

theorem minmaxBits_nan_left (f : Fmt) (isMax : Bool) {a b : Nat} (ha : f.value a = .nan) (hb : f.value b ≠ .nan) :
    minmaxBits f isMax a b = b := by
  rw [minmaxBits, ha]
  split <;> simp_all

theorem minmaxBits_nan_right (f : Fmt) (isMax : Bool) {a b : Nat} (ha : f.value a ≠ .nan) (hb : f.value b = .nan) :
    minmaxBits f isMax a b = a := by
  rw [minmaxBits, hb]
  split <;> simp_all

/-! ## The sign bit -/

theorem and_magnitude_getLsbD (a : Word) {k : Nat} (hk : k < 32) :
    (a &&& 0x7FFFFFFF).getLsbD k = (decide (k ≠ 31) && a.getLsbD k) := by
  have hmask : ∀ k < 32, (0x7FFFFFFF : Word).getLsbD k = decide (k ≠ 31) := by decide
  rw [BitVec.getLsbD_and, hmask k hk, Bool.and_comm]

theorem xor_sign_getLsbD (a : Word) {k : Nat} (hk : k < 32) :
    (a ^^^ 0x80000000).getLsbD k = (a.getLsbD k != decide (k = 31)) := by
  have hmask : ∀ k < 32, (0x80000000 : Word).getLsbD k = decide (k = 31) := by decide
  rw [BitVec.getLsbD_xor, hmask k hk]

end Sys2Proof.Machine

namespace Sys2Proof.Claims
open Sys2Proof.Machine

/-- R80, R83: FP32 holds its own values, and its NaNs are made one. -/
theorem fp32ValuesRoundToThemselves : Fp32ValuesRoundToThemselves := by
  intro r x
  cases hn : (f32 x).isNan with
  | true => rw [Fp.isNan_iff.1 hn, toF32_nan, if_pos rfl]
  | false =>
    rw [if_neg Bool.false_ne_true, toF32, f32,
      fp32.encode_value (by decide) (by decide) false r.noStochastic 0 x.isLt hn, BitVec.ofNat_toNat, BitVec.setWidth_eq]

/-- R111: an operation on a NaN gives the canonical one. -/
theorem arithmetic_nan (r : Rnd) {a b : Word} (h : (f32 a).isNan ∨ (f32 b).isNan) :
    faddF32 r a b = 0x7FC00000 ∧ fsubF32 r a b = 0x7FC00000 ∧ fmulF32 r a b = 0x7FC00000 := by
  unfold faddF32 fsubF32 fmulF32
  rw [Fp.isNan_iff, Fp.isNan_iff] at h
  rcases h with ha | hb
  · simp [ha, toF32_nan]
  · simp [hb, toF32_nan]

/-- R112: of a NaN and a number fmin and fmax give the number. -/
theorem minmax_nan_number {a b : Word} (ha : (f32 a).isNan = true) (hb : (f32 b).isNan = false) :
    fminF32 a b = b ∧ fmaxF32 a b = b ∧ fminF32 b a = b ∧ fmaxF32 b a = b := by
  have hnan : fp32.value a.toNat = .nan := Fp.isNan_iff.1 ha
  have hnumber : fp32.value b.toNat ≠ .nan := mt Fp.isNan_iff.2 (ne_true_of_eq_false hb)
  unfold fminF32 fmaxF32
  simp [minmaxBits_nan_left fp32 _ hnan hnumber, minmaxBits_nan_right fp32 _ hnumber hnan]

/-- R80, R111, R112: what NaNs do. -/
theorem nanRules : NanRules := by
  refine fun r a b => ⟨arithmetic_nan r, fun ⟨ha, hb⟩ => ?_, minmax_nan_number, fun ha => ?_, fun ha k hk => ?_⟩
  · have hbits (isMax : Bool) := minmaxBits_nan_nan fp32 isMax (Fp.isNan_iff.1 ha) (Fp.isNan_iff.1 hb)
    rw [fminF32, fmaxF32, hbits, hbits]
    exact ⟨rfl, rfl⟩
  · exact ⟨if_pos ha, if_pos ha⟩
  · rw [fabsF32, fnegF32, if_neg (ne_true_of_eq_false ha), if_neg (ne_true_of_eq_false ha)]
    exact ⟨and_magnitude_getLsbD a hk, xor_sign_getLsbD a hk⟩

/-- Settles O6: a number of FP32 is a point of the format's grid, which a rounding does not change, and the NaN rules are read off the
operations. -/
theorem floatingPointValues : Obligations.FloatingPointValues := ⟨fp32ValuesRoundToThemselves, nanRules⟩

end Sys2Proof.Claims
end

section
/-! PROOFS. Predicates: what plog computes, and p0, which reads true and keeps nothing (R24, R128). -/

namespace Sys2Proof.Machine

/-- A write of a predicate other than p0 is read back, and leaves the others (R24). -/
theorem Thread.pred_setPred (t : Thread) {n k : Nat} (hn : n ≠ 0) (hk : k < 8) (x : Bool) :
    (t.setPred n x).pred k = if k = n then x else t.pred k := by
  have hbit : (1#8 <<< n).getLsbD k = decide (k = n) := by
    rw [BitVec.getLsbD_shiftLeft, BitVec.getLsbD_one, Bool.eq_iff_iff]
    simp only [Bool.and_eq_true, Bool.not_eq_true', decide_eq_true_eq, decide_eq_false_iff_not]
    omega
  have hset : (t.setPred n x).p.getLsbD k = if k = n then x else t.p.getLsbD k := by
    simp only [Thread.setPred, beq_iff_eq, if_neg hn]
    cases x with
    | true =>
      simp only [if_true, BitVec.getLsbD_or, hbit]
      split <;> simp_all
    | false =>
      simp only [Bool.false_eq_true, if_false, BitVec.getLsbD_and, BitVec.getLsbD_not, hbit, hk, decide_true, Bool.true_and]
      split <;> simp_all
  simp only [Thread.pred, hset]
  split
  next hkn => rw [hkn, beq_false_of_ne hn, Bool.false_or]
  next => rfl

end Sys2Proof.Machine

namespace Sys2Proof.Claims
open Sys2Proof.Machine

/-- R128: plog computes its predicate in its thread. -/
theorem plogCompletes : PlogCompletes := by
  intro o c s t hc ha x y v
  cases hc
  have hexec : exec (.plog o) s = .next (s.run (.ext 0x49 o) fun s t => s.immediate (.ext 0x49 o) plogCalc t) := rfl
  rw [hexec, run_alone ha]
  show Host.Outcome.next (s.setThread (computed _ (plogCalc (s.lane (.ext 0x49 o) t)) t)) = _
  rw [plogCalc, computed_pred]
  rfl

/-- R24: p0 reads true and keeps nothing. -/
theorem predicateZero : PredicateZero :=
  ⟨fun _ => rfl, fun _ _ => rfl, fun t _ _ x h1 _ hk => t.pred_setPred (Nat.ne_of_gt h1) hk x⟩

/-- Settles O5: plog is a computation of one predicate, and a predicate is a bit of its thread's byte. -/
theorem predicateLogic : Obligations.PredicateLogic := ⟨plogCompletes, predicateZero⟩

end Sys2Proof.Claims
end

section
/-! PROOFS. The return stack: call, callx, ret, and the return address that comes back (R120, R122 to R124, R137). -/

namespace Sys2Proof.Machine

/-! ## Where an access of the stack lies -/

/-- The extents of the spaces are not in the ports. -/
theorem State.openPort_limit (s : State) (t : Thread) (space : Nat) : s.openPort.limit t space = s.limit t space := by
  unfold State.openPort
  split <;> rfl

/-- An address in a bounded space that fits and is aligned is its own effective address (R137). -/
theorem effAddr_ok {space limit a n : Nat} (hs : space ≠ 0) (hfit : a + n ≤ limit) (hal : a % n = 0) :
    effAddr space limit a 0 n = .ok a := by
  have hlow : ¬ ((a : Int) < 0 ∨ (limit : Int) < (a : Int) + n) := by omega
  simp [effAddr, hs, hal, hlow]

/-- Beyond the limit it raises ADDR (R137). -/
theorem effAddr_beyond {space limit a n : Nat} (hs : space ≠ 0) (hout : limit < a + n) (ha : a < 2 ^ 57) :
    effAddr space limit a 0 n = .error { cause := Cause.addr, addr := BitVec.ofNat 64 a } := by
  have hhigh : (limit : Int) < (a : Int) + n := by omega
  have hmod : (a : Int) % 2 ^ 57 = a := Int.emod_eq_of_lt (by omega) (by exact_mod_cast ha)
  simp only [effAddr, beq_iff_eq, if_neg hs, Int.add_zero, hhigh, decide_true, Bool.or_true, if_true, Nat.cast_pow,
    Nat.cast_ofNat, hmod]
  rfl

end Sys2Proof.Machine

namespace Sys2Proof.Claims
open Sys2Proof.Machine

/-! ## One access -/

/-- An access that reaches its place sets its thread and is on its way. -/
theorem accessThen_reaches {s : State} {c : Code} {t : Thread} {g : Gang} {w : Want} {a : Access}
    (h : reaches s c t g w a = true) (after : Access → Thread) : s.accessThen c t w after =
      (((s.modify fun m => { m with nextId := m.nextId + 1 }).setThread (after a)).noteAccess a).launchAccess a w.classes := by
  simp only [reaches, Bool.and_eq_true, decide_eq_true_eq, Bool.not_eq_true'] at h
  obtain ⟨⟨hg, hblocked⟩, hok⟩ := h
  simp only [State.accessThen, hg, hblocked, Bool.false_eq_true, if_false, State.newId, hok]

/-- No fence holds an access that reaches its place. -/
theorem fenced_of_reaches {s : State} {c : Code} {t : Thread} {g : Gang} {w : Want} {a : Access}
    (h : reaches s c t g w a = true) : t.fenced w.classes = false := by
  simp only [reaches, State.accessBlocked, State.notReady, Bool.and_eq_true, Bool.not_eq_true', Bool.or_eq_false_iff] at h
  obtain ⟨⟨-, ⟨⟨hfenced, -⟩, -⟩, -⟩, -⟩ := h
  exact hfenced

/-- An instruction in the packet's one thread, with its packet opened in the port before and closed after. -/
theorem runAccess_alone {s : State} {c : Code} {t : Thread} (ha : alone s c t = true) (body : State → Thread → State) :
    s.runAccess c false body = (body s.openPort t).closePort s.packetGang := by
  rw [State.runAccess, run_alone (alone_of_sameThreads s.sameThreads_openPort ha)]

/-! ## call and callx -/

/-- A call to a target that R120 allows stores and goes there. -/
theorem exec_call {i : Instr} {c : Code} {s : State} {t : Thread} {x : Dword} (hc : i.code = some c) (ha : alone s c t = true)
    (hx : callTarget s i c t = some x) : usesPort i = true ∧
      exec i s = .next ((s.openPort.calls c t x).closePort s.packetGang) := by
  unfold callTarget at hx
  split at hx
  case h_4 => cases hx
  case h_1 o =>
    cases hc
    cases hx
    refine ⟨rfl, ?_⟩
    show Host.Outcome.next (s.runAccess _ false _) = _
    rw [runAccess_alone ha]
    rfl
  all_goals
    obtain ⟨⟨hlow, h4⟩, hsome⟩ := Option.ite_none_right_eq_some.1 hx
    cases hsome
    obtain ⟨hport, hexec⟩ := exec_callx rfl hc s
    refine ⟨hport, ?_⟩
    rw [hexec, runAccess_alone ha, State.callsTo, State.openPort_lane, badTarget_eq, if_neg (Nat.not_le.2 hlow),
      if_neg (not_not.2 h4)]

section
variable {s : State} {c : Code} {t : Thread} {x : Dword}

/-- The write of a call, with the stack's top in order (R122). -/
theorem calls_accessThen (hf : t.fenced 2 = false) (h8 : t.sptr.toNat % 8 = 0) (hroom : 8 ≤ t.sptr.toNat)
    (hlim : t.sptr.toNat ≤ s.limit t 3) : s.calls c t x =
      s.accessThen c t (pushWant c t) fun _ => ({ t with sptr := t.sptr - 8 } : Thread).goTo c x := by
  have hea : effAddr 3 (s.limit t 3) (t.sptr.toNat - 8) 0 8 = .ok (t.sptr.toNat - 8) :=
    effAddr_ok (by decide) (by omega) (by omega)
  simp only [State.calls, hf, h8, Nat.not_lt.2 hroom, hea, bne_self_eq_false, Bool.false_eq_true, if_false]
  rfl

/-- A stack top that is no multiple of 8 (R122). -/
theorem calls_misaligned (hf : t.fenced 2 = false) (h8 : t.sptr.toNat % 8 ≠ 0) :
    s.calls c t x = s.raise t.ref t.pc c { cause := 0x05, addr := t.sptr.zeroExtend 64 } := by
  simp only [State.calls, hf, bne_iff_ne.2 h8, Bool.false_eq_true, if_false, if_true, BitVec.ofNat_toNat]
  rfl

/-- A stack without room (R122). -/
theorem calls_full (hf : t.fenced 2 = false) (h0 : t.sptr = 0) : s.calls c t x = s.raise t.ref t.pc c { cause := 0x06 } := by
  simp only [State.calls, hf, h0, Bool.false_eq_true, if_false]
  rfl

/-- A slot beyond the limit of its space (R122, R137). -/
theorem calls_beyond (hf : t.fenced 2 = false) (h8 : t.sptr.toNat % 8 = 0) (hroom : 8 ≤ t.sptr.toNat)
    (hlim : s.limit t 3 < t.sptr.toNat) :
    s.calls c t x = s.raise t.ref t.pc c { cause := 0x06, addr := BitVec.ofNat 64 (t.sptr.toNat - 8) } := by
  have hsp := t.sptr.isLt
  have hea := effAddr_beyond (space := 3) (limit := s.limit t 3) (a := t.sptr.toNat - 8) (n := 8) (by decide) (by omega)
    (by omega)
  simp only [State.calls, hf, h8, Nat.not_lt.2 hroom, hea, bne_self_eq_false, Bool.false_eq_true, if_false]
  rfl

end

/-- R122: a call with its stack in order. -/
theorem callCompletes : CallCompletes := by
  intro i c s t g a x hc ha hx h8 hroom hlim hreach
  rw [(exec_call hc ha hx).2, calls_accessThen (fenced_of_reaches hreach) h8 hroom (by rwa [State.openPort_limit]),
    accessThen_reaches hreach]
  rfl

/-! ## ret -/

theorem exec_ret {i : Instr} {c : Code} (hi : (∃ o, i = .ret o) ∨ ∃ o, i = .retExt o) (hc : i.code = some c) {s : State}
    {t : Thread} (ha : alone s c t = true) : usesPort i = true ∧ (∀ x, callTarget s i c t ≠ some x) ∧
      exec i s = .next ((s.openPort.returns c t).closePort s.packetGang) := by
  obtain ⟨o, rfl⟩ | ⟨o, rfl⟩ := hi
  all_goals
    cases hc
    refine ⟨rfl, nofun, ?_⟩
    show Host.Outcome.next (s.runAccess _ false _) = _
    rw [runAccess_alone ha]

section
variable {s : State} {c : Code} {t : Thread} (hf : t.fenced 1 = false)
include hf

/-- The read of a return, with the stack's top in order (R123). -/
theorem returns_accessThen (h8 : t.sptr.toNat % 8 = 0) (hlim : t.sptr.toNat + 8 ≤ s.limit t 3) :
    s.returns c t = s.accessThen c t (popWant t) fun a => { t with sptr := t.sptr + 8, retWait := some (a.tok, c) } := by
  simp only [State.returns, hf, h8, Nat.not_lt.2 hlim, bne_self_eq_false, Bool.false_eq_true, if_false]
  rfl

theorem returns_misaligned (h8 : t.sptr.toNat % 8 ≠ 0) :
    s.returns c t = s.raise t.ref t.pc c { cause := 0x05, addr := t.sptr.zeroExtend 64 } := by
  simp only [State.returns, hf, bne_iff_ne.2 h8, Bool.false_eq_true, if_false, if_true, BitVec.ofNat_toNat]
  rfl

/-- An empty stack (R123). -/
theorem returns_empty (h8 : t.sptr.toNat % 8 = 0) (hlim : s.limit t 3 < t.sptr.toNat + 8) :
    s.returns c t = s.raise t.ref t.pc c { cause := 0x06 } := by
  simp only [State.returns, hf, h8, hlim, bne_self_eq_false, Bool.false_eq_true, if_false, if_true]
  rfl

end

/-- R122, R123, R137: stack tops that raise. -/
theorem stackTopTraps : StackTopTraps := by
  intro i c s t hc ha hkind traps
  rcases hkind with ⟨hcall, hf⟩ | ⟨hret, hf⟩
  · obtain ⟨x, hx⟩ := Option.isSome_iff_exists.1 hcall
    obtain ⟨hport, hexec⟩ := exec_call hc ha hx
    have htraps {e : Raise} (h : s.openPort.calls c t x = s.openPort.raise t.ref t.pc c e) : traps e := by
      simp only [traps, hexec, h, inPort, hport, if_true]
    exact ⟨fun h8 => htraps (calls_misaligned hf h8), fun _ h0 => htraps (calls_full hf h0),
      fun _ h8 hroom hlim => htraps (calls_beyond hf h8 hroom (by rwa [State.openPort_limit])),
      fun hret => absurd hx ((exec_ret hret hc ha).2.1 x)⟩
  · obtain ⟨hport, hnocall, hexec⟩ := exec_ret hret hc ha
    have htraps {e : Raise} (h : s.openPort.returns c t = s.openPort.raise t.ref t.pc c e) : traps e := by
      simp only [traps, hexec, h, inPort, hport, if_true]
    have hnone {p : Prop} (hcall : (callTarget s i c t).isSome) : p := by
      obtain ⟨x, hx⟩ := Option.isSome_iff_exists.1 hcall
      exact absurd hx (hnocall x)
    exact ⟨fun h8 => htraps (returns_misaligned hf h8), hnone, hnone,
      fun _ h8 hlim => htraps (returns_empty hf h8 (by rwa [State.openPort_limit]))⟩

/-! ## The return address comes back -/

/-- A result in flight reaches its thread. -/
theorem exec_resultReturn {s : State} {f : Flight} {r : ThreadRef} {tok : Nat} {v : List Word} {p : Option (Nat × Dword × Word)}
    (hf : s.m.flight.find? (·.id == s.m.ev.id) = some f) (hmsg : f.msg = .result r tok v p) :
    exec .deferredResultReturn s = .next
      ((s.modify fun m => { m with flight := m.flight.filter (·.id != f.id) }).resultReturned r tok v p) := by
  have hid : f.id = s.m.ev.id := by simpa using List.find?_some hf
  show execDeferredResultReturn s = _
  simp only [execDeferredResultReturn, State.takeFlight, hf, hmsg, hid]

/-- The return address of the thread's ret is checked and taken (R123). -/
theorem resultReturned_ret {s : State} {t : Thread} {tok : Nat} {c : Code} {lo hi : Word} (ht : s.thread? t.ref = some t)
    (hw : t.retWait = some (tok, c)) : s.resultReturned t.ref tok [lo, hi] none = s.returned t c (pair lo hi) := by
  simp only [State.resultReturned, ht, hw, beq_self_eq_true, if_true]
  rfl

/-- R123, R124: ret and its return address. -/
theorem returnCompletes : ReturnCompletes := by
  constructor
  · intro i c s t g a hi hc ha h8 hlim hreach
    rw [(exec_ret hi hc ha).2.2, returns_accessThen (fenced_of_reaches hreach) h8 (by rwa [State.openPort_limit]),
      accessThen_reaches hreach]
    rfl
  · intro s f t tok c lo hi hf hmsg ht hw x r back
    have hexec : exec .deferredResultReturn s = .next (r.returned t c x) :=
      (exec_resultReturn hf hmsg).trans (congrArg _ (resultReturned_ret (s := r) ht hw))
    rw [hexec, State.returned, badTarget_eq]
    refine ⟨fun hx h4 => ?_, fun hx => ?_, fun hx h4 => ?_⟩
    · rw [if_neg (Nat.not_le.2 hx), if_neg (not_not.2 h4)]
    · rw [if_pos hx]
      rfl
    · rw [if_neg (Nat.not_le.2 hx), if_pos h4]
      rfl

/-- Settles O9: the stack's checks come before its one access, and the address that comes back is checked as a branch target. That
the target of call and the return address wrap at 57 bits is the model's choice (log entry 96). -/
theorem callAndReturn : Obligations.CallAndReturn := ⟨callCompletes, stackTopTraps, returnCompletes⟩

end Sys2Proof.Claims
end

section
/-! PROOFS. Integer values in whole numbers: the two widths of the integer types, operands, results and
signed values (R101, R104). -/

namespace Sys2Proof.Claims
open Sys2Proof.Machine

/-! ## The widths of the integer types (R101) -/

theorem width_of_wholeType {ty : Nat} (h : ty ∈ wholeTypes) :
    Ty.regs ty = 1 ∧ widthOf ty = 32 ∨ Ty.regs ty = 2 ∧ widthOf ty = 64 := by
  simp only [wholeTypes, List.mem_cons, List.not_mem_nil, or_false] at h
  rcases h with rfl | rfl | rfl | rfl <;> decide

theorem width_pos {ty : Nat} (h : ty ∈ wholeTypes) : 0 < widthOf ty := by
  rcases width_of_wholeType h with ⟨-, hw⟩ | ⟨-, hw⟩ <;> omega

theorem width_le {ty : Nat} (h : ty ∈ wholeTypes) : widthOf ty ≤ 64 := by
  rcases width_of_wholeType h with ⟨-, hw⟩ | ⟨-, hw⟩ <;> omega

theorem two_pow_width_dvd {ty : Nat} (h : ty ∈ wholeTypes) : (2 : Int) ^ widthOf ty ∣ 2 ^ 64 :=
  pow_dvd_pow 2 (width_le h)

/-- Numbers that agree modulo 2^64 agree modulo 2^w. -/
theorem emod_width {ty : Nat} (h : ty ∈ wholeTypes) {m n : Int} (hmn : m % 2 ^ 64 = n % 2 ^ 64) :
    m % 2 ^ widthOf ty = n % 2 ^ widthOf ty := by
  rw [← Int.emod_emod_of_dvd m (two_pow_width_dvd h), hmn, Int.emod_emod_of_dvd n (two_pow_width_dvd h)]

theorem emod_toNat_ofInt {ty : Nat} (h : ty ∈ wholeTypes) (n : Int) :
    ((BitVec.ofInt 64 n).toNat : Int) % 2 ^ widthOf ty = n % 2 ^ widthOf ty := by
  refine emod_width h ?_
  rw [BitVec.toNat_ofInt]
  omega

/-- A value is cut to its w low bits. -/
theorem toNat_cut {ty : Nat} (h : ty ∈ wholeTypes) (x : Dword) : (cut ty x).toNat = x.toNat % 2 ^ widthOf ty := by
  rcases width_of_wholeType h with ⟨hr, hw⟩ | ⟨hr, hw⟩
  · rw [cut, hr, if_neg (by decide), hw, ← toNat_lowHalf]
    exact BitVec.toNat_setWidth_of_le (by decide)
  · simp only [cut, hr, hw, beq_self_eq_true, if_true, Nat.mod_eq_of_lt x.isLt]

theorem emod_toNat_cut {ty : Nat} (h : ty ∈ wholeTypes) (x : Dword) :
    ((cut ty x).toNat : Int) % 2 ^ widthOf ty = (x.toNat : Int) % 2 ^ widthOf ty := by
  rw [toNat_cut h]
  push_cast
  exact Int.emod_emod_of_dvd _ (dvd_refl _)

/-! ## Operands and results -/

theorem length_opnd (l : Lane) (w : Nat) (code : BitVec 8) : (l.opnd w code).length = w := by
  have hconst (x : Word) : (constWords w x).length = w := by
    unfold constWords
    split <;> simp_all
  have hnumber (n : Nat) : (numberWords w n).length = w := by
    unfold numberWords
    split <;> simp_all
  unfold Lane.opnd
  split
  case h_11 =>
    split
    · unfold literalOperand
      split <;> simp_all
    · simp
  all_goals simp [regsFrom, hconst, hnumber]

/-- A value of a one-register type is that register's. -/
theorem val_one_register {l : Lane} (hr : Ty.regs l.ty = 1) (code : BitVec 8) : l.val code = (l.word code).setWidth 64 := by
  have hlen := length_opnd l 1 code
  rw [Lane.val, hr, Lane.word]
  match l.opnd 1 code, hlen with
  | [x], _ => rfl

theorem toNat_val_lt {l : Lane} (h : l.ty ∈ wholeTypes) (code : BitVec 8) : (l.val code).toNat < 2 ^ widthOf l.ty := by
  rcases width_of_wholeType h with ⟨hr, hw⟩ | ⟨hr, hw⟩
  · rw [val_one_register hr, hw, BitVec.toNat_setWidth]
    exact (Nat.mod_le _ _).trans_lt (l.word code).isLt
  · rw [hw]
    exact (l.val code).isLt

/-- A result is its w low bits. -/
theorem result_congr {l : Lane} (h : l.ty ∈ wholeTypes) {x y : Dword}
    (hxy : (x.toNat : Int) % 2 ^ widthOf l.ty = (y.toNat : Int) % 2 ^ widthOf l.ty) : l.result x = l.result y := by
  rcases width_of_wholeType h with ⟨hr, hw⟩ | ⟨hr, hw⟩
  · have hlow : lowHalf x = lowHalf y := BitVec.eq_of_toNat_eq (by
      rw [hw] at hxy
      rw [toNat_lowHalf, toNat_lowHalf]
      omega)
    simp only [Lane.result, hr, wordsOf, hlow]
    rfl
  · have hall : x = y := BitVec.eq_of_toNat_eq (by
      rw [hw] at hxy
      have hx := x.isLt
      have hy := y.isLt
      omega)
    rw [hall]

/-- A result that is a whole number modulo 2^w. -/
theorem result_ofInt {l : Lane} (h : l.ty ∈ wholeTypes) {x : Dword} {d : Int}
    (hx : (x.toNat : Int) % 2 ^ widthOf l.ty = d % 2 ^ widthOf l.ty) : l.result x = l.result (BitVec.ofInt 64 d) :=
  result_congr h (hx.trans (emod_toNat_ofInt h d).symm)

/-! ## Signed values (R104) -/

/-- s(x): the two's complement value of w bits. -/
def signedValue (w x : Nat) : Int := if 2 ^ (w - 1) ≤ x then (x : Int) - 2 ^ w else x
/-- val(x). -/
def operandValue (sign : Bool) (w x : Nat) : Int := if sign then signedValue w x else x

theorem toInt_eq_signedValue {w : Nat} (hw : 0 < w) (x : BitVec w) : x.toInt = signedValue w x.toNat := by
  have hpow := Nat.two_pow_pred_mul_two hw
  rw [BitVec.toInt_eq_toNat_cond, signedValue]
  by_cases hx : 2 ^ (w - 1) ≤ x.toNat
  · rw [if_pos hx, if_neg (by omega)]
    push_cast
    rfl
  · rw [if_neg hx, if_pos (by omega)]

section
variable {ty : Nat} (h : ty ∈ wholeTypes) {a : Dword} (ha : a.toNat < 2 ^ widthOf ty)
include h ha

omit h in
theorem toNat_lowHalf_of_width (hw : widthOf ty = 32) : (lowHalf a).toNat = a.toNat := by
  rw [toNat_lowHalf, Nat.mod_eq_of_lt (hw ▸ ha)]

theorem signedOf_eq : signedOf ty a = signedValue (widthOf ty) a.toNat := by
  rcases width_of_wholeType h with ⟨hr, hw⟩ | ⟨hr, hw⟩
  · rw [signedOf, hr, if_neg (by decide), toInt_eq_signedValue (by decide), toNat_lowHalf_of_width ha hw, hw]
  · rw [signedOf, hr, if_pos (by decide), toInt_eq_signedValue (by decide), hw]

theorem valOf_eq : valOf ty a = operandValue (Ty.signed ty) (widthOf ty) a.toNat := by
  have hs := signedOf_eq h ha
  simp only [wholeTypes, List.mem_cons, List.not_mem_nil, or_false] at h
  rcases h with rfl | rfl | rfl | rfl
  · exact congrArg Nat.cast (toNat_lowHalf_of_width ha rfl)
  · exact hs
  · rfl
  · exact hs

end

end Sys2Proof.Claims
end

section
/-! PROOFS. The value of each integer instruction: what the operations of R104 make of whole numbers. -/

namespace Sys2Proof.Claims
open Sys2Proof.Machine

/-! ## Bits as sums, counts and places -/

/-- Digits laid one after another, the first highest, are a sum of powers. -/
theorem foldl_digits (f : Nat → Nat) (n : Nat) : (List.range n).foldl (fun x i => 2 * x + f i) 0 =
    ((List.range n).map fun k => f k * 2 ^ (n - 1 - k)).sum := by
  induction n with
  | zero => rfl
  | succ n ih =>
    have hshift : ((List.range n).map fun k => f k * 2 ^ (n + 1 - 1 - k)).sum =
        2 * ((List.range n).map fun k => f k * 2 ^ (n - 1 - k)).sum := by
      rw [← List.sum_map_mul_left]
      refine congrArg List.sum (List.map_congr_left fun k hk => ?_)
      have hk : k < n := List.mem_range.1 hk
      rw [show n + 1 - 1 - k = n - 1 - k + 1 by omega, Nat.pow_succ']
      exact Nat.mul_left_comm _ _ _
    rw [List.range_succ, List.foldl_append, ih, List.map_append, List.sum_append, hshift]
    simp

/-- n binary digits make a number below 2^n. -/
theorem foldl_digits_lt {f : Nat → Nat} (hf : ∀ k, f k < 2) (n : Nat) :
    (List.range n).foldl (fun x i => 2 * x + f i) 0 < 2 ^ n := by
  induction n with
  | zero => exact Nat.one_pos
  | succ n ih =>
    rw [List.range_succ, List.foldl_append, Nat.pow_succ]
    have hn := hf n
    simp only [List.foldl_cons, List.foldl_nil]
    omega

/-- The first place where a predicate holds. -/
theorem find?_range_eq_findIdx {p : Nat → Bool} {n : Nat} (h : ∃ k < n, p k) :
    (List.range n).find? p = some ((List.range n).findIdx p) := by
  have hlt : (List.range n).findIdx p < (List.range n).length := List.findIdx_lt_length_of_exists (by simpa using h)
  have hget {k : Nat} (hk : k < (List.range n).length) : (List.range n)[k] = k := List.getElem_range hk
  refine List.find?_range_eq_some.2 ⟨?_, ?_, fun j hj => ?_⟩
  · have hp := List.findIdx_getElem (w := hlt)
    rwa [hget] at hp
  · simpa using hlt
  · have hp := List.not_of_lt_findIdx hj
    rw [hget] at hp
    rw [hp]
    rfl

/-- The highest bit that is set. -/
theorem find?_range_eq_log2 {x w : Nat} (h0 : x ≠ 0) (hx : x < 2 ^ w) :
    (List.range w).find? (fun k => x.testBit (w - 1 - k)) = some (w - 1 - Nat.log2 x) := by
  have hlog : Nat.log2 x < w := (Nat.log2_lt h0).2 hx
  refine List.find?_range_eq_some.2 ⟨?_, List.mem_range.2 (by omega), fun j hj => ?_⟩
  · rw [show w - 1 - (w - 1 - Nat.log2 x) = Nat.log2 x by omega]
    exact Nat.testBit_log2 h0
  · rw [Nat.testBit_lt_two_pow (Nat.lt_log2_self.trans_le (Nat.pow_le_pow_right (by decide) (by omega)))]
    rfl

/-! ## The operations (R104) -/

theorem count_lt {ty n : Nat} (hn : n ≤ widthOf ty) : n < 2 ^ widthOf ty := hn.trans_lt Nat.lt_two_pow_self

/-- A value within the width is the whole number it stands for. -/
theorem emod_of_lt {ty : Nat} {a : Dword} (ha : a.toNat < 2 ^ widthOf ty) : (a.toNat : Int) % 2 ^ widthOf ty = a.toNat :=
  Int.emod_eq_of_lt (by omega) (by exact_mod_cast ha)

section
variable {ty : Nat} (h : ty ∈ wholeTypes) (a b : Dword)
include h

theorem wrap_value (n : Int) : ((wrap ty n).toNat : Int) % 2 ^ widthOf ty = n % 2 ^ widthOf ty := by
  rw [wrap, emod_toNat_cut h, emod_toNat_ofInt h]

theorem ofNat_value {n : Nat} (hn : n < 2 ^ widthOf ty) : ((BitVec.ofNat 64 n).toNat : Int) % 2 ^ widthOf ty = n := by
  have hofInt := emod_toNat_ofInt h n
  rw [BitVec.ofInt_natCast] at hofInt
  rw [hofInt]
  exact Int.emod_eq_of_lt (by omega) (by exact_mod_cast hn)

theorem add_value : ((cut ty (a + b)).toNat : Int) % 2 ^ widthOf ty = ((a.toNat : Int) + b.toNat) % 2 ^ widthOf ty := by
  rw [emod_toNat_cut h]
  refine emod_width h ?_
  rw [BitVec.toNat_add]
  omega

theorem sub_value : ((cut ty (a - b)).toNat : Int) % 2 ^ widthOf ty = ((a.toNat : Int) - b.toNat) % 2 ^ widthOf ty := by
  rw [emod_toNat_cut h]
  refine emod_width h ?_
  rw [BitVec.toNat_sub]
  omega

theorem mul_value : ((cut ty (a * b)).toNat : Int) % 2 ^ widthOf ty = ((a.toNat : Int) * b.toNat) % 2 ^ widthOf ty := by
  rw [emod_toNat_cut h]
  refine emod_width h ?_
  rw [BitVec.toNat_mul]
  push_cast
  exact Int.emod_emod_of_dvd _ (dvd_refl _)

theorem mad_value (c : Dword) : ((cut ty (a * b + c)).toNat : Int) % 2 ^ widthOf ty =
    ((a.toNat : Int) * b.toNat + c.toNat) % 2 ^ widthOf ty := by
  rw [emod_toNat_cut h]
  refine emod_width h ?_
  rw [BitVec.toNat_add, BitVec.toNat_mul]
  push_cast
  rw [Int.emod_emod_of_dvd _ (dvd_refl _), Int.emod_add_emod]

theorem neg_value : ((negate ty a).toNat : Int) % 2 ^ widthOf ty = -(a.toNat : Int) % 2 ^ widthOf ty := by
  have hsub := sub_value h 0 a
  rwa [show (0 : Dword).toNat = 0 from rfl, Nat.cast_zero, Int.zero_sub] at hsub

theorem shl_value (n : Nat) : ((shiftLeft ty a n).toNat : Int) % 2 ^ widthOf ty =
    if n ≥ widthOf ty then 0 else (a.toNat : Int) * 2 ^ n % 2 ^ widthOf ty := by
  rw [shiftLeft]
  split
  · rfl
  · rw [emod_toNat_cut h]
    refine emod_width h ?_
    rw [BitVec.toNat_shiftLeft, Nat.shiftLeft_eq]
    push_cast
    exact Int.emod_emod_of_dvd _ (dvd_refl _)

theorem popc_value : ((BitVec.ofNat 64 (popCount ty a)).toNat : Int) % 2 ^ widthOf ty =
    ((List.range (widthOf ty)).countP fun k => a.toNat.testBit k : Nat) := by
  rw [popCount, ← List.countP_eq_length_filter]
  refine ofNat_value h (count_lt ?_)
  exact List.countP_le_length.trans_eq List.length_range

theorem brev_value : ((bitReverse ty a).toNat : Int) % 2 ^ widthOf ty =
    ((List.range (widthOf ty)).map fun k => if a.toNat.testBit k then (2 : Int) ^ (widthOf ty - 1 - k) else 0).sum := by
  have hlt := foldl_digits_lt (f := fun i => (a.getLsbD i).toNat) (fun k => (a.getLsbD k).toNat_lt) (widthOf ty)
  rw [bitReverse, ofNat_value h hlt, foldl_digits, Nat.cast_list_sum, List.map_map]
  refine congrArg List.sum (List.map_congr_left fun k _ => ?_)
  simp only [Function.comp, ← BitVec.testBit_toNat]
  cases a.toNat.testBit k <;> simp

variable {a b} (ha : a.toNat < 2 ^ widthOf ty)
include ha

theorem abs_value : ((absolute ty a).toNat : Int) % 2 ^ widthOf ty = |signedValue (widthOf ty) a.toNat| % 2 ^ widthOf ty := by
  have habs : absolute ty a = wrap ty |signedOf ty a| := by
    rw [absolute, wrap, ← Int.natCast_natAbs, BitVec.ofInt_natCast]
  rw [habs, wrap_value h, signedOf_eq h ha]

theorem not_value : ((invert ty a).toNat : Int) % 2 ^ widthOf ty = ((2 ^ widthOf ty - 1 - a.toNat : Nat) : Int) := by
  rw [invert, toNat_cut h, BitVec.toNat_not]
  rcases width_of_wholeType h with ⟨-, hw⟩ | ⟨-, hw⟩
  all_goals
    rw [hw] at ha ⊢
    omega

theorem sar_value (n : Nat) : ((shiftArith ty a n).toNat : Int) % 2 ^ widthOf ty =
    signedValue (widthOf ty) a.toNat / 2 ^ (if n ≥ widthOf ty then widthOf ty - 1 else n) % 2 ^ widthOf ty := by
  have hcount : Nat.min n (widthOf ty - 1) = if n ≥ widthOf ty then widthOf ty - 1 else n := by
    have hpos := width_pos h
    change min n _ = _
    split <;> omega
  rw [shiftArith, wrap_value h, signedOf_eq h ha, hcount]
  push_cast
  rfl

theorem rot_value (n : Nat) : ((rotateLeft ty a n).toNat : Int) % 2 ^ widthOf ty =
    (a.toNat : Int) * 2 ^ (n % widthOf ty) % 2 ^ widthOf ty + (a.toNat : Int) / 2 ^ (widthOf ty - n % widthOf ty) := by
  have hle : 2 ^ widthOf ty ≤ 2 ^ 64 := Nat.pow_le_pow_right (by decide) (width_le h)
  have hk : n % widthOf ty < widthOf ty := Nat.mod_lt _ (width_pos h)
  rw [rotateLeft]
  generalize n % widthOf ty = k at *
  have hsplit : 2 ^ widthOf ty = 2 ^ (widthOf ty - k) * 2 ^ k := by rw [← Nat.pow_add, Nat.sub_add_cancel hk.le]
  have hhigh : a.toNat * 2 ^ k % 2 ^ widthOf ty = a.toNat % 2 ^ (widthOf ty - k) * 2 ^ k := by
    rw [hsplit, Nat.mul_mod_mul_right]
  have hlow : a.toNat / 2 ^ (widthOf ty - k) < 2 ^ k := Nat.div_lt_of_lt_mul (hsplit ▸ ha)
  have hfit : a.toNat * 2 ^ k % 2 ^ widthOf ty + a.toNat / 2 ^ (widthOf ty - k) < 2 ^ widthOf ty := by
    have hmod : a.toNat % 2 ^ (widthOf ty - k) + 1 ≤ 2 ^ (widthOf ty - k) := Nat.mod_lt _ (Nat.two_pow_pos _)
    have hmul := Nat.mul_le_mul_right (2 ^ k) hmod
    rw [← hsplit, Nat.succ_mul] at hmul
    rw [hhigh]
    omega
  have hsum : (cut ty (a <<< k) + a >>> (widthOf ty - k)).toNat =
      a.toNat * 2 ^ k % 2 ^ widthOf ty + a.toNat / 2 ^ (widthOf ty - k) := by
    rw [BitVec.toNat_add, toNat_cut h, BitVec.toNat_shiftLeft, BitVec.toNat_ushiftRight, Nat.shiftLeft_eq,
      Nat.shiftRight_eq_div_pow, Nat.mod_mod_of_dvd _ (by exact_mod_cast two_pow_width_dvd h), Nat.mod_eq_of_lt (hfit.trans_le hle)]
  rw [emod_of_lt (hsum ▸ hfit), hsum]
  push_cast
  rfl

theorem clz_value : ((BitVec.ofNat 64 (leadingZeros ty a)).toNat : Int) % 2 ^ widthOf ty =
    if a.toNat = 0 then (widthOf ty : Int) else widthOf ty - 1 - Nat.log2 a.toNat := by
  have hbits : leadingZeros ty a =
      ((List.range (widthOf ty)).find? fun k => a.toNat.testBit (widthOf ty - 1 - k)).getD (widthOf ty) := rfl
  split
  next h0 =>
    rw [hbits, List.find?_range_eq_none.2 fun k _ => by rw [h0, Nat.zero_testBit]; rfl, Option.getD_none]
    exact ofNat_value h (count_lt le_rfl)
  next h0 =>
    have hlog : Nat.log2 a.toNat < widthOf ty := (Nat.log2_lt h0).2 ha
    rw [hbits, find?_range_eq_log2 h0 ha, Option.getD_some, ofNat_value h (count_lt (by omega))]
    omega

theorem ctz_value : ((BitVec.ofNat 64 (trailingZeros ty a)).toNat : Int) % 2 ^ widthOf ty =
    if a.toNat = 0 then (widthOf ty : Int) else ((List.range (widthOf ty)).findIdx fun k => a.toNat.testBit k : Nat) := by
  have hbits : trailingZeros ty a = ((List.range (widthOf ty)).find? fun k => a.toNat.testBit k).getD (widthOf ty) := rfl
  split
  next h0 =>
    rw [hbits, List.find?_range_eq_none.2 fun k _ => by rw [h0, Nat.zero_testBit]; rfl, Option.getD_none]
    exact ofNat_value h (count_lt le_rfl)
  next h0 =>
    have hset : ∃ k < widthOf ty, a.toNat.testBit k := ⟨_, (Nat.log2_lt h0).2 ha, Nat.testBit_log2 h0⟩
    rw [hbits, find?_range_eq_findIdx hset, Option.getD_some]
    exact ofNat_value h (count_lt (List.findIdx_le_length.trans_eq List.length_range))

variable (hb : b.toNat < 2 ^ widthOf ty)
include hb

theorem mulh_value : ((mulHigh ty a b).toNat : Int) % 2 ^ widthOf ty =
    operandValue (Ty.signed ty) (widthOf ty) a.toNat * operandValue (Ty.signed ty) (widthOf ty) b.toNat / 2 ^ widthOf ty %
      2 ^ widthOf ty := by
  rw [mulHigh, wrap_value h, valOf_eq h ha, valOf_eq h hb]
  push_cast
  rfl

theorem min_value : ((minimum ty a b).toNat : Int) % 2 ^ widthOf ty =
    if operandValue (Ty.signed ty) (widthOf ty) a.toNat ≤ operandValue (Ty.signed ty) (widthOf ty) b.toNat then (a.toNat : Int)
    else b.toNat := by
  rw [minimum, valOf_eq h ha, valOf_eq h hb]
  split
  · exact emod_of_lt ha
  · exact emod_of_lt hb

theorem max_value : ((maximum ty a b).toNat : Int) % 2 ^ widthOf ty =
    if operandValue (Ty.signed ty) (widthOf ty) a.toNat ≥ operandValue (Ty.signed ty) (widthOf ty) b.toNat then (a.toNat : Int)
    else b.toNat := by
  rw [maximum, valOf_eq h ha, valOf_eq h hb]
  split
  · exact emod_of_lt ha
  · exact emod_of_lt hb

theorem andn_value : ((a &&& ~~~b).toNat : Int) % 2 ^ widthOf ty = ((a.toNat &&& (2 ^ widthOf ty - 1 - b.toNat) : Nat) : Int) := by
  have hbits : (a &&& ~~~b).toNat = a.toNat &&& (2 ^ widthOf ty - 1 - b.toNat) := by
    refine Nat.eq_of_testBit_eq fun k => ?_
    rw [Nat.sub_sub, Nat.add_comm 1, Nat.testBit_and, Nat.testBit_two_pow_sub_succ hb, BitVec.testBit_toNat, BitVec.testBit_toNat,
      BitVec.testBit_toNat, BitVec.getLsbD_and, BitVec.getLsbD_not]
    by_cases hk : k < widthOf ty
    · simp [hk, hk.trans_le (width_le h)]
    · have hout : a.getLsbD k = false :=
        Nat.testBit_lt_two_pow (ha.trans_le (Nat.pow_le_pow_right (by decide) (Nat.le_of_not_lt hk)))
      simp [hout]
  rw [emod_of_lt (hbits ▸ Nat.and_lt_two_pow _ (by omega)), hbits]

end

theorem and_value {ty : Nat} {b : Dword} (a : Dword) (hb : b.toNat < 2 ^ widthOf ty) :
    ((a &&& b).toNat : Int) % 2 ^ widthOf ty = ((a.toNat &&& b.toNat : Nat) : Int) :=
  emod_of_lt (a := a &&& b) (Nat.and_lt_two_pow _ hb)

section
variable {ty : Nat} {a b : Dword} (ha : a.toNat < 2 ^ widthOf ty)
include ha

theorem shr_value (n : Nat) : ((shiftRight ty a n).toNat : Int) % 2 ^ widthOf ty =
    if n ≥ widthOf ty then 0 else (a.toNat : Int) / 2 ^ n := by
  rw [shiftRight]
  split
  · rfl
  · have hdiv : (a >>> n).toNat = a.toNat / 2 ^ n := by rw [BitVec.toNat_ushiftRight, Nat.shiftRight_eq_div_pow]
    rw [emod_of_lt (hdiv ▸ (Nat.div_le_self _ _).trans_lt ha), hdiv]
    push_cast
    rfl

variable (hb : b.toNat < 2 ^ widthOf ty)
include hb

theorem or_value : ((a ||| b).toNat : Int) % 2 ^ widthOf ty = ((a.toNat ||| b.toNat : Nat) : Int) :=
  emod_of_lt (a := a ||| b) (Nat.or_lt_two_pow ha hb)

theorem xor_value : ((a ^^^ b).toNat : Int) % 2 ^ widthOf ty = ((a.toNat ^^^ b.toNat : Nat) : Int) :=
  emod_of_lt (a := a ^^^ b) (Nat.xor_lt_two_pow ha hb)

end

/-! ## The value of each instruction -/

/-- A result whose low bits are the whole number d. -/
theorem result_whole {l : Lane} (h : l.ty ∈ wholeTypes) {x : Dword} {d : Int} (hx : (x.toNat : Int) % 2 ^ widthOf l.ty = d) :
    0 ≤ d ∧ d < 2 ^ (32 * Ty.regs l.ty) ∧
    l.result x = { words := wordsOf (Ty.regs l.ty) (BitVec.ofInt 64 d), preds := [], ctr := none } := by
  have hpos : (0 : Int) < 2 ^ widthOf l.ty := by positivity
  have hlow : 0 ≤ d := hx ▸ Int.emod_nonneg _ hpos.ne'
  have hhigh : d < 2 ^ widthOf l.ty := hx ▸ Int.emod_lt_of_pos _ hpos
  exact ⟨hlow, hhigh, result_ofInt h (hx.trans (Int.emod_eq_of_lt hlow hhigh).symm)⟩

/-- Settles O2: each operation is one of whole numbers, taken modulo 2^w. -/
theorem integerValues : Obligations.IntegerValues := by
  intro i fn l d hrule hty hd
  have ha := toNat_val_lt hty l.f.a
  have hb := toNat_val_lt hty l.f.b
  unfold r104 at hd
  dsimp only at hd
  split at hd
  all_goals cases hd
  all_goals cases hrule
  -- add, sub, mul, mulh, mad
  case h_1 | h_2 => exact result_whole hty (add_value hty _ _)
  case h_3 | h_4 => exact result_whole hty (sub_value hty _ _)
  case h_5 | h_6 => exact result_whole hty (mul_value hty _ _)
  case h_7 | h_8 => exact result_whole hty (mulh_value hty ha hb)
  case h_9 | h_10 => exact result_whole hty (mad_value hty _ _ _)
  -- neg, abs, min, max
  case h_11 | h_12 => exact result_whole hty (neg_value hty _)
  case h_13 | h_14 => exact result_whole hty (abs_value hty ha)
  case h_15 | h_16 => exact result_whole hty (min_value hty ha hb)
  case h_17 | h_18 => exact result_whole hty (max_value hty ha hb)
  -- and, or, xor, andn, not
  case h_19 | h_20 => exact result_whole hty (and_value _ hb)
  case h_21 | h_22 => exact result_whole hty (or_value ha hb)
  case h_23 | h_24 => exact result_whole hty (xor_value ha hb)
  case h_25 | h_26 => exact result_whole hty (andn_value hty ha hb)
  case h_27 | h_28 => exact result_whole hty (not_value hty ha)
  -- shl, shr, sar, rot
  case h_29 | h_30 => exact result_whole hty (shl_value hty _ _)
  case h_31 | h_32 => exact result_whole hty (shr_value ha _)
  case h_33 | h_34 => exact result_whole hty (sar_value hty ha _)
  case h_35 | h_36 => exact result_whole hty (rot_value hty ha _)
  -- popc, clz, ctz, brev
  case h_37 | h_38 => exact result_whole hty (popc_value hty _)
  case h_39 | h_40 => exact result_whole hty (clz_value hty ha)
  case h_41 | h_42 => exact result_whole hty (ctz_value hty ha)
  case h_43 | h_44 => exact result_whole hty (brev_value hty _)

end Sys2Proof.Claims
end

section
/-! PROOFS. Bit fields and moves: bfe, bfi, movk, mov, sel and lea (R105 to R108). -/

namespace Sys2Proof.Claims
open Sys2Proof.Machine

/-! ## Bits of a field -/

/-- The field limits of R105. -/
theorem fieldLimits_eq (w : Nat) (spec : Word) :
    fieldLimits w spec = (spec.toNat % 256, fieldLength w (spec.toNat % 256) (spec.toNat / 256 % 256)) := by
  simp only [fieldLimits, fieldLength]
  split
  · rfl
  · congr 1
    change min _ _ = _
    split <;> omega

/-- The mask of a field (R105). -/
theorem fieldMask_getLsbD {pos len k : Nat} (hk : k < 64) :
    (BitVec.ofNat 64 ((2 ^ len - 1) * 2 ^ pos)).getLsbD k = (decide (pos ≤ k) && decide (k < pos + len)) := by
  rw [← BitVec.testBit_toNat, BitVec.toNat_ofNat, Nat.testBit_mod_two_pow, Nat.testBit_mul_two_pow, Nat.testBit_two_pow_sub_one,
    Bool.eq_iff_iff]
  simp only [Bool.and_eq_true, decide_eq_true_eq]
  omega

/-- A field is laid over a value through its mask. -/
theorem masked_getLsbD {c x mask : Dword} {k : Nat} (hk : k < 64) :
    ((c &&& ~~~mask) ||| (x &&& mask)).getLsbD k = if mask.getLsbD k then x.getLsbD k else c.getLsbD k := by
  rw [BitVec.getLsbD_or, BitVec.getLsbD_and, BitVec.getLsbD_and, BitVec.getLsbD_not, decide_eq_true hk, Bool.true_and]
  cases mask.getLsbD k <;> simp

/-- bfi: the field holds the low bits of a, and the rest is c's (R105). -/
theorem bitInsert_getLsbD (ty : Nat) (a c : Dword) (spec : Word) {k : Nat} (hk : k < 64) :
    (bitInsert ty a c spec).getLsbD k =
      if spec.toNat % 256 ≤ k ∧ k < spec.toNat % 256 +
          fieldLength (widthOf ty) (spec.toNat % 256) (spec.toNat / 256 % 256) then
        a.toNat.testBit (k - spec.toNat % 256)
      else c.getLsbD k := by
  simp only [bitInsert, fieldLimits_eq, masked_getLsbD hk, fieldMask_getLsbD hk, Bool.and_eq_true, decide_eq_true_eq]
  split
  next hin =>
    rw [BitVec.getLsbD_shiftLeft, decide_eq_true hk, decide_eq_false (Nat.not_lt.2 hin.1)]
    rfl
  next => rfl

/-- movk: halfword n holds the low halfword of a, and the rest is c's (R106). -/
theorem moveHalf_getLsbD (ty : Nat) (a c : Dword) (spec : Word) {k : Nat} (hk : k < 64) :
    (moveHalf ty a c spec).getLsbD k =
      if 16 * (spec.toNat % (widthOf ty / 16)) ≤ k ∧ k < 16 * (spec.toNat % (widthOf ty / 16)) + 16 then
        a.toNat.testBit (k - 16 * (spec.toNat % (widthOf ty / 16)))
      else c.getLsbD k := by
  simp only [moveHalf]
  generalize 16 * (spec.toNat % (widthOf ty / 16)) = pos
  have hmask : 0xFFFF#64 <<< pos = BitVec.ofNat 64 ((2 ^ 16 - 1) * 2 ^ pos) := by
    rw [← BitVec.toNat_inj, BitVec.toNat_shiftLeft, Nat.shiftLeft_eq, BitVec.toNat_ofNat]
    rfl
  rw [BitVec.shiftLeft_and_distrib, show (0xFFFF : Dword) <<< pos = 0xFFFF#64 <<< pos from rfl, hmask, masked_getLsbD hk,
    fieldMask_getLsbD hk]
  simp only [Bool.and_eq_true, decide_eq_true_eq]
  split
  next hin =>
    rw [BitVec.getLsbD_shiftLeft, decide_eq_true hk, decide_eq_false (Nat.not_lt.2 hin.1)]
    rfl
  next => rfl

/-! ## bfe (R105) -/

/-- The top bit of a field. -/
theorem testBit_top_iff {f len : Nat} (h0 : len ≠ 0) (hf : f < 2 ^ len) : f.testBit (len - 1) = true ↔ 2 ^ (len - 1) ≤ f := by
  refine ⟨Nat.ge_two_pow_of_testBit, fun hle => ?_⟩
  have hpow := Nat.two_pow_pred_mul_two (Nat.pos_of_ne_zero h0)
  have hquot : f / 2 ^ (len - 1) = 1 := Nat.div_eq_of_lt_le (by omega) (by omega)
  rw [Nat.testBit_eq_decide_div_mod_eq, hquot]
  rfl

/-- What bfe extracts, in whole numbers. -/
theorem bitExtract_value {ty : Nat} (h : ty ∈ wholeTypes) {a : Dword} (spec : Word) :
    let len := fieldLength (widthOf ty) (spec.toNat % 256) (spec.toNat / 256 % 256)
    let f := a.toNat / 2 ^ (spec.toNat % 256) % 2 ^ len
    ((bitExtract ty a spec).toNat : Int) % 2 ^ widthOf ty =
      (if len = 0 then 0 else if Ty.signed ty ∧ f.testBit (len - 1) then ((f : Int) - 2 ^ len) % 2 ^ widthOf ty else f) %
        2 ^ widthOf ty := by
  intro len f
  have hf : f < 2 ^ len := Nat.mod_lt _ (Nat.two_pow_pos _)
  simp only [bitExtract, fieldLimits_eq, beq_iff_eq]
  by_cases h0 : len = 0
  · rw [if_pos h0, if_pos h0]
    rfl
  · have htop : (Ty.signed ty && decide (f ≥ 2 ^ (len - 1))) = true ↔ Ty.signed ty ∧ f.testBit (len - 1) := by
      rw [testBit_top_iff h0 hf, Bool.and_eq_true, decide_eq_true_eq]
    rw [if_neg h0, if_neg h0]
    change (((if (Ty.signed ty && decide (f ≥ 2 ^ (len - 1))) = true then wrap ty ((f : Int) - (2 ^ len : Nat))
      else BitVec.ofNat 64 f : Dword).toNat : Nat) : Int) % 2 ^ widthOf ty = _
    by_cases hneg : Ty.signed ty ∧ f.testBit (len - 1)
    · rw [if_pos (htop.2 hneg), if_pos hneg, wrap_value h, Int.emod_emod_of_dvd _ (dvd_refl _)]
      push_cast
      rfl
    · rw [if_neg (mt htop.1 hneg), if_neg hneg, ← emod_toNat_ofInt h f, BitVec.ofInt_natCast]

/-! ## lea (R108) -/

theorem leaCalc_eq (l : Lane) : leaCalc l = { words := wordsOf 2 (BitVec.ofInt 64 ((l.dword l.f.a).toNat
    + (if l.ty = Ty.i32 then (l.word l.f.b).toInt else ((l.word l.f.b).toNat : Int)) * 2 ^ (l.f.imm.toNat % 8))) } := by
  have hindex : (if l.ty == Ty.i32 then (l.word l.f.b).signExtend 64 else (l.word l.f.b).zeroExtend 64 : Dword) =
      BitVec.ofInt 64 (if l.ty = Ty.i32 then (l.word l.f.b).toInt else ((l.word l.f.b).toNat : Int)) := by
    by_cases hty : l.ty = Ty.i32
    · rw [if_pos hty, if_pos (beq_iff_eq.2 hty)]
      rfl
    · rw [if_neg hty, if_neg (mt beq_iff_eq.1 hty), BitVec.ofInt_natCast, BitVec.ofNat_toNat]
  have hscale : BitVec.ofInt 64 (2 ^ (l.f.imm.toNat % 8)) = BitVec.twoPow 64 (l.f.imm.toNat % 8) := by
    rw [show (2 : Int) ^ (l.f.imm.toNat % 8) = ((2 ^ (l.f.imm.toNat % 8) : Nat) : Int) by push_cast; rfl, BitVec.ofInt_natCast]
    exact BitVec.eq_of_toNat_eq (by rw [BitVec.toNat_ofNat, BitVec.toNat_twoPow])
  simp only [leaCalc, hindex]
  rw [BitVec.ofInt_add, BitVec.ofInt_mul, BitVec.ofInt_natCast, BitVec.ofNat_toNat, BitVec.setWidth_eq,
    BitVec.shiftLeft_eq_mul_twoPow, hscale]

/-- Settles O3: a field is laid over a value through its mask, bit by bit, and what bfe extracts is a whole number. -/
theorem fieldAndMoveValues : Obligations.FieldAndMoveValues := by
  refine ⟨fun l hf32 => ?_, fun l hty => ?_⟩
  · have hr : Ty.regs l.ty = 1 := by rw [hf32]; rfl
    rw [selCalc, Lane.result, hr, val_one_register hr, val_one_register hr]
    split <;> simp [wordsOf]
  · intro w a c b pos len f
    refine ⟨?_, ⟨_, rfl, fun k hk => bitInsert_getLsbD _ _ _ _ hk⟩, ⟨_, rfl, fun k hk => moveHalf_getLsbD _ _ _ _ hk⟩, rfl, rfl,
      leaCalc_eq l⟩
    exact result_ofInt hty (bitExtract_value hty _)

end Sys2Proof.Claims
end

section
/-! PROOFS. Division, and deferred results: how they are queued, return and are committed (R58, R59, R110, R119, R305). -/

namespace Sys2Proof.Machine

/-! ## A commit writes registers in order (R59) -/

/-- Consecutive registers read what was written to them. -/
theorem getD_writeRegs {r : Nat} (hr : r < 96) (ws : List Word) (v : Vector Word 96) (n : Nat) :
    (writeRegs v n ws).toArray.getD r 0 = if n ≤ r ∧ r < n + ws.length then ws.getD (r - n) 0 else v.toArray.getD r 0 := by
  induction ws generalizing v n with
  | nil =>
    rw [writeRegs, if_neg (by simp)]
  | cons x xs ih =>
    have hset : (v.setIfInBounds n x).toArray.getD r 0 = if n = r then x else v.toArray.getD r 0 := by
      simp [hr, Array.getElem_setIfInBounds]
    rw [writeRegs, ih, hset, List.length_cons]
    rcases Nat.lt_trichotomy r n with hlt | rfl | hgt
    · rw [if_neg (by omega), if_neg (by omega), if_neg (by omega)]
    · rw [if_neg (by omega), if_pos rfl, if_pos (by omega), Nat.sub_self, List.getD_cons_zero]
    · rw [if_neg hgt.ne, show r - n = r - (n + 1) + 1 by omega, List.getD_cons_succ]
      exact if_congr (by omega) rfl rfl

/-- The registers that an entry of the pending list writes. -/
def Pending.words (e : Pending) : List Word := (e.value.getD []).take e.count

/-- A commit writes the entries' registers one after another. -/
theorem Thread.commitAll_v (t : Thread) : t.commitAll.v = t.pend.foldl (fun v e => writeRegs v e.reg e.words) t.v :=
  (List.foldl_hom (g₂ := fun v (e : Pending) => writeRegs v e.reg e.words) Thread.v fun _ _ => rfl).symm

/-- The last entry that names a register stands in it. -/
theorem getD_foldl_writeRegs {r : Nat} (hr : r < 96) (v : Vector Word 96) (l : List Pending) :
    (l.foldl (fun v e => writeRegs v e.reg e.words) v).toArray.getD r 0 =
      (l.reverse.find? fun e => e.reg ≤ r && r < e.reg + e.words.length).elim (v.toArray.getD r 0)
        fun e => (e.value.getD []).getD (r - e.reg) 0 := by
  induction l using List.reverseRec with
  | nil => rfl
  | append_singleton l e ih =>
    rw [List.foldl_append, List.foldl_cons, List.foldl_nil, getD_writeRegs hr, List.reverse_append, List.reverse_singleton,
      List.singleton_append, List.find?_cons]
    by_cases h : e.reg ≤ r ∧ r < e.reg + e.words.length
    · have hcount : r - e.reg < e.count := by
        have hlen : e.words.length ≤ e.count := List.length_take_le _ _
        omega
      rw [if_pos h, decide_eq_true h.1, decide_eq_true h.2, Pending.words, List.getD_eq_getElem?_getD,
        List.getElem?_take_of_lt hcount]
      exact (List.getD_eq_getElem?_getD ..).symm
    · have hno : (decide (e.reg ≤ r) && decide (r < e.reg + e.words.length)) = false := by
        rwa [Bool.and_eq_false_iff, decide_eq_false_iff_not, decide_eq_false_iff_not, ← not_and_or]
      rw [if_neg h, ih, hno]

end Sys2Proof.Machine

namespace Sys2Proof.Claims
open Sys2Proof.Machine

/-! ## Division (R110) -/

theorem r110_eq (isDiv sign : Bool) (w a b : Nat) : r110 isDiv sign w a b =
    if b = 0 then (if isDiv then 2 ^ w - 1 else (a : Int))
    else if isDiv then (operandValue sign w a).tdiv (operandValue sign w b) % 2 ^ w
    else (operandValue sign w a).tmod (operandValue sign w b) % 2 ^ w := by
  have hvalue (x : Nat) : (if (sign && 2 ^ (w - 1) ≤ x) then (x : Int) - 2 ^ w else x) = operandValue sign w x := by
    cases sign <;> simp [operandValue, signedValue]
  simp only [r110, hvalue, Int.tmod_def]

section
variable {ty : Nat} (h : ty ∈ wholeTypes) {a b : Dword} (ha : a.toNat < 2 ^ widthOf ty) (hb : b.toNat < 2 ^ widthOf ty)
include h ha hb

theorem quotient_value : ((quotient ty a b).toNat : Int) % 2 ^ widthOf ty =
    r110 true (Ty.signed ty) (widthOf ty) a.toNat b.toNat % 2 ^ widthOf ty := by
  rw [quotient, r110_eq]
  by_cases h0 : b = 0
  · have hones : ((BitVec.allOnes 64).toNat : Int) % 2 ^ widthOf ty = -1 % 2 ^ widthOf ty := emod_width h rfl
    rw [if_pos (beq_iff_eq.2 h0), h0, emod_toNat_cut h, hones]
    exact (Int.add_emod_left (2 ^ widthOf ty) (-1)).symm
  · have hn : b.toNat ≠ 0 := fun hz => h0 (BitVec.eq_of_toNat_eq hz)
    rw [if_neg (mt beq_iff_eq.1 h0), wrap_value h, if_neg hn, valOf_eq h ha, valOf_eq h hb]
    exact (Int.emod_emod_of_dvd _ (dvd_refl _)).symm

theorem remainder_value : ((remainder ty a b).toNat : Int) % 2 ^ widthOf ty =
    r110 false (Ty.signed ty) (widthOf ty) a.toNat b.toNat % 2 ^ widthOf ty := by
  rw [remainder, r110_eq]
  by_cases h0 : b = 0
  · rw [if_pos (beq_iff_eq.2 h0), h0]
    rfl
  · have hn : b.toNat ≠ 0 := fun hz => h0 (BitVec.eq_of_toNat_eq hz)
    rw [if_neg (mt beq_iff_eq.1 h0), wrap_value h, if_neg hn, valOf_eq h ha, valOf_eq h hb]
    exact (Int.emod_emod_of_dvd _ (dvd_refl _)).symm

end

/-- R110: div and rem. -/
theorem divisionTable : DivisionTable := by
  intro l hty v
  have ha := toNat_val_lt hty l.f.a
  have hb := toNat_val_lt hty l.f.b
  exact ⟨result_ofInt hty (quotient_value hty ha hb), result_ofInt hty (remainder_value hty ha hb)⟩

/-- R110: the worked examples. -/
theorem divisionExamples : DivisionExamples := by
  intro l
  have hword {ty : Nat} (hty : l.ty = ty) (hr : Ty.regs ty = 1) (code : BitVec 8) : l.val code = (l.word code).setWidth 64 :=
    val_one_register (hty ▸ hr) code
  refine ⟨fun hty ha hb => ?_, fun hty ha hb => ?_, fun hty hb => ?_⟩
  · rw [divCalc, remCalc, binary, binary, Lane.result, Lane.result, hword hty rfl, hword hty rfl, ha, hb, hty]
    decide
  · rw [divCalc, remCalc, binary, binary, Lane.result, Lane.result, hword hty rfl, hword hty rfl, ha, hb, hty]
    decide
  · rcases hty with hty | hty
    all_goals
      rw [divCalc, binary, Lane.result, hword hty rfl l.f.b, hb, hty]
      rfl

/-! ## Deferred results (R58, R59) -/

theorem exec_deferredRule {i : Instr} {c : Code} {k : Config.Lat} {fn : Lane → Calc} (hrule : deferredRule i = some (k, fn))
    (hc : i.code = some c) (s : State) : exec i s = .next (s.computeLater c k fn) := by
  unfold deferredRule at hrule
  split at hrule
  all_goals cases hrule
  all_goals
    cases hc
    rfl

/-- R59: a full pending list. -/
theorem fullPendingListParks : FullPendingListParks := by
  rintro i ⟨k, fn⟩ c s t hrule hc ha h8 hret
  obtain ⟨-, hp, ht, hg, -⟩ := alone_iff.1 ha
  rw [exec_deferredRule hrule hc, State.computeLater, State.run_full hp ht hg h8 hret]

/-- R59: commit_all. -/
theorem commitWritesInOrder : CommitWritesInOrder := by
  intro t
  refine ⟨rfl, ?_, fun r hr => ?_⟩
  · rw [Thread.commitAll_eq]
  · rw [Thread.commitAll_v, getD_foldl_writeRegs hr]
    split
    next e hfound => exact congrArg (fun o : Option Pending => o.elim _ _) hfound
    next hfound => exact congrArg (fun o : Option Pending => o.elim _ _) hfound

/-- R59, R305: the marker. -/
theorem markerCommits : MarkerCommits := by
  intro t c
  refine ⟨fun hs => ?_, fun hs hret => ?_, fun hs hret => ?_⟩
  all_goals simp only [Thread.finish, Thread.goTo, hs, if_true, if_false, Bool.false_eq_true]
  · exact if_pos hret
  · exact if_neg (ne_true_of_eq_false hret)

/-- R59: a result that returns. -/
theorem resultReturns : ResultReturns := by
  intro s f t tok v hf hmsg ht hw
  let r := s.modify fun m => { m with flight := m.flight.filter (·.id != f.id) }
  have hreturn : r.resultReturned t.ref tok v none = r.setThread (t.returned tok v) := by
    have htr : r.thread? t.ref = some t := ht
    simp only [State.resultReturned, htr, hw]
  exact (exec_resultReturn hf hmsg).trans (congrArg _ hreturn)

/-- What a deferred instruction does (R58, R59): its result is sent on the path of all results, whose number is 0. -/
theorem exec_deferred {i : Instr} {c : Code} {k : Config.Lat} {fn : Lane → Calc} {s : State} {t : Thread}
    (hrule : deferredRule i = some (k, fn)) (hc : i.code = some c) (ha : alone s c t = true) (h8 : t.pend.length < 8) :
    exec i s = .next ((s.setThread
        (({ t.applyFlags (fn (s.lane c t)) with
            pend := t.pend ++ [{ reg := c.dstReg, count := (fn (s.lane c t)).words.length, tok := s.m.nextId, value := none }] } :
          Thread).finish c)).modify fun m =>
      { m with
        nextId := s.m.nextId + 2
        flight := m.flight ++ [{ id := s.m.nextId + 1, due := s.m.cycle + 1 + Config.latency k 0,
                                 msg := .result t.ref s.m.nextId (fn (s.lane c t)).words none }] }) := by
  rw [exec_deferredRule hrule hc, State.computeLater, run_alone_defers ha fun _ => h8, State.deferred]
  simp only [State.newId, Thread.applyFlags_ref]
  rfl

/-! ## The latency of a deferred result (log entry 4) -/

/-- Results of one kind take one latency, whatever their number. -/
def OneResultLatency : Prop :=
  ∀ n, Config.latency .divide (n + 1) = Config.latency .divide 0 ∧ Config.latency .trans (n + 1) = Config.latency .trans 0

/-- A thread in a packet of its own, and the next number. -/
def deferringThread : Thread := Thread.fresh { kid := 0, team := 0, gang := 0, lane := 0 } 0x10000 0 0 0
def deferringState (n : Nat) : State :=
  State.reset.modify fun m => { m with nextId := n, threads := [deferringThread], packet := [deferringThread.ref] }
def deferringOperands : Base := { s := false, d := 0, a := 1, b := 2, m := false, lit := none }

/-- In that thread the statement's number and the model's name one latency. -/
theorem latency_eq_of_complete (h : DeferredInstructionsComplete) {i : Instr} {c : Code} {k : Config.Lat} {fn : Lane → Calc}
    (hrule : deferredRule i = some (k, fn)) (hc : i.code = some c) (ha : alone (deferringState 0) c deferringThread = true)
    (n : Nat) : Config.latency k (n + 1) = Config.latency k 0 := by
  have han : alone (deferringState n) c deferringThread = true :=
    alone_of_sameThreads (s := deferringState 0) ⟨rfl, rfl, rfl⟩ ha
  have hsays := h i k fn c (deferringState n) deferringThread hrule hc han (by decide)
  have hdoes := exec_deferred hrule hc han (by decide)
  have hflight := congrArg (fun s : State => s.m.flight) (Host.Outcome.next.inj (hsays.symm.trans hdoes))
  have hdue := congrArg Flight.due (List.singleton_inj.1 (List.append_cancel_left hflight))
  exact Nat.add_left_cancel hdue

/-- The statement gives a result the latency of its own number, the model the latency of the one path of results. -/
theorem deferredInstructionsComplete_iff : DeferredInstructionsComplete ↔ OneResultLatency := by
  constructor
  · intro h n
    exact ⟨latency_eq_of_complete h (i := .div deferringOperands) rfl rfl (by decide) n,
      latency_eq_of_complete h (i := .sin deferringOperands) rfl rfl (by decide) n⟩
  · intro h i k fn c s t hrule hc ha h8 x n e t' f
    have hlat : Config.latency k (n + 1) = Config.latency k 0 := by
      unfold deferredRule at hrule
      split at hrule
      all_goals cases hrule
      case h_1 | h_2 | h_3 | h_4 => exact (h n).1
      all_goals exact (h n).2
    rw [exec_deferred hrule hc ha h8, ← hlat]

/-- Everything that the statement of division and deferred results says holds but the latency's argument: it is equivalent to a
property of `Config.latency`, a constant of which nothing is known. -/
theorem divisionAndDeferredResults_iff : Obligations.DivisionAndDeferredResults ↔ OneResultLatency := by
  rw [← deferredInstructionsComplete_iff]
  refine ⟨fun ⟨_, _, hdeferred, _⟩ => hdeferred, fun hdeferred => ?_⟩
  exact ⟨divisionTable, divisionExamples, hdeferred, fullPendingListParks, commitWritesInOrder, markerCommits, resultReturns⟩

end Sys2Proof.Claims
end

section
/-! PROOFS. The tack window: tack.ld, tack.open, tack.chk and tack.drop (R193, R197, R198, R202 to R205). -/

namespace Sys2Proof.Machine

/-! ## The tables of tack entries -/

/-- A hub goes by the name it is looked up with. -/
@[simp] theorem State.hub_hub (s : State) (n : Nat) : (s.hub n).hub = n := by
  unfold State.hub
  cases h : s.m.hubs.find? (·.hub == n) with
  | none => rfl
  | some x => simpa using List.find?_some h

/-- What is put under one key leaves what another key finds. -/
theorem putBy_find?_other {α : Type} {p q : α → Bool} {x : α} (hx : q x = false) (hpq : ∀ y, p y = true → q y = false)
    (l : List α) : (putBy p x l).find? q = l.find? q := by
  induction l with
  | nil => simp [putBy, hx]
  | cons y l ih =>
    cases hy : p y with
    | true => simp [putBy, hy, hx, hpq y hy]
    | false => simp [putBy, hy, List.find?_cons, ih]

theorem State.hub_setHub_other (s : State) (x : Hub) {n : Nat} (h : n ≠ x.hub) : (s.setHub x).hub n = s.hub n := by
  refine congrArg (Option.getD · _) (putBy_find?_other ?_ (fun y hy => ?_) s.m.hubs)
  · simpa using h.symm
  · have : y.hub = x.hub := by simpa using hy
    simpa [this] using h.symm

/-- The PENDING entries of a core's table (R193). -/
def State.tacks (s : State) (hub core : Nat) : List TackEntry :=
  ((s.hub hub).cores.toArray.getD core Core.fresh).tacks

theorem Hub.getD_tacks (cs : Vector Core 4) (core : Nat) :
    (cs.toArray.getD core Core.fresh).tacks = (cs.map (·.tacks)).toArray.getD core [] := by
  by_cases h : core < 4
  · simp [Array.getD, h]
  · simp [Array.getD, h]
    rfl

/-- A hub whose cores hold the same entries leaves the tables. -/
theorem State.tacks_setHub {s : State} {x : Hub} (h : x.cores.map (·.tacks) = (s.hub x.hub).cores.map (·.tacks))
    (hub core : Nat) : (s.setHub x).tacks hub core = s.tacks hub core := by
  unfold State.tacks
  by_cases hn : hub = x.hub
  · rw [hn, State.hub_setHub, Hub.getD_tacks, Hub.getD_tacks, h]
  · rw [State.hub_setHub_other s x hn]

theorem State.tacks_updTlb (s : State) (hub core : Nat) (f : List Tlb → List Tlb) (hub' core' : Nat) :
    (s.updTlb hub core f).tacks hub' core' = s.tacks hub' core' := by
  refine State.tacks_setHub ?_ hub' core'
  dsimp only
  rw [State.hub_hub]
  refine Vector.ext fun i hi => ?_
  by_cases hc : core = i
  · simp [← hc, Array.getD, hc ▸ hi]
  · simp [Vector.getElem_setIfInBounds_ne, hc]

/-- A use of the first level's translation takes and frees no entry. -/
theorem State.tacks_noteAccess (s : State) (a : Access) (hub core : Nat) :
    (s.noteAccess a).tacks hub core = s.tacks hub core := by
  unfold State.noteAccess State.noteUse
  split
  · rfl
  · dsimp only
    split
    · exact (State.tacks_updTlb _ _ _ _ _ _).trans (State.tacks_updTlb _ _ _ _ _ _)
    · exact State.tacks_updTlb _ _ _ _ _ _

theorem State.tacks_openPort (s : State) (hub core : Nat) : s.openPort.tacks hub core = s.tacks hub core := by
  unfold State.openPort
  split
  · exact State.tacks_setHub (by simp) hub core
  · rfl

/-! ## What the entry of the packet in the port leaves -/

theorem State.openPort_gangOf (s : State) (t : Thread) : s.openPort.gangOf t = s.gangOf t := by
  obtain ⟨-, hgangs, -⟩ := s.sameThreads_openPort
  simp only [State.gangOf, State.gang?, hgangs]

theorem State.openPort_memAddr (s : State) (c : Code) (t : Thread) (space n : Nat) :
    s.openPort.memAddr c t space n = s.memAddr c t space n := by
  simp only [State.memAddr, State.openPort_lane, State.openPort_limit]

/-! ## tack.ld -/

/-- An access that passes its checks is the one wanted. -/
theorem State.checkAccess_ok {s : State} {c : Code} {t : Thread} {g : Gang} {w : Want} {tok : Nat} {a : Access}
    (h : s.checkAccess c t g w tok = .ok a) : a.result = w.result ∧ a.ord = w.ord := by
  unfold State.checkAccess at h
  split at h
  · cases h
  · cases h
  · split_ifs at h
    cases h
    exact ⟨rfl, rfl⟩

/-- A load without ordering leaves its pending entry, and its thread goes on (R59). -/
theorem Thread.afterAccess_load {a : Access} {ty : Nat} (hres : a.result = some ty) (hord : a.ord = 0) (t : Thread) (c : Code) :
    t.afterAccess c a false =
      ({ t with pend := t.pend ++ [{ reg := c.dstReg, count := Ty.regs ty, tok := a.tok, value := none }] } : Thread).finish c := by
  simp [Thread.afterAccess, hres, hord, acquires]

/-- What a tack load asks for (R202). -/
def tackWant (c : Code) (ea : Nat) : Want :=
  { space := 0, ea := ea, size := Ty.bytes c.ty, op := .load, result := some c.ty, tack := true, classes := 1 }

/-- A tack load whose checks pass takes an entry where there is room, and else degrades (R193, R197, R198). -/
theorem State.tackLoads_ok {p : State} {c : Code} {t : Thread} {g : Gang} {ea : Nat} {a : Access} (hg : p.gangOf t = some g)
    (hf : t.fenced 1 = false) (hea : p.memAddr c t 0 (Ty.bytes c.ty) = .ok ea)
    (hio : p.newId.2.ioFenced t g (tackWant c ea) = false)
    (hok : p.newId.2.checkAccess c t g (tackWant c ea) p.m.nextId = .ok a) :
    let issued := (p.newId.2.setThread (t.afterAccess c a false)).noteAccess a
    p.tackLoads c t = if issued.tackRoom t g then (issued.takeTack a).launchAccess a 1
      else (((issued.updThread t.ref fun t => { t with tackst := tackDegraded t.tackst }).count g.hub 9 1).launchAccess
        { a with degraded := true, scope := 2 } 1) := by
  unfold tackWant at hio hok
  simp only [State.newId] at hio hok
  simp only [State.tackLoads, hg, hf, hea, State.newId, hio, hok, Bool.false_eq_true, if_false]

end Sys2Proof.Machine

namespace Sys2Proof.Claims
open Sys2Proof.Machine

theorem exec_tackLd {i : Instr} {c : Code} (hi : (∃ o, i = .tackLd o) ∨ ∃ o, i = .tackLdExt o) (hc : i.code = some c)
    (s : State) : exec i s = .next (s.runAccess c true fun s t => s.tackLoads c t) := by
  obtain ⟨o, rfl⟩ | ⟨o, rfl⟩ := hi
  all_goals
    cases hc
    rfl

/-- R202, R193, R197, R198: the tack load. -/
theorem tackLoadCompletes : TackLoadCompletes := by
  intro i c s t g ea a hi hc ha h8 hg hf hea p w q hio hok u room issued
  have hexec : exec i s = .next ((p.tackLoads c t).closePort s.packetGang) := by
    rw [exec_tackLd hi hc, State.runAccess, run_alone_defers (alone_of_sameThreads s.sameThreads_openPort ha) fun _ => h8]
  obtain ⟨hres, hord⟩ := State.checkAccess_ok hok
  have hissued : (p.newId.2.setThread (t.afterAccess c a false)).noteAccess a = issued :=
    congrArg (fun u => (q.setThread u).noteAccess a) (Thread.afterAccess_load hres hord t c)
  have hroom : issued.tackRoom t g = room := by
    have htacks : issued.tacks g.hub g.core = s.tacks g.hub g.core :=
      (State.tacks_noteAccess _ a _ _).trans (s.tacks_openPort _ _)
    exact congrArg (fun l : List TackEntry =>
      tackOpenBit t.tackst && decide (tackOut t.tackst < 8) && decide (l.length < 512)) htacks
  rw [hexec, State.tackLoads_ok (p := p) ((s.openPort_gangOf t).trans hg) hf ((s.openPort_memAddr c t 0 _).trans hea) hio hok,
    hissued, hroom]
  constructor
  · intro hr
    rw [if_pos hr]
  · intro hr
    rw [hr, if_neg Bool.false_ne_true]
    rfl

/-! ## tack.open and tack.drop -/

/-- Freed entries are not in the threads. -/
theorem threads_freeTacks (s : State) (r : ThreadRef) : (s.freeTacks r).m.threads = s.m.threads := by
  unfold State.freeTacks
  split <;> rfl

/-- A change of a thread that has been set sets what it makes. -/
theorem updThread_setThread (s : State) (u : Thread) {f : Thread → Thread} (hf : (f u).ref = u.ref) :
    (s.setThread u).updThread u.ref f = s.setThread (f u) := by
  refine congrArg s.withThreads ?_
  rw [hf]
  refine List.map_map.trans (List.map_congr_left fun v _ => ?_)
  by_cases hv : v.ref = u.ref <;> simp [hv]

/-- The window's register with no window open and no entry pending (R198). -/
def closedTackst (x : Word) : Word := if tackOpenBit x then setBits (setBits x 4 4 0) 0 1 0 else x

/-- A drop frees the entries of an open window and closes it, and else changes nothing (R205). -/
theorem dropWindow_eq {s : State} {t : Thread} (hn : (s.m.threads.map (·.ref)).Nodup) (ht : s.thread? t.ref = some t) :
    s.dropWindow t.ref = (if tackOpenBit t.tackst then s.freeTacks t.ref else s).setThread
      { t with tackst := closedTackst t.tackst } := by
  unfold State.dropWindow closedTackst
  rw [ht]
  dsimp only
  have hthreads := threads_freeTacks s t.ref
  split
  · exact State.updThread_eq_setThread (by rwa [hthreads]) (by rw [State.thread?, hthreads]; exact ht) rfl
  · exact (State.setThread_self hn ht).symm

/-- tack.open and tack.drop do the drop, and then change their thread (R203, R205). -/
theorem exec_drops {i : Instr} {c : Code} {s : State} {t : Thread} {f : Thread → Thread} (ha : alone s c t = true)
    (hf : ∀ u : Thread, (f u).ref = u.ref)
    (hexec : exec i s = .next (s.run c fun s t => (s.dropWindow t.ref).updThread t.ref f)) :
    exec i s = .next ((if tackOpenBit t.tackst then s.freeTacks t.ref else s).setThread
      (f { t with tackst := closedTackst t.tackst })) := by
  obtain ⟨hd, -, ht, -, -, -, -⟩ := alone_iff.1 ha
  rw [hexec, run_alone ha, dropWindow_eq (distinct_iff.1 hd).1 ht]
  exact congrArg _ (updThread_setThread _ { t with tackst := closedTackst t.tackst } (hf _))

/-! ## tack.chk -/

/-- A commit leaves the window's register. -/
theorem tackst_commitAll (t : Thread) : t.commitAll.tackst = t.tackst := by rw [Thread.commitAll_eq]

/-- The end of tack.chk (R204). -/
theorem tackChecked_eq (t : Thread) (target next : Dword) : t.tackChecked target next =
    { t.commitAll with tackst := closedTackst t.tackst, pc := if t.tackst.getLsbD 2 then target else next } := by
  simp only [Thread.tackChecked, tackst_commitAll]
  rfl

/-- R203 to R205: tack.open, tack.drop and tack.chk. -/
theorem tackWindowInstructionsComplete : TackWindowInstructionsComplete := by
  intro i c s t hc ha isOpen s' closed
  refine ⟨fun hi => ?_, fun hi => ?_, ?_⟩
  · refine exec_drops ha (f := fun u => ({ u with tackst := setBits (setBits u.tackst 0 1 1) 2 1 0 } : Thread).finish c)
      (fun u => Thread.finish_ref _ _) ?_
    obtain ⟨o, rfl⟩ | ⟨o, rfl⟩ := hi
    all_goals
      cases hc
      rfl
  · refine exec_drops ha (f := fun u => u.finish c) (fun u => u.finish_ref c) ?_
    obtain ⟨o, rfl⟩ | ⟨o, rfl⟩ := hi
    all_goals
      cases hc
      rfl
  · rintro o rfl target
    cases hc
    have hexec : exec (.tackChk o) s = .next (s.checksWindow (.ext 0x65 o) t) :=
      congrArg Host.Outcome.next (run_alone ha _)
    have hiff : (tackOut t.tackst == 0 && t.allReturned) = true ↔ tackOut t.tackst = 0 ∧ t.allReturned = true := by
      rw [Bool.and_eq_true, beq_iff_eq]
    rw [hexec, State.checksWindow]
    refine ⟨fun hdone => ?_, fun hdone => ?_⟩
    · rw [if_pos (hiff.2 hdone), tackChecked_eq]
      rfl
    · rw [if_neg (mt hiff.1 hdone)]
      rfl

/-- Settles O19: a tack load takes an entry of its core's table or degrades, and the window's instructions open, drop and check
the window. That the target of tack.chk wraps at 57 bits is the model's choice (log entry 96). -/
theorem tackInstructionsComplete : Obligations.TackInstructionsComplete :=
  ⟨tackLoadCompletes, tackWindowInstructionsComplete⟩

end Sys2Proof.Claims
end

section
/-! PROOFS. Pre-emption: the requests to the quarters of a set's hubs, and what one does where it arrives (R274, R328). -/

namespace Sys2Proof.Machine

/-! ## Requests on their way -/

/-- Messages that are sent one after another stand at the end of those in flight. -/
theorem State.foldl_sendAt {α : Type} (due : α → Nat) (msg : α → Msg) (l : List α) (s : State) :
    l.foldl (fun s q => s.sendAt (due q) (msg q)) s = s.modify fun m => { m with
      nextId := m.nextId + l.length
      flight := m.flight ++ l.mapIdx fun i q => { id := m.nextId + i, due := due q, msg := msg q } } := by
  induction l generalizing s with
  | nil => simp [State.modify]
  | cons q l ih =>
    rw [List.foldl_cons, ih]
    simp only [State.modify, State.sendAt, List.mapIdx_cons, List.length_cons, List.append_assoc, List.singleton_append,
      Nat.add_zero, Nat.add_assoc, Nat.add_comm 1]

/-- A request arrives within 210 cycles (R328). -/
theorem preemptDelay_bounds (q : QRef) : 0 < preemptDelay q ∧ preemptDelay q ≤ 210 := by
  have h := Nat.mod_lt (Config.latency .preempt (quarterNumber q)) (show 0 < 210 by decide)
  unfold preemptDelay
  omega

theorem mem_hubQuarters {hub core quarter : Nat} (hc : core < 4) (hq : quarter < 4) :
    ({ hub := hub, core := core, quarter := quarter } : QRef) ∈ hubQuarters hub := by
  refine List.mem_map.2 ⟨4 * core + quarter, List.mem_range.2 (by omega), ?_⟩
  congr 1 <;> omega

/-- Every quarter of a hub that holds a team of the set. -/
theorem State.mem_quartersOf {s : State} {x : HaltSet} {t : Team} (ht : t ∈ s.m.teams) (hx : s.meetsTeam t.ref x = true)
    {core quarter : Nat} (hc : core < 4) (hq : quarter < 4) :
    ({ hub := t.hub, core := core, quarter := quarter } : QRef) ∈ s.quartersOf x :=
  List.mem_flatMap.2 ⟨t.hub, List.mem_eraseDups.2 (List.mem_map.2 ⟨t, List.mem_filter.2 ⟨ht, hx⟩, rfl⟩), mem_hubQuarters hc hq⟩

/-! ## The note of a debug halt -/

theorem State.context_congr {s u : State} (h : u.m.contexts = s.m.contexts) (n : Nat) : u.context n = s.context n := by
  simp only [State.context, h]

/-- A context that is changed is read back. -/
theorem State.context_updContext {s : State} {n : Nat} (hn : n < 64) (f : Context → Context) :
    (s.updContext n f).context n = f (s.context n) := by
  simp [State.context, State.updContext, Array.getD, hn]

/-- The contexts with a debug halt noted in that of its set (R274). -/
def State.notedContexts (s : State) (x : HaltSet) (why : HaltWhy) : Vector Context 64 :=
  if why = .debug then match s.setContext x with
    | some n => (s.updContext n fun c =>
        { c with halts := c.halts ++ [{ set := x, since := s.m.cycle, resumed := [] }] }).m.contexts
    | none => s.m.contexts
  else s.m.contexts

/-- A request changes the contexts and the messages in flight alone. -/
theorem State.preempt_eq (s : State) (x : HaltSet) (why : HaltWhy) : s.preempt x why = s.modify fun m => { m with
    contexts := s.notedContexts x why
    nextId := m.nextId + (s.quartersOf x).length
    flight := m.flight ++ (s.quartersOf x).mapIdx fun i q =>
      { id := m.nextId + i, due := m.cycle + preemptDelay q, msg := .preempt q.hub q.core q.quarter x why } } := by
  have hnoted : s.preempt x why = (s.quartersOf x).foldl
      (fun u q => u.sendAt (s.m.cycle + preemptDelay q) (.preempt q.hub q.core q.quarter x why))
      (s.modify fun m => { m with contexts := s.notedContexts x why }) := by
    unfold State.preempt State.notedContexts
    cases why with
    | debug => cases s.setContext x <;> rfl
    | _ => rfl
  rw [hnoted, State.foldl_sendAt]
  rfl

/-! ## A request at its quarter -/

/-- A thread's gang stands in a quarter. -/
def State.inQuarter (s : State) (q : QRef) (t : Thread) : Bool :=
  match s.gangOf t with
  | some g => g.hub == q.hub && g.core == q.core && g.quarter == q.quarter
  | none => false

/-- A save stops the threads of the set. -/
theorem State.haltQuarter_save (s : State) (q : QRef) (x : HaltSet) : s.haltQuarter q x .save = s.modify fun m => { m with
    threads := m.threads.map fun t => if s.inSet t.ref x && s.inQuarter q t then { t with stopped := true } else t } := by
  have hdebug : (HaltWhy.save != .debug) = true := rfl
  have hsave : (HaltWhy.save == .save) = true := rfl
  simp only [State.haltQuarter, hdebug, hsave, Bool.true_or, Bool.and_true, if_true]
  rfl

/-- The threads of a set in a quarter that another request halts. -/
def State.haltedAt (s : State) (q : QRef) (x : HaltSet) (why : HaltWhy) : State :=
  s.modify fun m => { m with
    threads := m.threads.map fun t =>
      if s.inSet t.ref x && s.inQuarter q t && t.halt.isNone && (why != .debug || s.bornHalted t.ref q) then
        { t with halt := some why }
      else t }

/-- The bins of a hub whose threads a request halts. -/
def State.binsHaltedAt (s : State) (hub : Nat) (x : HaltSet) (why : HaltWhy) : List Bin :=
  (s.hub hub).bins.map fun b => if s.coversTeam b.team x && (why != .debug || s.debugStopped b.team) then
    { b with threads := b.threads.map fun t => if t.halt.isSome then t else { t with halt := some why } } else b

/-- What is halted already stays. -/
theorem ite_halted {α β : Type} (inSet asked here : Bool) (halt : Option α) (x y : β) :
    (if inSet && asked && here then (if halt.isSome then x else y) else x) =
      if inSet && here && halt.isNone && asked then y else x := by
  cases halt with
  | some w => simp
  | none =>
    rw [Bool.and_right_comm]
    simp

/-- Another request halts the threads of the set that are not halted, and in the hub's first quarter the binned ones too. -/
theorem State.haltQuarter_eq (s : State) (q : QRef) (x : HaltSet) {why : HaltWhy} (hw : why ≠ .save) : s.haltQuarter q x why =
    if q.core = 0 ∧ q.quarter = 0 then (s.haltedAt q x why).setHub { s.hub q.hub with bins := s.binsHaltedAt q.hub x why }
    else s.haltedAt q x why := by
  have hsave : (why == HaltWhy.save) = false := by simpa using hw
  have hthreads : (s.modify fun m => { m with
      threads := updBy (fun t => s.inSet t.ref x && (why != .debug || s.bornHalted t.ref q) && s.inQuarter q t)
        (fun t => if t.halt.isSome then t else { t with halt := some why }) m.threads }) = s.haltedAt q x why :=
    congrArg s.withThreads (List.map_congr_left fun t _ => ite_halted _ _ _ t.halt _ _)
  rw [← hthreads]
  simp only [State.haltQuarter, hsave, Bool.false_or, Bool.false_eq_true, if_false, Bool.or_eq_true, bne_iff_ne]
  by_cases hfirst : q.core = 0 ∧ q.quarter = 0
  · rw [if_pos hfirst, if_neg (by tauto)]
    rfl
  · rw [if_neg hfirst, if_pos (by tauto)]
    rfl

/-- A request that arrives acts in the state without its message. -/
theorem exec_preemptionReachesQuarter {s : State} {f : Flight} {hub core quarter : Nat} {x : HaltSet} {why : HaltWhy}
    (hf : s.m.flight.find? (·.id == s.m.ev.id) = some f) (hmsg : f.msg = .preempt hub core quarter x why) :
    exec .preemptionReachesQuarter s = .next
      ((s.modify fun m => { m with flight := m.flight.filter (·.id != s.m.ev.id) }).haltQuarter
        { hub := hub, core := core, quarter := quarter } x why) := by
  show execPreemptionReachesQuarter s = _
  simp only [execPreemptionReachesQuarter, State.onMessage, State.takeFlight, hf, hmsg]

end Sys2Proof.Machine

namespace Sys2Proof.Claims
open Sys2Proof.Machine

/-- R274, R328: the request, and what it does at a quarter. -/
theorem preemptionEvents : PreemptionEvents := by
  constructor
  · intro s
    have hexec : exec .preemptionRequest s = .next (s.preempt s.m.ev.set s.m.ev.why) := rfl
    rw [hexec, State.preempt_eq]
    refine ⟨_, _, rfl, rfl, rfl, rfl, fun f hf => ?_, fun x hx hset core hcore quarter hquarter => ?_, fun n hwhy hset hn => ?_,
      fun hwhy => if_neg hwhy⟩
    · obtain ⟨i, hi, rfl⟩ := List.mem_mapIdx.1 hf
      have hdelay := preemptDelay_bounds ((s.quartersOf s.m.ev.set)[i])
      dsimp only
      omega
    · obtain ⟨i, hi, hq⟩ := List.mem_iff_getElem.1 (State.mem_quartersOf hx hset hcore hquarter)
      exact ⟨_, List.mem_mapIdx.2 ⟨i, hi, rfl⟩, by rw [hq]⟩
    · have hnoted : s.notedContexts s.m.ev.set s.m.ev.why = (s.updContext n fun c =>
          { c with halts := c.halts ++ [{ set := s.m.ev.set, since := s.m.cycle, resumed := [] }] }).m.contexts := by
        unfold State.notedContexts
        rw [if_pos hwhy, hset]
      rw [State.context_congr (s := s.updContext n _) hnoted, State.context_updContext hn]
  · intro s f hub core quarter x why hf hmsg q there gone
    have hexec := exec_preemptionReachesQuarter hf hmsg
    refine ⟨fun hwhy => ?_, fun hwhy => ⟨fun hother => ?_, fun hcore hquarter => ?_⟩⟩
    · subst hwhy
      rw [hexec, State.haltQuarter_save]
      rfl
    · rw [hexec, State.haltQuarter_eq _ _ _ hwhy, if_neg (by dsimp only; omega)]
      rfl
    · rw [hexec, State.haltQuarter_eq _ _ _ hwhy, if_pos ⟨hcore, hquarter⟩]
      rfl

end Sys2Proof.Claims
end

section
/-! PROOFS. Saving and restoring a team (R209, R255, R271, R272, R318). -/

namespace Sys2Proof.Machine

/-! ## What the changes of hubs and cadences leave -/

/-- Hubs, quarters and the teams' loans have changed, and nothing else. -/
def State.onlyHubs (s u : State) : Prop :=
  ∃ hs qs g, (∀ t : Team, (g t).ref = t.ref) ∧
    u = s.modify fun m => { m with hubs := hs, quarters := qs, teams := m.teams.map g }

theorem State.onlyHubs_of_eq {s u : State} (h : u = s.modify fun m => { m with hubs := u.m.hubs, quarters := u.m.quarters }) :
    s.onlyHubs u :=
  ⟨u.m.hubs, u.m.quarters, id, fun _ => rfl, by simpa only [State.modify, List.map_id] using h⟩

theorem State.onlyHubs.trans {s u v : State} (h : s.onlyHubs u) (h' : u.onlyHubs v) : s.onlyHubs v := by
  obtain ⟨hs, qs, g, hg, rfl⟩ := h
  obtain ⟨hs', qs', g', hg', rfl⟩ := h'
  exact ⟨hs', qs', g' ∘ g, fun t => (hg' _).trans (hg t), by simp only [State.modify, List.map_map]⟩

/-- Steps that each change hubs alone do so together. -/
theorem State.onlyHubs_foldl {α : Type} {f : State → α → State} (hf : ∀ (u : State) a, u.onlyHubs (f u a)) (l : List α)
    (s : State) : s.onlyHubs (l.foldl f s) :=
  List.foldlRecOn (motive := fun u : State => s.onlyHubs u) l f (State.onlyHubs_of_eq rfl) fun u hu a _ => hu.trans (hf u a)

theorem State.onlyHubs_updQuarter (s : State) (q : QRef) (f : Quarter → Quarter) : s.onlyHubs (s.updQuarter q f) :=
  State.onlyHubs_of_eq rfl

theorem State.onlyHubs_retarget (s : State) (q : QRef) : s.onlyHubs (s.retarget q) := by
  unfold State.retarget
  exact s.onlyHubs_updQuarter q _

theorem State.onlyHubs_regrant (s : State) (q : QRef) : s.onlyHubs (s.regrant q) := by
  unfold State.regrant
  simp only
  split
  · exact State.onlyHubs_of_eq rfl
  · refine State.onlyHubs.trans ?_ (State.onlyHubs_retarget _ q)
    refine State.onlyHubs.trans ?_ (State.onlyHubs_foldl State.onlyHubs_retarget _ _)
    refine State.onlyHubs.trans ?_ (State.onlyHubs_updQuarter _ q _)
    exact ⟨s.m.hubs, s.m.quarters, fun t => { t with loans := t.loans.filter fun l => !(l.1 == q || l.2 == q) },
      fun _ => rfl, rfl⟩

theorem State.onlyHubs_leaveQuarter (s : State) (kid : Nat) (q : QRef) : s.onlyHubs (s.leaveQuarter kid q) := by
  unfold State.leaveQuarter
  simp only
  split
  · exact State.onlyHubs_of_eq rfl
  · exact (s.onlyHubs_updQuarter q _).trans (State.onlyHubs_regrant _ q)

/-! ## What a strike of a team's entries leaves -/

/-- Threads of team r, hubs and counters have changed, and nothing else. -/
def State.onlyThreadsOf (s u : State) (r : TeamRef) : Prop :=
  ∃ f : Thread → Thread, (∀ t, (f t).ref = t.ref) ∧ (∀ t, t.ref.teamRef ≠ r → f t = t) ∧
    u = { s.modify (fun m => { m with threads := m.threads.map f, hubs := u.m.hubs }) with hcnt := u.hcnt }

theorem State.onlyThreadsOf.trans {s u v : State} {r : TeamRef} (h : s.onlyThreadsOf u r) (h' : u.onlyThreadsOf v r) :
    s.onlyThreadsOf v r := by
  obtain ⟨f, hf, hid, hu⟩ := h
  obtain ⟨f', hf', hid', hv⟩ := h'
  refine ⟨f' ∘ f, fun t => (hf' _).trans (hf t), fun t ht => ?_, ?_⟩
  · simp only [Function.comp, hid t ht, hid' t ht]
  · rw [hu] at hv
    simpa only [State.modify, List.map_map] using hv

/-- A step that changes no thread. -/
theorem State.onlyThreadsOf_of_eq {s u : State} (r : TeamRef)
    (h : u = { s.modify (fun m => { m with hubs := u.m.hubs }) with hcnt := u.hcnt }) : s.onlyThreadsOf u r :=
  ⟨id, fun _ => rfl, fun _ _ => rfl, by simpa only [State.modify, List.map_id] using h⟩

theorem State.onlyThreadsOf_updHub (s : State) (hub : Nat) (f : Hub → Hub) (r : TeamRef) : s.onlyThreadsOf (s.updHub hub f) r :=
  State.onlyThreadsOf_of_eq r rfl

/-- A change of the team's threads. -/
theorem State.onlyThreadsOf_map (s : State) {r : TeamRef} {f : Thread → Thread} (hf : ∀ t, (f t).ref = t.ref)
    (hid : ∀ t, t.ref.teamRef ≠ r → f t = t) : s.onlyThreadsOf (s.modify fun m => { m with threads := m.threads.map f }) r :=
  ⟨f, hf, hid, rfl⟩

/-- A resolved entry of the team. -/
theorem State.onlyThreadsOf_resolveTack (s : State) (hub : Nat) (r : ThreadRef) (confirm : Bool) :
    s.onlyThreadsOf (s.resolveTack hub r confirm) r.teamRef := by
  refine ⟨fun t => if t.ref == r then { t with tackst := tackResolved t.tackst confirm } else t, fun t => ?_,
    fun t ht => if_neg fun h => ht ?_, ?_⟩
  · dsimp only
    split <;> rfl
  · rw [eq_of_beq h]
  · rw [State.resolveTack_m]
    exact State.count_eq _ _ _ _

/-- Every PENDING entry of a team is struck (R209). -/
theorem State.onlyThreadsOf_strikeTeam (s : State) (t : Team) : s.onlyThreadsOf (s.strikeTeam t) t.ref := by
  let mine := (s.hub t.hub).cores.toList.flatMap fun c => c.tacks.filter fun e => e.thread.teamRef == t.ref
  have hresolved (u : State) : u.onlyThreadsOf (mine.foldl (fun s e => s.resolveTack t.hub e.thread false) u) t.ref := by
    refine List.foldlRecOn (motive := fun v : State => u.onlyThreadsOf v t.ref) _ _ (State.onlyThreadsOf_of_eq _ rfl)
      fun v hv e he => hv.trans ?_
    obtain ⟨c, -, hc⟩ := List.mem_flatMap.1 he
    have href : e.thread.teamRef = t.ref := by simpa using (List.mem_filter.1 hc).2
    exact href ▸ v.onlyThreadsOf_resolveTack t.hub e.thread false
  unfold State.strikeTeam
  simp only
  refine State.onlyThreadsOf.trans ((s.onlyThreadsOf_updHub t.hub _ _).trans (hresolved _)) (State.onlyThreadsOf_map _ ?_ ?_)
  · intro x
    split <;> rfl
  · intro x hx
    rw [if_neg]
    simp [hx]

/-! ## The save -/

/-- The machine without a team, its gangs and its threads. -/
def State.withoutTeam (s : State) (r : TeamRef) : State :=
  s.modify fun m => { m with
    threads := m.threads.filter (·.ref.teamRef != r)
    gangs := m.gangs.filter (·.ref.teamRef != r)
    teams := m.teams.filter (·.ref != r) }

/-- A drained team is struck and noted in its context; it and its gangs and threads leave the machine (R271). -/
theorem State.saveTeam_drained {s : State} {x : Team} (hx : s.team? x.ref = some x) (hd : s.teamDrained x = true) :
    ∃ u y, s.onlyThreadsOf u x.ref ∧ y.team.ref = x.ref ∧ y.team.st = .saved ∧ y.threads = u.teamThreads x.ref ∧
      ((u.updContext (s.ctxOf x.ref.kid) fun c => { c with saved := c.saved ++ [y] }).withoutTeam x.ref).onlyHubs
        (s.saveTeam x.ref) := by
  have hstruck := s.onlyThreadsOf_strikeTeam x
  have hctx : (s.strikeTeam x).ctxOf x.ref.kid = s.ctxOf x.ref.kid := by
    obtain ⟨f, -, -, hu⟩ := hstruck
    rw [hu]
    rfl
  let y := (s.strikeTeam x).teamImage x
  refine ⟨_, { y with team := { y.team with st := .saved } }, hstruck, rfl, rfl, rfl, ?_⟩
  rw [State.saveTeam, hx]
  simp only [hd, Bool.not_true, Bool.false_eq_true, if_false]
  rw [hctx]
  refine State.onlyHubs.trans ?_ (State.onlyHubs_foldl (fun u g => u.onlyHubs_leaveQuarter _ _) _ _)
  refine State.onlyHubs.trans ?_ (State.onlyHubs_foldl State.onlyHubs_retarget _ _)
  exact State.onlyHubs_of_eq rfl

end Sys2Proof.Machine

namespace Sys2Proof.Claims
open Sys2Proof.Machine

/-- What a save leaves of the team's machine (R271). -/
theorem saved_leaves {s t : State} {x : Team} (hx : s.team? x.ref = some x) (hd : s.teamDrained x = true)
    (ht : s.saveTeam x.ref = t) :
    (∀ u ∈ t.m.threads, u.ref.teamRef ≠ x.ref) ∧ (∀ g ∈ t.m.gangs, g.ref.teamRef ≠ x.ref) ∧ t.team? x.ref = none ∧
      t.mem = s.mem ∧ (∀ u ∈ s.m.threads, u.ref.teamRef ≠ x.ref → u ∈ t.m.threads) ∧
      (s.ctxOf x.ref.kid < 64 → ∃ y : SavedTeam,
        (t.context (s.ctxOf x.ref.kid)).saved = (s.context (s.ctxOf x.ref.kid)).saved ++ [y] ∧
        y.team.ref = x.ref ∧ y.team.st = .saved ∧ y.threads.length = (s.teamThreads x.ref).length) := by
  obtain ⟨u, y, ⟨f, hf, hid, hu⟩, hyref, hyst, hythreads, hs, qs, g, hg, hsave⟩ := State.saveTeam_drained hx hd
  have hstruck : u.m.threads = s.m.threads.map f := by rw [hu]; rfl
  rw [ht] at hsave
  have hthreads : t.m.threads = (s.m.threads.map f).filter (·.ref.teamRef != x.ref) := by rw [hsave, ← hstruck]; rfl
  have hgangs : t.m.gangs = s.m.gangs.filter (·.ref.teamRef != x.ref) := by rw [hsave, hu]; rfl
  have hteams : t.m.teams = (s.m.teams.filter (·.ref != x.ref)).map g := by rw [hsave, hu]; rfl
  have hmem : t.mem = s.mem := by
    have hstruck : u.mem = s.mem := by rw [hu]; rfl
    rw [hsave, ← hstruck]
    rfl
  have hsaved (hn : s.ctxOf x.ref.kid < 64) :
      (t.context (s.ctxOf x.ref.kid)).saved = (s.context (s.ctxOf x.ref.kid)).saved ++ [y] := by
    have hcontexts : t.m.contexts =
        (u.updContext (s.ctxOf x.ref.kid) fun c => { c with saved := c.saved ++ [y] }).m.contexts := by rw [hsave]; rfl
    have hbefore : u.m.contexts = s.m.contexts := by rw [hu]; rfl
    rw [State.context_congr hcontexts, State.context_updContext hn, State.context_congr hbefore]
  refine ⟨fun v hv => ?_, fun v hv => ?_, ?_, hmem, fun v hv hne => ?_, fun hn => ⟨y, hsaved hn, hyref, hyst, ?_⟩⟩
  · rw [hthreads] at hv
    simpa using (List.mem_filter.1 hv).2
  · rw [hgangs] at hv
    simpa using (List.mem_filter.1 hv).2
  · rw [State.team?, hteams]
    refine List.find?_eq_none.2 fun v hv => ?_
    obtain ⟨w, hw, rfl⟩ := List.mem_map.1 hv
    simpa [hg] using (List.mem_filter.1 hw).2
  · rw [hthreads]
    exact List.mem_filter.2 ⟨List.mem_map.2 ⟨v, hv, hid v hne⟩, by simpa using hne⟩
  · rw [hythreads, State.teamThreads, State.teamThreads, hstruck, List.filter_map, List.length_map]
    simp only [Function.comp_def, hf]

end Sys2Proof.Claims
end

section
/-! PROOFS. Restoring a team (R46, R256, R272). -/

namespace Sys2Proof.Machine

/-! ## The team that is restored next -/

theorem leastBy_mem {α : Type} {key : α → List Nat} {l : List α} {x : α} (h : leastBy key l = some x) : x ∈ l := by
  induction l generalizing x with
  | nil => cases h
  | cons y l ih =>
    simp only [leastBy] at h
    split at h
    next => exact Option.some.inj h ▸ List.mem_cons_self
    next z hz =>
      split at h
      · exact Option.some.inj h ▸ List.mem_cons_of_mem y (ih hz)
      · exact Option.some.inj h ▸ List.mem_cons_self

/-- The next team to restore is a saved one of the context that fits. -/
theorem State.nextRestore_some {s : State} {c : Context} {x : SavedTeam} (h : s.nextRestore c = some x) :
    x ∈ c.saved ∧ (s.restoreTeam x).m.teams.length ≠ s.m.teams.length := by
  unfold State.nextRestore at h
  split at h
  · cases h
  · simpa using List.mem_filter.1 (leastBy_mem h)

/-- None is restored where none fits. -/
theorem State.nextRestore_none {s : State} {c : Context}
    (h : ∀ x ∈ c.saved, (s.restoreTeam x).m.teams.length = s.m.teams.length) : s.nextRestore c = none := by
  have hnone : (c.saved.filter fun x => decide ((s.restoreTeam x).m.teams.length ≠ s.m.teams.length)) = [] :=
    List.filter_eq_nil_iff.2 fun x hx => by simpa using h x hx
  unfold State.nextRestore
  rw [hnone]
  exact ite_self _

/-! ## Blocks that are read back -/

/-- What no item of a layout puts stays. -/
theorem itemRead_keeps {α β : Type} {f : α → β} {l : List (Item α)} (h : ∀ i ∈ l, ∀ n x, f (i.put n x) = f x) (bs : List Byte)
    (x : α) : f (itemRead l bs x) = f x := by
  induction l generalizing bs x with
  | nil => rfl
  | cons i l ih => exact (ih (fun j hj => h j (List.mem_cons_of_mem i hj)) _ _).trans (h i List.mem_cons_self _ _)

/-- A team's name is not in its header. -/
theorem itemRead_headerItems_ref (gangs : Nat) (roles : List RoleRec) (bs : List Byte) (t : Team) :
    (itemRead (headerItems gangs roles) bs t).ref = t.ref := by
  refine itemRead_keeps (f := Team.ref) (fun i hi n x => ?_) bs t
  simp only [headerItems, List.mem_append, List.mem_cons, List.mem_map, List.not_mem_nil, or_false] at hi
  rcases hi with ((rfl | ⟨k, -, rfl⟩) | rfl | rfl | rfl) | ⟨k, -, rfl⟩ <;> rfl

theorem State.readTeam_ref (s : State) (n : Nat) (x : SavedTeam) : (s.readTeam n x).team.ref = x.team.ref := by
  unfold State.readTeam
  split
  · rfl
  next l _ =>
    dsimp only
    exact itemRead_headerItems_ref x.gangs.length l.roles _ x.team

/-! ## A team stands on a hub again -/

/-- Threads, teams, kernels and contexts are as they were. -/
def State.sameTeams (s u : State) : Prop :=
  u.m.threads = s.m.threads ∧ u.m.teams = s.m.teams ∧ u.m.kernels = s.m.kernels ∧ u.m.contexts = s.m.contexts

theorem State.sameTeams.trans {s u v : State} (h : s.sameTeams u) (h' : u.sameTeams v) : s.sameTeams v := by
  obtain ⟨ht, hx, hk, hc⟩ := h
  obtain ⟨ht', hx', hk', hc'⟩ := h'
  exact ⟨ht'.trans ht, hx'.trans hx, hk'.trans hk, hc'.trans hc⟩

/-- Steps that each keep threads, teams, kernels and contexts do so together. -/
theorem State.sameTeams_foldl {α : Type} {f : State → α → State} (hf : ∀ (u : State) a, u.sameTeams (f u a)) (l : List α)
    (s : State) : s.sameTeams (l.foldl f s) :=
  List.foldlRecOn (motive := fun u : State => s.sameTeams u) l f ⟨rfl, rfl, rfl, rfl⟩ fun u hu a _ => hu.trans (hf u a)

theorem State.sameTeams_setHub (s : State) (h : Hub) : s.sameTeams (s.setHub h) := ⟨rfl, rfl, rfl, rfl⟩

theorem State.sameTeams_clearTeam (s : State) (t : Team) (gangs : List Gang) : s.sameTeams (s.clearTeam t gangs) := by
  refine State.sameTeams.trans (State.sameTeams.trans ?_ (State.sameTeams_foldl (fun u z => ?_) t.acc _))
    (State.sameTeams_foldl (fun u g => ?_) gangs _)
  all_goals exact ⟨rfl, rfl, rfl, rfl⟩

theorem State.sameTeams_restoreBytes (s : State) (x : SavedTeam) (t : Team) (gangs : List Gang) :
    s.sameTeams (s.restoreBytes x t gangs) := by
  have hkeeps (u : State) (a : Nat) (bs : List Byte) : u.sameTeams (u.winWrite a bs) := ⟨rfl, rfl, rfl, rfl⟩
  unfold State.restoreBytes
  refine State.sameTeams.trans (State.sameTeams.trans (State.sameTeams.trans (hkeeps s _ _)
    (State.sameTeams_foldl (fun u i => hkeeps u _ _) (List.range t.acc.length) _))
    (State.sameTeams_foldl (fun u i => ?_) (List.range gangs.length) _)) ⟨rfl, rfl, rfl, rfl⟩
  split
  · exact hkeeps u _ _
  · exact ⟨rfl, rfl, rfl, rfl⟩

/-- A restored team on its hub. -/
def SavedTeam.placed (x : SavedTeam) (hub base : Nat) (acc : List Nat) (budgets : List Budget) : Team :=
  { x.team with st := .resident, hub := hub, hsBase := base, acc := acc, budgets := budgets }

/-- A hub among those of a restored team's kernel. -/
def Kernel.withHub (k : Kernel) (hub : Nat) : Kernel :=
  { k with hubs := if k.hubs.contains hub then k.hubs else k.hubs ++ [hub] }

/-- A kernel keeps its context where it keeps its name. -/
theorem State.ctxOf_updKernel (s : State) (kid : Nat) {f : Kernel → Kernel}
    (hf : ∀ k : Kernel, (f k).kid = k.kid ∧ (f k).ctx = k.ctx) (n : Nat) : (s.updKernel kid f).ctxOf n = s.ctxOf n := by
  have hkept (k : Kernel) : (if k.kid == kid then f k else k).kid = k.kid ∧ (if k.kid == kid then f k else k).ctx = k.ctx := by
    split
    · exact hf k
    · exact ⟨rfl, rfl⟩
  have hfind : (s.updKernel kid f).kernel? n = (s.kernel? n).map fun k => if k.kid == kid then f k else k := by
    simp only [State.kernel?, State.updKernel, State.modify_m, updBy, List.find?_map, Function.comp_def, hkept]
  unfold State.ctxOf
  rw [hfind]
  cases s.kernel? n with
  | none => rfl
  | some k => exact (hkept k).2

/-- A restored team and its threads are the machine's again, on a hub of their kernel (R272). -/
def State.joined (s : State) (x : SavedTeam) (t : Team) : State :=
  (s.modify fun m => { m with
    teams := m.teams ++ [t]
    threads := m.threads ++ x.threads.map (·.restored)
    resumes := m.resumes ++ x.resumes (m.cycle + 1) }).updKernel x.team.ref.kid (·.withHub t.hub)

/-- The context of the team's kernel loses the team from its saved ones (R272). -/
theorem State.restoreOn_eq (s : State) (x : SavedTeam) (h : Hub) (seats : List (Gang × Nat × Nat)) (base : Nat)
    (acc : List Nat) (budgets : List Budget) : ∃ u, s.sameTeams u ∧ s.restoreOn x h seats base acc budgets =
      (u.joined x (x.placed h.hub base acc budgets)).updContext (s.ctxOf x.team.ref.kid) fun c =>
        { c with saved := c.saved.filter (·.team.ref != x.team.ref) } := by
  let t := x.placed h.hub base acc budgets
  have hon : ∃ u, s.sameTeams u ∧ s.restoreOn x h seats base acc budgets =
      (u.joined x t).updContext ((u.joined x t).ctxOf x.team.ref.kid) fun c =>
        { c with saved := c.saved.filter (·.team.ref != x.team.ref) } := by
    refine ⟨_, ?_, rfl⟩
    refine State.sameTeams.trans (State.sameTeams.trans (State.sameTeams.trans ?_ (State.sameTeams_clearTeam _ _ _))
      (State.sameTeams_restoreBytes _ _ _ _)) (State.sameTeams_setHub _ _)
    refine State.sameTeams.trans (State.sameTeams_foldl (fun u p => ?_) seats _) (State.sameTeams_foldl (fun u p => ?_) seats _)
    all_goals exact ⟨rfl, rfl, rfl, rfl⟩
  obtain ⟨u, hu, heq⟩ := hon
  have hkernels : u.m.kernels = s.m.kernels := by
    obtain ⟨-, -, hkernels, -⟩ := hu
    exact hkernels
  have hctx : (u.joined x t).ctxOf x.team.ref.kid = s.ctxOf x.team.ref.kid := by
    refine (State.ctxOf_updKernel _ _ (f := (·.withHub t.hub)) (fun _ => ⟨rfl, rfl⟩) _).trans ?_
    simp only [State.ctxOf, State.kernel?, State.modify_m, hkernels]
  exact ⟨u, hu, hctx ▸ heq⟩

/-- Where no hub takes a saved team, nothing happens. -/
theorem State.restoreTeam_cases (s : State) (x : SavedTeam) : s.restoreTeam x = s ∨ ∃ h seats base acc budgets,
    s.restoreTeam x = s.restoreOn (s.readTeam (s.ctxOf x.team.ref.kid) x) h seats base acc budgets := by
  unfold State.restoreTeam
  simp only
  split
  · exact .inl rfl
  · split
    · exact .inr ⟨_, _, _, _, _, rfl⟩
    · exact .inl rfl

end Sys2Proof.Machine

namespace Sys2Proof.Claims
open Sys2Proof.Machine

/-- R272: the team that stands on a hub again. -/
theorem restored_stands {s t : State} {x : SavedTeam} {n : Nat} (hn : s.ctxOf x.team.ref.kid = n) (ht : s.restoreTeam x = t)
    (hlen : t.m.teams.length ≠ s.m.teams.length) :
    ∃ y : Team, y.st = .resident ∧ y.ref = x.team.ref ∧ y.bars = (s.readTeam n x).team.bars ∧ t.m.teams = s.m.teams ++ [y] ∧
      t.m.threads = s.m.threads ++ (s.readTeam n x).threads.map (fun u => { u with stopped := false }) ∧
      (n < 64 → ∀ z ∈ (t.context n).saved, z.team.ref ≠ x.team.ref) := by
  subst hn
  obtain hsame | ⟨h, seats, base, acc, budgets, hon⟩ := s.restoreTeam_cases x
  · exact absurd (by rw [← ht, hsame]) hlen
  · have href := s.readTeam_ref (s.ctxOf x.team.ref.kid) x
    obtain ⟨u, ⟨hthreads, hteams, -, -⟩, heq⟩ :=
      s.restoreOn_eq (s.readTeam (s.ctxOf x.team.ref.kid) x) h seats base acc budgets
    rw [href] at heq
    rw [← ht, hon, heq]
    refine ⟨(s.readTeam (s.ctxOf x.team.ref.kid) x).placed h.hub base acc budgets, rfl, href, rfl, ?_, ?_, fun hn z hz => ?_⟩
    · rw [← hteams]
      rfl
    · rw [← hthreads]
      rfl
    · rw [State.context_updContext hn] at hz
      simpa using (List.mem_filter.1 hz).2

/-- R209, R255, R271, R272, R318: the save of a team, and its restore. -/
theorem teamSaveAndRestore : TeamSaveAndRestore := by
  constructor
  · intro s r hr
    have hexec : exec .teamSave s = .next (s.saveTeam r) := hr ▸ rfl
    refine ⟨fun hx => ?_, fun x hx hd => ?_, fun x hx hd href => ?_⟩
    · rw [hexec, State.saveTeam, hx]
    · rw [hexec, State.saveTeam, hx]
      simp only [hd, Bool.not_false, if_true]
    · subst href
      exact ⟨_, hexec, saved_leaves hx hd rfl⟩
  · intro s c
    have hexec : exec .teamRestore s = .next (match s.nextRestore c with
      | some x => s.restoreTeam x
      | none => s) := rfl
    refine ⟨fun hst => ?_, fun hall => ?_, fun x hx => ?_⟩
    · have hnone : s.nextRestore c = none := if_pos (bne_iff_ne.2 hst)
      rw [hexec, hnone]
    · rw [hexec, State.nextRestore_none]
      simpa using hall
    · intro n
      obtain ⟨hmem, hlen⟩ := State.nextRestore_some hx
      obtain ⟨y, hst, href, hbars, hteams, hthreads, hsaved⟩ := restored_stands rfl rfl hlen
      exact ⟨_, y, by rw [hexec, hx], hmem, hst, href, hbars, hteams, hthreads, hsaved⟩

/-- Settles O37: a request reaches the quarters of its set's hubs, a drained team leaves the machine for its context's saved teams,
and the next one that fits stands on a hub again. -/
theorem preemptionSaveAndRestore : Obligations.PreemptionSaveAndRestore := ⟨preemptionEvents, teamSaveAndRestore⟩

end Sys2Proof.Claims
end
